-- ==== Sys2Proof/Word.lean ====
section
/-! DEFINITION. The word types of the HR7214 and the plainest arithmetic on bytes and bits:
port words are 32 bit (R165), event payloads 24 bit (R312), every multi-byte field is
little-endian (R3). -/

namespace Sys2Proof

abbrev Byte := BitVec 8
abbrev Half := BitVec 16
abbrev Word := BitVec 32
abbrev Payload := BitVec 24

/-- Entry `i` of a list, or `d` past its end. -/
def nth {α : Type} (l : List α) (i : Nat) (d : α) : α := l.getD i d

/-- A list with entry `i` changed by `f`. -/
def modAt {α : Type} (l : List α) (i : Nat) (f : α → α) : List α := l.modify i f

end Sys2Proof
end

