-- ==== Sys2Proof/Types.lean ====
section
/-! DEFINITION. The names the manual gives to things that commands and state both speak of:
ports, chains, clocks, radio states, frames, measurements and the progress of each opcode. -/

namespace Sys2Proof

/-- The two host ports (R10, R160). -/
inductive Port where | a | b
deriving DecidableEq, Repr

/-- How the words of a port transaction end: chip select rises after a whole word, rises inside the next word, or
stays low, so that further words may follow (R172, R187, R196). -/
inductive TxEnd | whole | cut | held
deriving DecidableEq, Repr

/-- What a transaction in progress does: its words take effect; its address is misaligned, so that they do not and a
read is zero (R212); it began while its port was being reset, so that the same holds and no error of it is reported
(R209); or its port was reset under it and drives nothing until chip select rises (R206). -/
inductive TxKind | live | misaligned | silent | dead
deriving DecidableEq, Repr

/-- The two RF chains (R10). -/
inductive Chain where | hf | uhf
deriving DecidableEq, Repr

/-- The three lanes ("Fetching and admission"). -/
inductive LaneId where | hf | uhf | house
deriving DecidableEq, Repr

/-- The two cores that kick the watchdog (R762). -/
inductive CoreId where | protocol | house
deriving DecidableEq, Repr

/-- Clock domains, in the order of R92. -/
inductive Clock where
  | aon | xo | hftx | hfrx | uhfbb | core | fab | sec | rnga | rngb | pa | pb | lpd | pwr
deriving DecidableEq, Repr

/-- Radio states of a chain (R361). -/
inductive Radio where | sleep | standby | synth | listen | rx | tx
deriving DecidableEq, Repr

/-- Power states (R67), with steps 1 to 4 of start-up, steps 5 to 11 (`boot`) and recovery service (R82, R148); `run` is
IDLE or ACTIVE, which R68 tells apart from the units in use. -/
inductive PowerState where | off | startup | boot | recovery | run | deepStandby | retain | lpcd
deriving DecidableEq, Repr

/-- Wake sources (R74). -/
inductive WakeSrc where | pin | timer | fdet | lpcdHit | portB
deriving DecidableEq, Repr

/-- Synthesiser or PLL of a chain (R363, R418). -/
inductive Pll where | off | starting | locked
deriving DecidableEq, Repr

/-- Frame results (R491); a collision reports its bit position. -/
inductive FrameResult where
  | ok | noSof | collision (bit : Nat) | coding | crc | overlong
deriving DecidableEq, Repr

/-- What the demodulator keeps of a received frame (R492): matched-filter outputs, the ideal
values (`true` for +1), the noise outputs, and the folded carrier level separated from the start of frame (R546). -/
structure RxMeas where
  r : List (Int × Int)
  d : List Bool
  noise : List (Int × Int)
  carrier : Int
deriving DecidableEq, Repr

/-- One doorbell: source, payload, and whether a port wrote it (R312, R335). -/
structure Doorbell where
  src : Nat
  pay : Payload
  byPort : Bool
deriving DecidableEq, Repr

/-- Producers of doorbells (R21): the two ports, the seven unit crossings of the Event rows of
R105, and the CK-FAB units. -/
inductive Producer where
  | portA | portB | hfrx | hftx | uhfbb | sec | core | lpd | aon | fab
deriving DecidableEq, Repr

/-! ## Frames of the HF chain -/

/-- Frames the reader sends (ISO/IEC 14443, 15693 and 18092 as R592–R612 and R659–R669 name
them); contents are those the manual gives. -/
inductive HfFrame where
  | reqa | wupa
  | anticoll (level : Nat) (known : List Bool)
  | select (level : Nat) (uid : List Byte)
  | hlta
  | rats (fsdi cid : Nat)
  | pps (dsi dri : Nat)
  | sParam (dsi dri : Nat)
  | reqb (wake : Bool) (afi : Option Byte) (n : Nat)
  | slotMarker (k : Nat)
  | attrib (pupi : List Byte) (dsi dri fsdi cid : Nat)
  | hltb (pupi : List Byte)
  | inventory (afi : Option Byte) (mask : List Nat)
  | eof15
  | select15 (uid : List Byte)
  | stayQuiet (uid : List Byte)
  | iBlock (num chain : Bool) (inf : List Byte)
  | rAck (num : Bool)
  | rNak (num : Bool)
  | sWtx (m : Nat)
  | sDeselect
  | raw (bytes : List Byte) (proto : Nat) (crc short : Bool) (dsi dri : Nat)
  | req15 (code : Nat) (option select : Bool) (uid : Option (List Byte)) (params : List Byte)
  | atrReq (nfcid : List Byte) (gb : List Byte) (lr : Nat)
  | atrRes (nfcid : List Byte) (gb : List Byte) (lr toc : Nat)
  | depReq (more : Bool) (data : List Byte)
  | depRes (more : Bool) (data : List Byte)
  | depAck
  | rtox (m : Nat)
  | dslReq | rlsReq | relRes
  | pslRes (rate : Nat)
  | emuAtqa (v : Half) | emuUid (level : Nat) | emuSak (final : Bool)
  | emuAts (bytes : List Byte) | emuPps | emuIBlock (num chain : Bool) (inf : List Byte)
  | emuAck (num : Bool) | emuWtx (m : Nat) | emuDeselect
deriving DecidableEq, Repr

/-- What a card or target answers (R592–R612, R659–R662). In `dsSet` and `drSet` bit k says that the card declares the
rate code k (R599). -/
inductive HfAnswer where
  | atqa (v : Half)
  | uidBits (bits : List Bool)
  | sak (b : Byte)
  | ats (bytes : List Byte) (fsci fwi sfgi dsSet drSet : Nat) (cidOk : Bool)
  | ppsOk | sParamOk (dsSet drSet : Nat)
  | atqb (pupi app prot : List Byte)
  | attribOk (bytes : List Byte)
  | haltOk
  | inv15 (dsfid : Byte) (uid : List Byte)
  | ans15 (flags : Byte) (err : Byte) (data : List Byte)
  | iBlock (num chain : Bool) (inf : List Byte)
  | rAck (num : Bool)
  | rNak (num : Bool)
  | sWtx (m : Nat)
  | sDeselect
  | raw (bytes : List Byte)
deriving DecidableEq, Repr

/-- Frames a reader sends to the emulated card (R641–R647). -/
inductive EmuFrame where
  | reqa | wupa
  | anticoll (level : Nat)
  | select (level : Nat) (isMine : Bool)
  | hlta
  | rats (fsdi cid : Nat)
  | pps (dsi dri : Nat)
  | iBlock (num chain : Bool) (inf : List Byte)
  | rAck (num : Bool)
  | rNak (num : Bool)
  | sWtx (m : Nat)
  | sDeselect
  | bad
deriving DecidableEq, Repr

/-- Frames of an ISO/IEC 18092 peer (R659–R669). -/
inductive PeerFrame where
  | atrReq (nfcid gb : List Byte)
  | atrRes (nfcid gb : List Byte) (toc : Nat)
  | dep (more : Bool) (data : List Byte)
  | depAck
  | rtox (m : Nat)
  | pslReq (rate : Nat)
  | released
  | bad
deriving DecidableEq, Repr

/-! ## Frames of the UHF chain -/

/-- The link that a Query asks its tags for (R473, R474): DR 64/3 or 8, TRcal in units of 31.25 ns, M = 2^m with 0 for
FM0, the pilot tone, and the BLF in kHz. -/
structure Link where
  dr64 : Bool
  trcal : Nat
  m : Nat
  trext : Bool
  blf : Nat
deriving DecidableEq, Repr

/-- Reader commands of ISO/IEC 18000-63 the part sends (00_scope). -/
inductive UhfFrame where
  | select (target action membank : Nat) (trunc : Bool) (ptr : Nat) (maskLen : Nat) (mask : List Byte)
  | query (sel session : Nat) (targetB : Bool) (q : Nat) (link : Link)
  | queryAdjust (q : Nat)
  | queryRep
  | ack (rn : Half)
  | reqRn (rn : Half)
  | read (bank ptr words : Nat) (handle : Half)
  | write (bank ptr : Nat) (cover : Half) (handle : Half)
  | blockWrite (bank ptr : Nat) (data : List Byte) (handle : Half)
  | lock (payload : Nat) (handle : Half)
deriving DecidableEq, Repr

/-- Tag replies (R613, R620–R622). -/
inductive UhfAnswer where
  | rn16 (v : Half)
  | epc (pc : Half) (epc : List Byte)
  | handle (v : Half)
  | words (bytes : List Byte)
  | done
  | error (code : Byte)
deriving DecidableEq, Repr

/-! ## SAM answers -/

/-- What arrives from a SAM during an exchange (R819, R820): T=0 procedure bytes, data and status
words, T=1 blocks, and characters or blocks that fail parity or LRC/CRC. -/
inductive SamRx where
  | ack | null
  | data (bytes : List Byte)
  | sw (sw1 sw2 : Byte)
  | iBlock (more : Bool) (inf : List Byte)
  | rBlock (err : Bool)
  | sWtx (m : Nat)
  | sIfs | sResynch
  | parity
  | edcError
  | bad
deriving DecidableEq, Repr

/-! ## Packets and replies -/

/-- A fetched packet (R264, R265): header fields and inline parameters. -/
structure Packet where
  id : Nat
  tenant : Nat
  opcode : Nat
  ordered : Bool
  notify : Bool
  seq : Nat
  cookie : Word
  deadline : Nat
  params : List Byte
  fetched : Nat
deriving DecidableEq, Repr

/-- One clamp entry (R271). -/
structure Clamp where
  field : Nat
  reason : Nat
  reasons : Nat
  requested : Int
  applied : Int
deriving DecidableEq, Repr

/-! ## Progress of the opcodes that take more than one step -/

/-- What one HF_POLL is doing (R592–R597). -/
structure PollOp where
  tech : Nat
  wake : Bool
  afi : Option Byte
  nSlots : Nat
  techs : Nat
  off : Nat
  level : Nat
  known : List Bool
  uid : List Byte
  atqa : Half
  slot : Nat
  collided : Bool
  repeats : Nat
  masks : List (List Nat)
  found : Nat
  more : Bool
  collLeft : Bool
  probing : Bool
deriving DecidableEq, Repr

/-- What one HF_ACTIVATE is doing (R598–R601). -/
structure ActivateOp where
  handle : Nat
  level : Nat
  dsi : Nat
  dri : Nat
  fsdi : Nat
  cid : Nat
  copy : Bool
  off : Nat
  cascade : Nat
  answer : List Byte
  lq : Nat
  evm : Nat
deriving DecidableEq, Repr

/-- What one HF_TRANSCEIVE or HF_15693_EXCHANGE is doing (R611, R612). -/
structure RawOp where
  rxMax : Nat
  rxOff : Nat
  is15 : Bool
  rxCrc : Bool
  handle : Nat := 0
deriving DecidableEq, Repr

/-- What one HF_ISODEP_EXCHANGE is doing (R602–R608). -/
structure IsoOp where
  handle : Nat
  rest : List Byte
  last : HfFrame
  num : Bool
  receiving : Bool
  retries : Nat
  deselecting : Option Nat
  rspOff : Nat
  rspMax : Nat
  rspLen : Nat
  sent : Nat
  received : Nat
  retrans : Nat
  wtx : Nat
  overflow : Bool
  lq : Nat
  evm : Nat
deriving DecidableEq, Repr

/-- HF_DESELECT, and the card handling of R589 before a lease passes (R610). -/
structure DeselectOp where
  todo : List Nat
  halted : Nat
  dropped : Nat
  drop : Bool
deriving DecidableEq, Repr

/-- One tag record (R636). -/
structure TagRec where
  pc : Half
  epc : List Byte
  lq : Nat
  evm : Nat
  channel : Nat
  fromB : Bool
  stamp : Nat
  count : Nat
deriving DecidableEq, Repr

/-- Where an inventory round stands (R613, R614). -/
inductive InvStage where
  | selects (left : List Nat)
  | slot
  | last
  | acked (rn : Half) (again : Bool)
  | between
deriving DecidableEq, Repr

/-- What one UHF_INVENTORY is doing (R613–R617). `qfp` is in units of 0.01, `lo` and `hi` are the bounds that
the round began with. -/
structure InvOp where
  session : Nat
  target : Nat
  sel : Nat
  tagEvents : Bool
  roundEvents : Bool
  maxRecs : Nat
  emptyRounds : Nat
  limitAt : Nat
  off : Nat
  recs : List TagRec
  reads : Nat
  rounds : Nat
  emptyRun : Nat
  newInRound : Nat
  q : Nat
  qfp : Nat
  slots : Nat
  collided : Nat
  empty : Nat
  targetB : Bool
  stage : InvStage
  draw : Option Nat
  lo : Nat := 0
  hi : Nat := 0
deriving DecidableEq, Repr

/-- One operation of UHF_ACCESS (R638). -/
structure AccessEntry where
  kind : Nat
  bank : Nat
  words : Nat
  ptr : Nat
  data : Nat
deriving DecidableEq, Repr

/-- Stage of UHF_ACCESS: singulation step 1–5 of R620, then the operation list. -/
inductive AccessStage where
  | selectSl | selectS2 | query | acked | handle
  | op (word : Nat) (cover : Bool)
deriving DecidableEq, Repr

/-- What one UHF_ACCESS is doing (R620–R623). -/
structure AccessOp where
  epc : List Byte
  ops : List AccessEntry
  idx : Nat
  attempts : Nat
  stage : AccessStage
  rn : Half
  handle : Half
  resOff : Nat
  readOff : Nat
  lq : Nat
  evm : Nat
deriving DecidableEq, Repr

/-- UHF_SELECT with SEND_NOW: slots still to send (R619). -/
structure SelectOp where
  left : List Nat
deriving DecidableEq, Repr

/-- What one SAM_POWER is doing (R814–R818). `tryNext` lists the classes of R816 still to try; `tries` and `resynched`
count for its S(IFS request) (R820). -/
structure SamPowerOp where
  n : Nat
  pps : Bool
  cls : Nat
  tryNext : List Nat
  off : Nat
  ppsSent : Bool
  warm : Bool
  tries : Nat := 0
  resynched : Bool := false
deriving DecidableEq, Repr

/-- What one SAM_EXCHANGE is doing (R819–R823). -/
structure SamXchgOp where
  n : Nat
  autoGr : Bool
  cmd : List Byte
  rest : List Byte
  rsp : List Byte
  rspOff : Nat
  rspMax : Nat
  retrans : Nat
  waits : Nat
  tries : Nat
  resynched : Bool
deriving DecidableEq, Repr

/-- What the ECC of the NV array finds in the chunks that a command reads: the offsets of those that read uncorrectable,
and how many it corrects (R771, R772). -/
structure EccRead where
  bad : List Nat := []
  corrected : Nat := 0
deriving DecidableEq, Repr

/-- What an UNFENCE is doing: the fenced units that it named, those whose self-test has not ended, in turn, which of
them fail, the return loss that the UHF chain measures, what the scan of the key store reads, when the test that runs
ends, and whether a fence decision has met it (R753, R756). -/
structure TestOp where
  named : List Nat
  rest : List Nat
  failing : List Nat
  rl : Nat
  ecc : EccRead
  endAt : Nat
  hit : Bool
deriving DecidableEq, Repr

/-- What waits for what on a lane: the progress of the executing packet. `fresh` is an admitted
packet whose opcode row has not run yet. -/
inductive Phase where
  | fresh
  | nv (status : Nat)
  | sense (until_ : Nat)
  | fieldRise
  | fieldFall
  | settle
  | carrierRise
  | carrierFall
  | channel
  | lbt
  | leaseEnd
  | deselect (op : DeselectOp)
  | poll (op : PollOp)
  | activate (op : ActivateOp)
  | raw (op : RawOp)
  | iso (op : IsoOp)
  | inventory (op : InvOp)
  | access (op : AccessOp)
  | select (op : SelectOp)
  | lpcdBase (left : Nat) (aSum nSum : Nat)
  | samPower (op : SamPowerOp)
  | samXchg (op : SamXchgOp)
  | calHold (own : Bool)
  | calOsc
  | draw (since : Nat)
  | emuRespond
  | peerStart
  | peerXchg
  | peerSwap
  | lockWait
  | breaking (left : Nat)
  | towWait
  | cipherUse (key : List Byte)
  | cipherDraw (key : List Byte) (since : Nat)
  | stageUse
  | keyErase
  | runWait (vals : List Int) (body : List Byte)
  | runRise (vals : List Int) (body : List Byte)
  | runFall (body : List Byte)
  | runOn (vals : List Int) (body : List Byte)
  | tuneWait (body : List Byte)
  | resetWait
  | specWait (bins : List (Int × Int))
  | testing (op : TestOp)
  | done (status : Nat)
deriving DecidableEq, Repr

/-- A staged record of a key slot (R717); `entryTorn` when an ACTIVATE entry for it was cut before the flip
(R728). -/
structure Shadow where
  kind : Nat
  owner : Nat
  usage : Nat
  version : Nat
  key : List Byte
  kcv : List Byte
  page : Nat
  entryTorn : Bool
deriving DecidableEq, Repr

/-- Durable state of a key slot (R711, R715, R716): state code of R739, the counter ceiling, the key
and its pool page; `torn` is the page of a
record that has no commit word, beside which an earlier shadow still stands (R136, R728). -/
structure KeySlot where
  state : Nat
  kind : Nat
  owner : Nat
  usage : Nat
  version : Nat
  ceiling : Nat
  key : List Byte
  kcv : List Byte
  page : Nat
  shadow : Option Shadow
  torn : Option Nat
deriving DecidableEq, Repr

/-- A packet in execution (R279–R287): admission time, suspension and towpath flags, clamps so far, the status it must
end with at its next yield point, its progress, for a cipher command the key slot as it stood at its admission (R709),
with its usage counter then, and what a power field held before this packet wrote it, with what it wrote (R57). -/
structure Exec where
  pkt : Packet
  start : Nat
  slice : Nat
  sliceOver : Bool
  suspended : Bool
  towpath : Bool
  clamps : List Clamp
  stop : Option Nat
  partialBody : List Byte
  phase : Phase
  parked : Bool
  slot : Option KeySlot := none
  used : Nat := 0
  prior : Option (Int × Int) := none
  admitted : Nat := 0
deriving DecidableEq, Repr

end Sys2Proof
end

