-- ==== Sys2Proof/Syntax.lean ====
section
/-! DEFINITION. The commands of the block: one constructor per row of spec/opcode_table.json, in the table's order. An
operand is what the row takes from outside the part (a transaction's words, a measurement, a received frame, a card's
answer) or which of several alike things it concerns (a port, a chain, a core). A port transaction is given as its bytes
after the command, as R164 transfers them, and the bits of a byte that chip select cuts short; no address bytes continue
a transaction that is still open. An opcode row (NOP, GET_INFO, ...) executes the packet that PACKET_ADMIT has put on
the opcode's lane, so its parameters stand in that packet (R264). An operand with a default is one that the plain case
of its row does without. -/

namespace Sys2Proof

/-- What the surroundings contribute to the start-up sequence of R82: the units that fail their self-test at step 10,
whether each entropy source passes its start-up tests and the known-answer tests pass (R689), the level of TEST_EN at
step 1 (R525), the CK-AON cycles that pass before step 2 (R102), whether VHOLD lies above 2.0 V (R52), the NV offsets
of the chunks that read uncorrectable (R772), how many chunks were read corrected (R771), and
VIN in mV when the early-warning comparator is armed (R865). -/
structure StartEnv where
  failed : List Nat
  jitterOk : Bool
  noiseOk : Bool
  katOk : Bool
  testEn : Bool
  aonCycles : Nat
  vholdHigh : Bool
  nvBad : List Nat
  nvCorrected : Nat
  vin : Nat
deriving DecidableEq, Repr

inductive Instr where
  -- supply, start-up and resets
  | powerOnReset (vin : Nat)
  | powerGoodLoss
  | pinReset (lowNs : Nat)
  | uvloFall
  | startUp (env : StartEnv)
  | crystalStartTimeout
  | fwConfirmRetry
  | fwActivationReset
  | vinBelowThreshold (vin : Nat)
  | vinEarlyWarn (vin : Nat)
  | vinAboveHysteresis (vin : Nat)
  | vinRecovered (vin : Nat)
  | vpaFault
  | holdupUpdate (vhold pIn pVpa : Nat)
  | choldMeasured (c : Nat)
  | thermalSample (t : Int)
  | thermalReadingTimeout
  | clockMonitorWindow (counts : List (Clock × Nat))
  | aonCrystalSelect (ok : Bool := true)
  | hfDriverClockStop
  | setPowerState
  | lowPowerEntry
  | wakeTimerExpiry
  | wakeAsserted (high : Bool := true)
  | retainPortWake
  | lowPowerWake
  | watchdogWarning (core : CoreId)
  | watchdogReset (origin reason : Nat)
  | stormCountClear
  | vioPresent (p : Port) (mv : Nat := 1710) (us : Nat := 10)
  | vioAbsent (p : Port) (cut : Option Nat) (mv : Nat := 0)
  -- ports and registers
  | portWrite (p : Port) (addr data : List Byte) (tail : List Bool) (held : Bool := false)
  | portRead (p : Port) (addr : List Byte) (tail : List Bool) (count : Nat) (fin : TxEnd := .whole) (fast : Bool := false)
  | portReadDataReady
  | portStallLimit
  | portBadCommand (p : Port) (cmd : List Byte := [0]) (part : Bool := false)
  | reservedAccess (p : Port) (addr : Nat) (write : Bool)
  | portResetSequence (p : Port) (edges : Nat)
  | portReset (p : Port) (value : Word)
  | paCfgWrite (p : Port) (value : Word)
  | portErrRead (p which : Port)
  | timeLoRead (p : Port)
  | cmdProdWrite (p : Port) (n : Nat) (value : Word)
  | rplConsWrite (p : Port) (n : Nat) (value : Word)
  | evtConsWrite (p : Port) (n : Nat) (value : Word)
  | registerWrite (p : Port) (addr : Nat) (value : Word)
  | recStage
  | recVerify
  | recActivate
  -- interrupt controller
  | icDoorbellWrite (p : Port) (value : Word)
  | doorbellArrived
  | coalesceTimeout (src : Nat)
  | arbitration
  | delivery
  | setclrSetPending (p : Port) (value : Word)
  | setclrClearPending (p : Port) (value : Word)
  | setclrSetMask (p : Port) (value : Word)
  | setclrClearMask (p : Port) (value : Word)
  | icPendWrite (p : Port) (i : Nat) (value : Word)
  | icMaskWrite (p : Port) (i : Nat) (value : Word)
  | icSrcWrite (p : Port) (src : Nat) (value : Word)
  | icSyncRead (p : Port) (fast : Bool)
  | icStatusRead (p : Port)
  | icEvtdropRead (p : Port) (n : Nat)
  | icClaimRead (p : Port) (t : Nat)
  | icEoiWrite (p : Port) (t : Nat) (value : Word)
  | icTstatRead (p : Port) (t : Nat)
  | rngDataRead (p : Port)
  | rngWaitTimeout
  | rngStatRead (p : Port)
  -- packets
  | packetFetch
  | packetAdmit (lane : LaneId)
  | sliceExpiry (lane : LaneId)
  | yieldPoint (lane : LaneId)
  | deadlineExpiry
  -- system opcodes
  | nop
  | getInfo
  | getStatus
  | setConfig
  | getConfig (ecc : EccRead := {})
  | readCounters
  | getFences
  | getLog (ecc : EccRead := {})
  | stageProtection
  | lockCycle
  | lockCycleDeferredStart
  | protectionWithdrawal
  | resetTenant
  | unfence (failing : List Nat) (rl : Nat := 255) (ecc : EccRead := {})
  | setWeights
  | preemptLease
  | charterRead (ecc : EccRead := {})
  | charterWrite
  | charterSeal
  | charterBreak
  | leaseAcquire
  | leaseRelease
  | leaseQuery
  | leaseGrant (c : Chain)
  | leaseHoldExpiry (c : Chain)
  -- HF chain
  | hfPllLocked
  | hfPllUnlock
  | hfField (iAnt : Nat)
  | hfFieldFallDone
  | driverCurrentLimit
  | powerLoopLimit (step : Nat)
  | mismatchMeasurement (phi : Int) (m : Nat)
  | hfTune (ms : List (Int × Nat)) (iAnt : Nat)
  | hfLpcdArm
  | lpcdMeasurement (a n : Nat)
  | agcWindow (c : Chain) (peak : Nat) (clip : Bool) (sof : Bool := false)
  | externalFieldDetected (peak : Nat := 8191)
  | externalFieldGone
  | hfRxFrame (res : FrameResult) (ans : HfAnswer) (meas : RxMeas) (clipped : Bool)
  | replyWindowTimeout (c : Chain)
  | hfPoll
  | hfActivate
  | hfTransceive
  | hfIsodepExchange
  | hfDeselect
  | hf15693Exchange
  -- UHF chain
  | uhfCarrier
  | uhfSetChannel
  | carrierFallDone
  | synthLocked
  | synthUnlock
  | synthRecal (band : Nat)
  | dwellSoftPoint
  | hop
  | restEnd
  | dwellLimit
  | channelAvailable
  | lbtSenseDone (level : Int)
  | rlMeasurement (rl : Nat)
  | hardReflection (rl : Nat)
  | paCurrentLimit
  | uhfRxFrame (res : FrameResult) (ans : UhfAnswer) (meas : RxMeas)
  | uhfInventory
  | uhfSelect
  | uhfAccess
  -- spectrum monitor and capture
  | maskCheckDone (bins : List (Int × Int))
  | spectrumCheck (bins : List (Int × Int))
  | captureSamples
  | captureTriggered (c : Chain)
  | captureDone (c : Chain) (samples : List (Int × Int)) (clipped : Bool)
  | captureTimeout (c : Chain)
  -- calibration and towpath
  | towpathStepStart (c : Chain)
  | towpathStepEnd (c : Chain) (x y : Int) (iAnt : Nat)
  | towpathStepOverrun (c : Chain)
  | calRun (results : List Int)
  | calGateEnd (error : Int)
  | xoTrimStep
  | calRefinTimeout
  | calHoldEnd (fwd rev : Int)
  | calStore
  | calLoad (ecc : EccRead := {})
  | calStatus
  | towpathConfig
  -- non-volatile store and firmware
  | nvProgramDone (mismatch uncorrectable : Bool) (corrected : Nat)
  | nvEraseDone
  | fwStageBlock
  | fwVerify (ecc : EccRead := {})
  | fwActivate
  -- RNG, cipher, keys
  | rngBlockDone (noise : Bool) (raw : List Byte) (rings : List (Nat × Nat) := []) (counts : List Nat := [])
  | reseed
  | drawTimeout (lane : LaneId)
  | rngRead
  | rngKat (failedTests : Nat)
  | rngRestart
  | keyStage
  | keyCommit
  | keyQuery
  | keyDestroy
  | keyLogRollover
  | cipherAes (ecc : EccRead := {})
  | cipherCmac (ecc : EccRead := {})
  -- containment
  | fenceEntry (unit cause : Nat)
  | faultLogCommit
  | basinScrub (addr bits : Nat)
  -- SAM and GPIO
  | samPower
  | samAtrReceived (n : Nat) (atr : List Byte) (ppsOk : Bool)
  | samAtrTimeout (n : Nat)
  | samClassRetry (n : Nat)
  | samExchange
  | samRxBlock (n : Nat) (rx : SamRx) (gap : Nat := 0)
  | samWaitTimeout (n : Nat)
  | samLease
  | samCardDetect (n : Nat) (high : Bool) (stableUs : Nat := 100000)
  | samOvercurrent (n : Nat)
  | gpioSet
  | gpioEdge (n : Nat) (level : Bool) (stableUs : Nat := 100000)
  -- field detect, emulation, peer
  | fdetAsserted
  | emuConfigure
  | emuArm
  | emuRxFrame (f : EmuFrame) (clipped : Bool := false) (res : FrameResult := .ok)
  | emuWtxTimer
  | emuRespond
  | emuDisarm
  | peerStart
  | peerExchange
  | peerRxFrame (f : PeerFrame) (meas : RxMeas) (clipped : Bool := false) (res : FrameResult := .ok)
  | peerRtox
  | peerRoleSwap
  | swapBackoffEnd
  | swapGapEnd (sensed : Bool)
  | swapReactivationTimeout
  | peerStop
  -- further moments
  | readerFrameEnd (c : Chain)
  | fieldRiseDone (iAnt : Nat) (drive : Nat := 0)
  | carrierRiseDone (fwd : Int) (rl : Nat)
  | fdetReleased
  | wakeReleased (high : Bool := false)
  | lbtBackoffEnd
  | otherFieldEnds
  | samCurrentLimitActive (n : Nat)
  | spreadTurningPoint
deriving DecidableEq, Repr

end Sys2Proof
end

