-- ==== Sys2Proof/WellFormed.lean ====
section
/-! DEFINITION. Which commands the surroundings can give: operands within the widths and ranges that the manual
gives the pins, registers and quantities they stand for. The meanings are total; a term that fails these checks
stands for nothing that can happen. -/

namespace Sys2Proof

/-- Sources, tenants, interfaces and pins have their numbers (R19, R214, R317, R809, R827). -/
def isSource (n : Nat) : Bool := decide (n < 128)
def isTenant (n : Nat) : Bool := decide (n < 8)
def isSam (n : Nat) : Bool := decide (n < 2)
def isPin (n : Nat) : Bool := decide (n < 4)
def isTarget (n : Nat) : Bool := decide (n < 4)

/-- A port address or a Basin byte address. -/
def isAddr (n : Nat) : Bool := decide (n < 2 ^ 32)

/-- A supply within the absolute maximum (R38, R851), in mV. -/
def isSupply (vin : Nat) : Bool := decide (vin ≤ 72000)

/-- The spectrum that the monitor estimates: a level for each bin of a 1024-point FFT, by rising frequency (R481, R506).
-/
def isSpectrum (bins : List (Int × Int)) : Bool :=
  bins.length == 1024 && (bins.zip bins.tail).all fun p => decide (p.1.1 < p.2.1)

/-- The command is one that the surroundings can give. -/
def Instr.wellFormed : Instr → Bool
  | .powerOnReset vin | .vinBelowThreshold vin | .vinEarlyWarn vin | .vinAboveHysteresis vin | .vinRecovered vin =>
    isSupply vin
  | .startUp env => isSupply env.vin && env.failed.all (fun u => decide (u < 14)) && env.nvBad.all (fun a => decide (a < 0x100000))
  | .watchdogReset origin reason => decide (origin < 3) && decide (reason < 4)
  | .portWrite _ addr data tail _ =>
    decide (addr.length ≤ 4) && decide (data.length ≤ 2 ^ 22) && decide (tail.length < 8)
  | .portRead _ addr tail n _ _ => decide (addr.length ≤ 4) && decide (tail.length < 8) && decide (n ≤ 2 ^ 20)
  | .portBadCommand _ cmd _ => decide (cmd.length ≤ 2)
  | .reservedAccess _ addr _ => isAddr addr
  | .cmdProdWrite _ n _ | .rplConsWrite _ n _ | .evtConsWrite _ n _ | .icEvtdropRead _ n => isTenant n
  | .registerWrite _ addr _ => isAddr addr
  | .coalesceTimeout n | .icSrcWrite _ n _ => isSource n
  | .icPendWrite _ i _ | .icMaskWrite _ i _ => decide (i < 4)
  | .icClaimRead _ t | .icEoiWrite _ t _ | .icTstatRead _ t => isTarget t
  | .unfence us _ _ => us.all fun u => decide (u < 14)
  | .powerLoopLimit k => decide (k ≤ 64)
  | .fieldRiseDone _ drive => decide (drive < 1024)
  | .maskCheckDone bins | .spectrumCheck bins => isSpectrum bins
  | .lpcdMeasurement a n => decide (a < 256) && decide (n < 64)
  | .agcWindow _ peak _ _ | .externalFieldDetected peak => decide (peak < 8192)
  | .towpathStepEnd .. => true
  | .rngBlockDone noise raw rings counts =>
    raw.length == (if noise then 256 else 512) && (!noise || (rings == [] && counts == []))
  | .rngKat t => decide (t < 32)
  | .fenceEntry u c => decide (u < 14) && decide (1 ≤ c) && decide (c ≤ 16)
  | .basinScrub addr bits => decide (addr < 0x400000) && decide (1 ≤ bits) && decide (bits ≤ 2)
  | .samAtrReceived n atr _ => isSam n && decide (atr.length ≤ 33)
  | .samAtrTimeout n | .samClassRetry n | .samRxBlock n _ _ | .samWaitTimeout n | .samCardDetect n _ _
  | .samOvercurrent n | .samCurrentLimitActive n => isSam n
  | .gpioEdge n _ _ => isPin n
  | _ => true

end Sys2Proof
end

