-- ==== Sys2Proof/Config.lean ====
section
/-! DEFINITION. What one specimen fixes and what the manual leaves free. An opaque constant has no
value that a proof can see: a statement about it holds whatever it is. -/

namespace Sys2Proof

/-- Who may set a configuration field besides the Keeper: nobody, the holder of a chain's lease, the
holder of a SAM's lease, or the owner of a GPIO pin (the sentences before each field table). -/
inductive FieldOwner where
  | keeper | hf | uhf | sam (n : Nat) | pin (n : Nat)
deriving DecidableEq, Repr

/-- One row of a field table. -/
structure FieldDef where
  id : Nat
  min : Int
  max : Int
  step : Nat
  dflt : Int
  owner : FieldOwner
deriving DecidableEq, Repr

namespace Config

/-- Free values of the model, one per count of State.free (log 2). -/
opaque freeNat : Nat → Nat
/-- A byte of NV never programmed; the manual gives no erased value (log 5). -/
opaque erasedByte : Nat → Byte
/-- A byte of an NV chunk that reads uncorrectable, by its offset (R772; logs 5 and 258). -/
opaque badByte : Nat → Byte
/-- The device-unique key of the key store, which never leaves it (R716; log 240). -/
opaque deviceKey : List Byte
/-- A byte of a Basin bank that has been switched off, by the occasion and its address (R67; log 128). -/
opaque bankByte : Nat → Nat → Byte
/-- The fixed key of the conditioner, which the manual does not give (R681; log 4). -/
opaque conditionerKey : List Byte
/-- ECDSA P-256 verification with the release public key of R140: message, signature (log 4). -/
opaque ecdsaOk : List Byte → List Byte → Bool
/-- The next state of the hopping LFSR of R428, whose polynomial the manual does not give (log 4). -/
opaque lfsrNext : Word → Word
/-- Its seed from the 64-bit serial number; how the 32 bits come of it is not given (R428; log 4). -/
opaque lfsrSeed : Nat → Word
/-- Built-in highest VPA draw of each HF step and UHF output step, in mW (R86). -/
opaque hfDrawMax : Nat → Nat
opaque uhfDrawMax : Nat → Nat

end Config

end Sys2Proof
end

