-- ==== Sys2Proof/Machine/Fields.lean ====
section
/-! DEFINITION. The configuration fields: one row per field of the tables of R88, R263, R311, R360,
R407, R456, R502, R572, R626, R671, R733 and R834. -/

namespace Sys2Proof.Machine

/-- Fields of R88: ID, minimum, maximum, step, default, who may set it besides the Keeper. -/
def fieldsR88 : List FieldDef := [
  ⟨0x0100, 9500, 40000, 500, 10000, .keeper⟩,
  ⟨0x0101, 1000, 4000, 50, 4000, .keeper⟩,
  ⟨0x0102, 0, 2000, 50, 0, .keeper⟩,
  ⟨0x0103, 0, 1, 1, 0, .keeper⟩,
  ⟨0x0104, 200, 5000, 100, 500, .keeper⟩,
  ⟨0x0105, 10, 470, 1, 47, .keeper⟩,
  ⟨0x0106, 90, 125, 1, 115, .keeper⟩,
  ⟨0x0107, 50, 500, 10, 250, .keeper⟩]

/-- Fields of R407: ID, minimum, maximum, step, default, who may set it besides the Keeper. -/
def fieldsR407 : List FieldDef := [
  ⟨0x0200, 31250, 2000000, 31250, 1000000, .hf⟩,
  ⟨0x0201, 0, 1, 1, 0, .hf⟩,
  ⟨0x0202, 0, 45, 3, 21, .hf⟩,
  ⟨0x0203, (-12), (-1), 1, (-3), .hf⟩,
  ⟨0x0204, 1, 12, 1, 3, .hf⟩,
  ⟨0x0205, 2, 100, 1, 8, .hf⟩,
  ⟨0x0206, 0, 1, 1, 0, .hf⟩,
  ⟨0x0207, 0, 1, 1, 1, .keeper⟩,
  ⟨0x0208, 50, 450, 10, 200, .keeper⟩,
  ⟨0x0209, 51, 512, 1, 205, .keeper⟩,
  ⟨0x020A, (-60), (-20), 1, (-40), .keeper⟩,
  ⟨0x020B, 20, 1000, 10, 100, .keeper⟩]

/-- Fields of R502: ID, minimum, maximum, step, default, who may set it besides the Keeper. -/
def fieldsR502 : List FieldDef := [
  ⟨0x0210, 28, 40, 1, 32, .hf⟩,
  ⟨0x0211, 8, 14, 1, 11, .hf⟩,
  ⟨0x0212, 0, 7, 1, 2, .hf⟩,
  ⟨0x0213, 0, 1, 1, 0, .hf⟩,
  ⟨0x0214, 8, 14, 1, 10, .hf⟩,
  ⟨0x0215, 0, 60, 1, 10, .keeper⟩,
  ⟨0x0310, 0, 1, 1, 1, .uhf⟩,
  ⟨0x0311, 0, 2, 1, 2, .uhf⟩,
  ⟨0x0312, 150, 200, 5, 200, .uhf⟩,
  ⟨0x0313, 80, 100, 1, 90, .uhf⟩,
  ⟨0x0314, 40, 640, 1, 160, .uhf⟩,
  ⟨0x0315, 0, 3, 1, 2, .uhf⟩,
  ⟨0x0316, 0, 1, 1, 0, .uhf⟩,
  ⟨0x0317, 0, 1, 1, 0, .keeper⟩,
  ⟨0x0318, 0, 60, 1, 10, .keeper⟩,
  ⟨0x0320, (-32768), 32767, 1, 0, .keeper⟩,
  ⟨0x0321, (-32768), 32767, 1, 0, .keeper⟩,
  ⟨0x0322, (-32768), 32767, 1, 0, .keeper⟩,
  ⟨0x0323, (-32768), 32767, 1, 0, .keeper⟩,
  ⟨0x0324, (-32768), 32767, 1, 0, .keeper⟩,
  ⟨0x0325, (-32768), 32767, 1, 0, .keeper⟩,
  ⟨0x0326, (-32768), 32767, 1, 0, .keeper⟩,
  ⟨0x0327, (-32768), 32767, 1, 0, .keeper⟩,
  ⟨0x0328, (-32768), 32767, 1, 0, .keeper⟩,
  ⟨0x0329, (-32768), 32767, 1, 0, .keeper⟩,
  ⟨0x032A, (-32768), 32767, 1, 0, .keeper⟩,
  ⟨0x032B, (-32768), 32767, 1, 0, .keeper⟩,
  ⟨0x032C, (-32768), 32767, 1, 0, .keeper⟩,
  ⟨0x032D, (-32768), 32767, 1, 0, .keeper⟩,
  ⟨0x032E, (-32768), 32767, 1, 0, .keeper⟩,
  ⟨0x032F, (-32768), 32767, 1, 0, .keeper⟩,
  ⟨0x0330, (-32768), 32767, 1, 0, .keeper⟩]

/-- Fields of R626: ID, minimum, maximum, step, default, who may set it besides the Keeper. -/
def fieldsR626 : List FieldDef := [
  ⟨0x0220, 5100, 20000, 100, 5100, .hf⟩,
  ⟨0x0221, 0, 5, 1, 2, .hf⟩,
  ⟨0x0222, 0, 1, 1, 0, .hf⟩,
  ⟨0x0223, 0, 10000, 1, 0, .hf⟩,
  ⟨0x0340, 0, 15, 1, 4, .uhf⟩,
  ⟨0x0341, 0, 15, 1, 0, .uhf⟩,
  ⟨0x0342, 0, 15, 1, 15, .uhf⟩,
  ⟨0x0343, 10, 50, 1, 30, .uhf⟩,
  ⟨0x0344, 1, 16, 1, 4, .uhf⟩]

/-- Fields of R671: ID, minimum, maximum, step, default, who may set it besides the Keeper. -/
def fieldsR671 : List FieldDef := [
  ⟨0x0230, 1, 8, 1, 5, .hf⟩,
  ⟨0x0231, 10, 90, 5, 50, .hf⟩,
  ⟨0x0232, 1, 59, 1, 4, .hf⟩,
  ⟨0x0233, 1, 255, 1, 20, .hf⟩,
  ⟨0x0234, 1, 100, 1, 10, .hf⟩,
  ⟨0x0235, 0, 14, 1, 8, .hf⟩]

/-- Fields of R456: ID, minimum, maximum, step, default, who may set it besides the Keeper. -/
def fieldsR456 : List FieldDef := [
  ⟨0x0300, 500, 3000, 25, 2700, .uhf⟩,
  ⟨0x0301, 0, 1, 1, 0, .uhf⟩,
  ⟨0x0302, 0, 60, 2, 30, .uhf⟩,
  ⟨0x0303, (-12), (-1), 1, (-6), .uhf⟩,
  ⟨0x0304, 1, 12, 1, 3, .uhf⟩,
  ⟨0x0305, 2, 100, 1, 8, .uhf⟩,
  ⟨0x0306, 0, 1, 1, 0, .uhf⟩,
  ⟨0x0307, 30, 200, 5, 60, .keeper⟩,
  ⟨0x0308, 0, 2, 1, 1, .keeper⟩,
  ⟨0x0309, 1, 100, 1, 5, .keeper⟩]

/-- Fields of R572: ID, minimum, maximum, step, default, who may set it besides the Keeper. -/
def fieldsR572 : List FieldDef := [
  ⟨0x0400, 0, 50, 1, 25, .keeper⟩,
  ⟨0x0401, 0, 100, 1, 20, .keeper⟩,
  ⟨0x0402, 100, 10000, 100, 1000, .keeper⟩,
  ⟨0x0403, 2, 20, 1, 8, .keeper⟩,
  ⟨0x0404, 0, 127, 1, 127, .keeper⟩]

/-- Fields of R360: ID, minimum, maximum, step, default, who may set it besides the Keeper. -/
def fieldsR360 : List FieldDef := [
  ⟨0x0500, 1, 255, 1, 1, .keeper⟩,
  ⟨0x0501, 1, 255, 1, 1, .keeper⟩,
  ⟨0x0502, 1, 255, 1, 1, .keeper⟩,
  ⟨0x0503, 1, 255, 1, 1, .keeper⟩,
  ⟨0x0504, 1, 255, 1, 1, .keeper⟩,
  ⟨0x0505, 1, 255, 1, 1, .keeper⟩,
  ⟨0x0506, 1, 255, 1, 1, .keeper⟩,
  ⟨0x0507, 1, 255, 1, 1, .keeper⟩,
  ⟨0x0508, 0, 65535, 1, 0, .keeper⟩,
  ⟨0x0509, 0, 65535, 1, 0, .keeper⟩,
  ⟨0x050A, 0, 65535, 1, 0, .keeper⟩,
  ⟨0x050B, 0, 65535, 1, 0, .keeper⟩,
  ⟨0x050C, 0, 65535, 1, 0, .keeper⟩,
  ⟨0x050D, 0, 65535, 1, 0, .keeper⟩,
  ⟨0x050E, 0, 65535, 1, 0, .keeper⟩,
  ⟨0x050F, 0, 65535, 1, 0, .keeper⟩]

/-- Fields of R733: ID, minimum, maximum, step, default, who may set it besides the Keeper. -/
def fieldsR733 : List FieldDef := [
  ⟨0x0600, 1, 15, 1, 4, .keeper⟩,
  ⟨0x0601, 12, 20, 1, 16, .keeper⟩,
  ⟨0x0602, 1, 1000, 1, 250, .keeper⟩]

/-- Fields of R834: ID, minimum, maximum, step, default, who may set it besides the Keeper. -/
def fieldsR834 : List FieldDef := [
  ⟨0x0700, 1000, 8000, 1, 4000, .sam 0⟩,
  ⟨0x0701, 1000, 8000, 1, 4000, .sam 1⟩,
  ⟨0x0702, 0, 1, 1, 0, .keeper⟩,
  ⟨0x0703, 0, 1, 1, 0, .keeper⟩,
  ⟨0x0704, 1, 50, 1, 5, .keeper⟩,
  ⟨0x0705, 16, 254, 1, 254, .keeper⟩,
  ⟨0x0710, 0, 7, 1, 0, .keeper⟩,
  ⟨0x0711, 0, 7, 1, 0, .keeper⟩,
  ⟨0x0712, 0, 7, 1, 0, .keeper⟩,
  ⟨0x0713, 0, 7, 1, 0, .keeper⟩,
  ⟨0x0714, 0, 3, 1, 0, .pin 0⟩,
  ⟨0x0715, 0, 3, 1, 0, .pin 1⟩,
  ⟨0x0716, 0, 3, 1, 0, .pin 2⟩,
  ⟨0x0717, 0, 3, 1, 0, .pin 3⟩,
  ⟨0x0718, 0, 10000, 10, 0, .keeper⟩,
  ⟨0x0720, 0, 1, 1, 0, .keeper⟩]

/-- Fields of R263: ID, minimum, maximum, step, default, who may set it besides the Keeper. -/
def fieldsR263 : List FieldDef := [
  ⟨0x0800, 1, 10000, 1, 100, .keeper⟩,
  ⟨0x0801, 1, 10000, 1, 100, .keeper⟩,
  ⟨0x0802, 5100, 50000, 100, 5500, .keeper⟩]

/-- Fields of R311: ID, minimum, maximum, step, default, who may set it besides the Keeper. -/
def fieldsR311 : List FieldDef := [
  ⟨0x0803, 500, 50000, 100, 2000, .keeper⟩,
  ⟨0x0804, 0, 60000000, 100, 0, .keeper⟩,
  ⟨0x0810, 1, 15, 1, 1, .keeper⟩,
  ⟨0x0811, 1, 15, 1, 1, .keeper⟩,
  ⟨0x0812, 1, 15, 1, 1, .keeper⟩,
  ⟨0x0813, 1, 15, 1, 1, .keeper⟩,
  ⟨0x0814, 1, 15, 1, 1, .keeper⟩,
  ⟨0x0815, 1, 15, 1, 1, .keeper⟩,
  ⟨0x0816, 1, 15, 1, 1, .keeper⟩,
  ⟨0x0817, 1, 15, 1, 1, .keeper⟩]

/-- Every configuration field. -/
def fieldTable : List FieldDef :=
  fieldsR88 ++ fieldsR407 ++ fieldsR502 ++ fieldsR626 ++ fieldsR671 ++ fieldsR456 ++ fieldsR572 ++ fieldsR360 ++ fieldsR733 ++ fieldsR834 ++ fieldsR263 ++ fieldsR311

/-- The definition of a field, none for an undefined ID (R293). -/
def fieldDef (id : Nat) : Option FieldDef := fieldTable.find? (fun f => f.id == id)

/-- Every field at its default (R290's tables). -/
def defaultCfg : List (Nat × Int) := fieldTable.map (fun f => (f.id, f.dflt))

/-- The value of a field in a list of values; 0 for an ID the list lacks. -/
def cfgGet (c : List (Nat × Int)) (id : Nat) : Int :=
  match c.find? (fun e => e.1 == id) with
  | some e => e.2
  | none => 0

/-- A list of values with one field changed. -/
def cfgSet (c : List (Nat × Int)) (id : Nat) (v : Int) : List (Nat × Int) :=
  c.map (fun e => if e.1 == id then (id, v) else e)

end Sys2Proof.Machine
end

