-- ==== Sys2Proof/Machine/State.lean ====
section
/-! DEFINITION. The state of the HR7214 as plain data, its value right after a power-on reset, and
the reasons a step can stop. INVENTORY.md names the rule behind each field. -/

namespace Sys2Proof.Machine

open Sys2Proof

/-! ## Power, AON and clocks -/

/-- Start-up from step 5 on (R82): the step that comes next and its moment, the units that AON held fenced, and
the fields clamped so far. -/
structure BootRun where
  env : StartEnv
  stage : Nat
  at_ : Nat
  held : List Nat
  clamps : List Nat
deriving DecidableEq, Repr

/-- The power unit (02_power). Voltages in mV, powers in mW, energies in µJ, times in µs. `capNom` is true where field
0x0105 stands for a C_HOLD that was never measured (R52); `warnAt` is VIN_WARN, `filterAt` the end of the comparator's
filter (R39, R865); `uhfWas` is the UHF grant at the start of the evaluation cycle (R13); `holdAt` is the earliest
moment of the next update of R46. -/
structure Pwr where
  state : PowerState
  entry : Option (PowerState × Nat)
  wakes : List WakeSrc
  vin : Nat
  vhold : Nat
  shed : List Int
  eHold : Nat
  tHold : Nat
  armed : Bool
  below : Bool
  warn : Bool
  warnAt : Nat
  filterAt : Nat
  warnCommit : Bool
  aboveAt : Option Nat
  vpaOn : Bool
  hfGrant : Nat
  uhfGrant : Nat
  uhfWas : Nat
  later : Option Chain
  testEn1 : Bool
  capNom : Bool
  holdAt : Nat
  boot : Option BootRun
deriving DecidableEq, Repr

/-- What AON keeps (R79, R102, R754, R765). `fences` and `details` hold the cause and detail of each
held fence, 0 for none; `trials` and `trialsB` count the trials of banks A and B (R147), 4 once a bank is
abandoned; `wdtFull` is true from the watchdog reset that fills WDT_RESETS to the source 12 of it (R775). -/
structure Aon where
  crystal : Bool
  wakeAt : Option Nat
  queue : List Doorbell
  fences : List Nat
  details : List Nat
  storm : Nat
  trials : Nat
  trialsB : Nat
  wdtResets : Nat
  wdtReport : Option (Nat × Nat)
  wdtFull : Bool
  lostClocks : List Clock
  cHold : Option Nat
  bootAt : Option Nat
  startCause : Nat
  elapsed : Nat
deriving DecidableEq, Repr

/-- The clock monitor (R111): bad windows in a row, clocks declared lost and the earliest end of the next window
per clock; the spread generator (R123, R124); and the clocks lost with CK-XO while field and carrier fall (R113). -/
structure Clk where
  bad : List Nat
  lost : List Bool
  next : List Nat
  spreadOn : Bool
  xoLost : List Clock
deriving DecidableEq, Repr

/-! ## Non-volatile store -/

/-- A state page of a firmware bank, or the seal page (R141, R511). -/
inductive NvPage where
  | erased | torn | valid (value : Nat)
deriving DecidableEq, Repr

/-- A firmware bank: the bytes programmed so far by bank offset, whether it still holds the release image it shipped
with, the 16-byte chunks of the image that read uncorrectable (R772), the sectors that are not blank (R150), and its two
state pages (R139, R141; log 7). -/
structure FwBank where
  mem : List Host.Cell
  shipped : Bool
  bad : List Nat
  dirty : List Nat
  act : NvPage
  conf : NvPage
deriving DecidableEq, Repr

/-- The content of a charter record (R509). Masks and raster hold the entries in use. -/
structure Charter where
  profile : Nat
  gen : Nat
  label : List Byte
  hfMax : Nat
  hfMask : List (Nat × Int)
  uhfEnable : Bool
  fixedOk : Bool
  lbt : Bool
  raster : List Nat
  uhfMask : List (Nat × Int)
  maxEirp : Nat
  antGain : Int
  cableLoss : Nat
  lbtThr : Int
  dwell : Nat
  window : Nat
  occLimit : Nat
  rest : Nat
  lbtListen : Nat
  lbtBackoff : Nat
deriving DecidableEq, Repr

/-- What an NV record region holds. -/
inductive NvRec (α : Type) where
  | erased | torn | valid (a : α)
deriving DecidableEq, Repr

/-- The HF section (R536). -/
structure HfCal where
  series : Nat
  parallel : Nat
  phase : Nat
  rAnt : Nat
  null : Nat
  aBase : Nat
  nBase : Nat
  offsets : List Int
  eff : List Nat
deriving DecidableEq, Repr

/-- The UHF section (R537). -/
structure UhfCal where
  law : List Int
  trims : List Nat
  irr : List (Int × Int)
  offsets : List (Int × Int)
  vco : List Nat
  leak : List (Int × Int)
  eff : List Nat
  refTemp : Nat
deriving DecidableEq, Repr

/-- A calibration bank's content (R535); `uvlof` and `ckPwr`, the UVLO and CK-PWR trims, are factory-only (R539) and 0
in a user bank. -/
structure CalData where
  kind : Nat
  seq : Nat
  serial : Nat
  temp : Nat
  xoTrim : Nat
  uvlof : Nat
  ckPwr : Nat
  hf : HfCal
  uhf : UhfCal
deriving DecidableEq, Repr

/-- A pool page of the key store (R714). -/
inductive PoolPage where
  | erased | live (slot : Nat) | shadow (slot : Nat) | dead
deriving DecidableEq, Repr

/-- The key log area as step 8 finds it (R728, R731). -/
inductive KeyLogState where
  | erased | valid | noHeader
deriving DecidableEq, Repr

/-- A fault log record (R779). -/
structure LogRec where
  kind : Nat
  lost : Bool
  src : Nat
  tenant : Nat
  seq : Nat
  time : Nat
  pay : Payload
  cause : Nat
  location : Nat
  version : Word
  detail : List Word
deriving DecidableEq, Repr

/-- What an NV commit or erase writes (R129, R864). `keyCopy`, `keyMove` and `keySector` are the moves of R726,
`keyRoll` the i-th entry of a new log sector (R725), `counter` the advance of the anti-rollback counter (R144). -/
inductive JobKind where
  | calStore (bankB : Bool) (data : CalData)
  | charter (c : Charter)
  | sealCharter (gen : Nat)
  | keyRecord (slot : Nat) (sh : Shadow)
  | keyCopy (slot src dst : Nat) (live : Bool)
  | keyMove (slot src dst : Nat)
  | keySector (k : Nat)
  | keyActivate (slot : Nat) (sh : Shadow)
  | keyDestroy (slot : Nat)
  | keyUse (slot version ceiling : Nat)
  | keyRoll (i : Nat)
  | defaults (values : List (Nat × Int))
  | fwBlock (bankB : Bool) (off : Nat) (bytes : List Byte)
  | fwAct (bankB : Bool) (seq : Nat)
  | fwConfirm (bankB : Bool) (secver : Nat)
  | counter (area value : Nat)
  | log (r : LogRec)
  | breakCharter
deriving DecidableEq, Repr

/-- Steps of the commit protocol still to come (R129): sector erases, body programs, the read-back,
the commit word. -/
inductive JobStage where
  | erase (left : Nat) | body (left : Nat) | commit
deriving DecidableEq, Repr

/-- One NV job: `lane` names the lane whose packet waits for it, `page` is the NV offset of the record
divided by 256 (R137), `begun` true once its body has been started, and
`entry` the index of a key log entry in its sector (R715). -/
structure NvJob where
  kind : JobKind
  stage : JobStage
  lane : Option LaneId
  page : Nat
  begun : Bool
  entry : Nat
deriving DecidableEq, Repr

/-- Background erases (R133, R134, R725, R726, R731, R782). -/
inductive BgErase where
  | calBank (bankB : Bool) (left : Nat)
  | fwBank (bankB : Bool) (sectors : List Nat)
  | keyLog (sectors : List Nat)
  | keyPool (sector : Nat)
  | faultLog
deriving DecidableEq, Repr

/-- The NV array by region (R126) and its controller (R128). `keyRollAt` counts the entries of a new log sector written
so far and `keyRollTo` is that sector, `keyDirty` lists the other sectors of the key log that are not erased (R725,
R864), `keyEntries` holds per sector the bytes of its entries as programmed and `poolBytes` those of each pool page,
empty for an area that reads erased or has lost its program (R715, R716), `calNewer` is the user bank stored last (R31),
`log` holds the areas in use of the fault log's ring, none for one without a valid record (R779, R864), `arcs` the areas
of the anti-rollback counter (log 177), and `held` the jobs of suspended packets with their packet. -/
structure Nv where
  fwA : FwBank
  fwB : FwBank
  charter : NvRec Charter
  sealPage : NvPage
  charterBytes : List Byte
  sealBytes : List Byte
  calF : NvRec CalData
  calA : NvRec CalData
  calB : NvRec CalData
  calNewer : Option Bool
  slots : List KeySlot
  pool : List PoolPage
  keyLog : KeyLogState
  keyLogFree : Nat
  keySector : Nat
  keyGen : Nat
  keyRollAt : Nat
  keyRollTo : Nat
  keyDirty : List Nat
  keyEntries : List (List (List Byte))
  poolBytes : List (List Byte)
  defA : NvRec (Nat × List (Nat × Int))
  defB : NvRec (Nat × List (Nat × Int))
  arcs : List NvPage
  log : List (Option LogRec)
  logSeq : Nat
  logPos : Nat
  serial : Nat
  grade : Nat
  job : Option NvJob
  jobs : List NvJob
  held : List (Nat × NvJob)
  bg : List BgErase
deriving DecidableEq, Repr

/-- Running firmware (R190, R191), the earliest next try to confirm it (R146), the last FW_VERIFY (R151), the activation
reset (R152), and the recovery registers (R153). -/
structure Fw where
  bankB : Bool
  version : Word
  secver : Nat
  bootInfo : Word
  booted : Bool
  onTrial : Bool
  confirmFailed : Bool
  confirmAt : Nat
  verified : Bool
  activateAt : Option Nat
  recStatus : Word
  recOffset : Word
  recLength : Word
deriving DecidableEq, Repr

/-! ## Ports, Basin, protection -/

/-- A port A read whose first word is awaited (R168, R703): address, words asked for, how it ends, moment of the
end of the address phase, and the deliveries that it waits for (R352). -/
structure Stall where
  addr : Nat
  count : Nat
  fin : TxEnd
  since : Nat
  ahead : Nat
deriving DecidableEq, Repr

/-- A transaction whose chip select is still low (R172, R187): the next word's address, its direction, whether a word
has failed, the PORT_RESET value that takes effect when chip select rises (0 for none; R205), the value of a PA_CFG word
likewise (R175), whether it has reported an error (R211), whether a read has had no word yet, the CMD_PROD values that
stood before its doorbells (R203), and what it does. -/
structure OpenTx where
  addr : Nat
  write : Bool
  failed : Bool := false
  reset : Nat := 0
  paCfg : Option Nat := none
  err : Bool := false
  fresh : Bool := true
  doors : List (Nat × Nat) := []
  kind : TxKind := .live
deriving DecidableEq, Repr

/-- A host port (05_host_ports). Until `resetUntil` a port reset has not reached its step 4 (R209). -/
structure PortSt where
  mode : Bool
  latency : Nat
  err : Word
  errAddr : Word
  armed : Bool
  timeHi : Word
  vio : Bool
  stall : Option Stall
  burst : Option OpenTx
  rdata : List Byte
  resetUntil : Nat
  errTimes : List Nat
  rngTimeout : Bool
deriving DecidableEq, Repr

/-- The Basin: the bytes that differ from what an unlisted address reads as, the banks that a low-power state has
switched off since the last reset with a number that names what they came up with (R67), fenced words by address, and
pages whose fence was reported (R769). -/
structure Basin where
  mem : List Host.Cell
  off : List (Nat × Nat)
  fenced : List Nat
  pages : List Nat
deriving DecidableEq, Repr

/-- Both copies of the protection table, offsets 0x040–0x23F, and PT_GEN (R223). -/
structure Pt where
  staging : List Word
  active : List Word
  gen : Word
deriving DecidableEq, Repr

/-- Where a tenant's pound and rings lie (R199, R218, R225). -/
structure Place where
  first : Nat
  pages : Nat
  cmdOff : Nat
  cmdN : Nat
  cmdBig : Bool
  rplOff : Nat
  rplN : Nat
  rplBig : Bool
  evtOff : Nat
  evtN : Nat
deriving DecidableEq, Repr

/-- A tenant's doorbell page and event state (R199, R202, R336, R339). -/
structure Tenant where
  cmdProd : Nat
  cmdCons : Nat
  rplProd : Nat
  rplCons : Nat
  evtProd : Nat
  evtCons : Nat
  resetting : Bool
  idxErr : Bool
  evtSeq : Nat
  evtLost : Bool
  dropStatus : Nat
  place : Place
deriving DecidableEq, Repr

/-- A waiter of a lease queue (R241); without an Exec it is the place that GRANT_TO_KEEPER gives
the Keeper (R250). -/
structure Waiter where
  tenant : Nat
  exec : Option Exec
deriving DecidableEq, Repr

/-- The lease of one chain (R240–R262). `granting` is the grant under way from FREE (R260), `dueAt`
the moment of the grant step, `revoke` a revocation waiting for the executing packet, `hold` the maximum hold as
configured at the last grant (R260). -/
structure Lease where
  holder : Option Nat
  handover : Bool
  grantAt : Nat
  queue : List Waiter
  granting : Option Waiter
  dueAt : Nat
  afterReset : Bool
  live : Bool
  revoke : Option Nat
  hold : Nat
deriving DecidableEq, Repr

/-- A lane: the executing packet, the suspended ones, and the round robin (R279, R281). -/
structure Lane where
  exec : Option Exec
  susp : List Exec
  credit : List Nat
  next : Nat
deriving DecidableEq, Repr

/-- The lock cycle (R228, R230): the moment at which the last one reaches its step 6, and the LOCK_CYCLEs that wait. -/
structure LockSt where
  until_ : Nat
  waiting : List Exec
deriving DecidableEq, Repr

/-! ## Interrupt controller and doorbell fabric -/

/-- State of a source (R323); `won` are the 8 cycles before step 4 of R312. -/
inductive SrcState where
  | idle | won (t : Nat) | delivered (t : Nat) | active (t : Nat)
deriving DecidableEq, Repr

/-- The interrupt controller (R317). Lists run over the 128 sources or the 4 targets; `marks` holds
the watermark of target t and tenant n at 8·t + n (R337); `flight` lists source, target and owner of the deliveries on
their way (R334), `prof` per source the profile of its last doorbell and that profile's TIME then (R331). -/
structure Ic where
  pend : BitVec 128
  mask : BitVec 128
  src : List Word
  count : List Nat
  timer : List Nat
  st : List SrcState
  pay : List Payload
  curpri : List Nat
  tcfg : List Nat
  eoiErr : List Bool
  marks : List (Option Nat)
  flight : List (Nat × Nat × Nat × Bool)
  rr : Nat
  busy : Bool
  prof : List (Nat × Nat)
deriving DecidableEq, Repr

/-- Doorbells waiting at the fabric, per producer in the order of Producer (R21). -/
structure Fabric where
  queues : List (List Doorbell)
  next : Nat
deriving DecidableEq, Repr

/-! ## Containment -/

/-- Fences of the 14 optional units (R193, R743, R750, R760). -/
structure Fences where
  map : BitVec 14
  causes : List Nat
  details : List Nat
  attempts : List Nat
deriving DecidableEq, Repr

/-- The statistics counters of R777 by ID, and the IDs whose SAT flag is set (R775). -/
structure Counters where
  vals : List (Nat × Nat)
  sat : List Nat
deriving DecidableEq, Repr

/-- The fault log queue in RAM and the LOST flag (R781), and the moments of the watchdog warnings of the protocol and
the house core, with the moment from which both have been watched (R762). -/
structure Contain where
  queue : List LogRec
  lost : Bool
  warnP : Option Nat
  warnH : Option Nat
  coresFrom : Nat
deriving DecidableEq, Repr

/-! ## HF chain -/

/-- A card record (R587, R627, R629). `num` is the ISO-DEP block number, `readyAt` the end of SFGT (R601). -/
structure Card where
  handle : Nat
  tech : Nat
  state : Nat
  uid : List Byte
  atqa : Half
  sak : Byte
  lq : Nat
  evm : Nat
  app : List Byte
  prot : List Byte
  stamp : Nat
  cid : Nat
  dsi : Nat
  dri : Nat
  fsci : Nat
  fwi : Nat
  sfgi : Nat
  readyAt : Nat
  num : Bool
deriving DecidableEq, Repr

/-- The retune search of R381. -/
structure Retune where
  ss : Nat
  sp : Nat
  lastS : Int
  lastP : Int
  bestS : Nat
  bestP : Nat
  bestPhi : Nat
  bestMag : Nat
  n : Nat
deriving DecidableEq, Repr

/-- Low-power card detection (R398–R405); `next` is the earliest moment of the next measurement,
`lastAt` that of the last one (0 for none). -/
structure Lpcd where
  period : Nat
  aThr : Nat
  nThr : Nat
  confirm : Nat
  track : Bool
  aBase : Nat
  nBase : Nat
  rebased : Bool
  run : Bool
  hits : Nat
  next : Nat
  lastAt : Nat
deriving DecidableEq, Repr

/-- The HF chain (09_hf_chain, 14_reader). `falling` holds the CAUSE of R406; `rising` is true from the start of the
rise to the end of the settle, `riseEnd` and `fallEnd` are the ends of R369 and R370. `cut` is true after R112 while
source 17 is owed to the fence entry. `drive` is the drive level held, `lowSince` the moment from which the loop has
stood at its limit (R371), `measAt` the earliest moment of the next mismatch measurement (R378), `extSeen` the last
window at or above the lower level of R396, `sof` true from a start of frame to the end of that frame (R390). `stepFrom`
is what a tuner step in progress started from (R560), `loopUntil` the end of the time in which the loop settles (R366),
`dropDue` a change of a mask field that waits for the frame boundary (R486, R503). -/
structure Hf where
  radio : Radio
  pll : Pll
  on : Bool
  rising : Bool
  falling : Option Nat
  fallEnd : Nat
  riseEnd : Nat
  cut : Bool
  onAt : Nat
  step : Nat
  nextStep : Option Nat
  iAnt : Nat
  drive : Nat
  lowSince : Option Nat
  limited : Bool
  bad : Nat
  alarm : Bool
  measAt : Nat
  phi : Int
  mag : Nat
  retune : Option Retune
  nextCodes : Option (Nat × Nat)
  gain : Nat
  quiet : Nat
  ext : Bool
  extSeen : Nat
  sof : Bool
  tx : Option HfFrame
  held : Option HfFrame
  sent : Option HfFrame
  gapNs : Nat
  sendNs : Nat
  wait : Option Nat
  waitLen : Nat
  cards : List Card
  lpcd : Lpcd
  stepFrom : Option (Nat × Nat × Retune)
  loopUntil : Nat
  dropDue : Bool
  rfOn : Nat
deriving DecidableEq, Repr

/-! ## UHF chain -/

/-- A stored Select command (R619, R634). -/
structure SelectCmd where
  slot : Nat
  target : Nat
  action : Nat
  bank : Nat
  trunc : Bool
  ptr : Nat
  len : Nat
  mask : List Byte
deriving DecidableEq, Repr

/-- Why the UHF carrier is falling and what follows the fall (R425, R430, R431, R435). -/
inductive FallFor where
  | off
  | hop
  | rest
  | relock
  | fence
  | handover
  | stop
deriving DecidableEq, Repr

/-- Why a carrier rise waits (R427, R431, R432, R434, R462). -/
inductive RiseWait where
  | none | channel | change | rest | lbt | backoff | check
deriving DecidableEq, Repr

/-- The UHF chain (10_uhf_chain, 14_reader). `wantOn` is the tenant's carrier state, kept across a hop or rest (R441);
`ledger` lists (channel, from, to) of past visits (R429); `bw` is the complex filter's half-bandwidth as an index of
R446. `divN` and `divF` are the synthesiser's divider (R421), `relock` is true from an unlock to the lock that ends it,
`riseEnd` and `fallEnd` the ends of R419, `readyAt` the end of a channel change or of the listen time (R417, R434),
`measAt` the earliest next measurement of R442; `hopQuiet` marks a move that source 51 does not report (R435), `link` is
what the last Query asked for (R473, R474), `dropDue` as on HF. -/
structure Uhf where
  radio : Radio
  synth : Pll
  divN : Nat
  divF : Nat
  relock : Bool
  on : Bool
  rising : Bool
  riseEnd : Nat
  falling : Option FallFor
  fallEnd : Nat
  wantOn : Bool
  riseWait : RiseWait
  readyAt : Nat
  power : Nat
  nextPower : Option Nat
  fwd : Int
  rl : Nat
  mode : Nat
  index : Nat
  nextChannel : Option (Nat × Nat)
  perm : List Nat
  lfsr : Word
  visitFrom : Option Nat
  ledger : List (Nat × Nat × Nat)
  hopDue : Bool
  hopQuiet : Bool
  restUntil : Nat
  unlockAt : Option Nat
  low : Nat
  measAt : Nat
  alarm : Bool
  blocked : Bool
  gain : Nat
  quiet : Nat
  sof : Bool
  tx : Option UhfFrame
  held : Option UhfFrame
  sent : Option UhfFrame
  gapNs : Nat
  sendNs : Nat
  wait : Option Nat
  waitLen : Nat
  selects : List SelectCmd
  bw : Nat
  link : Option Link
  dropDue : Bool
  rfOn : Nat
deriving DecidableEq, Repr

/-! ## Spectrum monitor, charter in force, captures -/

/-- The verdicts kept per chain, newest first (R482): key and result code of R507. -/
structure Spec where
  hf : List (List Int × Nat)
  uhf : List (List Int × Nat)
  queue : List (Chain × Option LaneId)
deriving DecidableEq, Repr

/-- The charter in force (R512, R514), transmission stopped by a charter command (R526), and the key
store refused from a CHARTER_BREAK on (R525). -/
structure ChrSt where
  inForce : Option Charter
  sealed : Bool
  stopped : Bool
  keysDead : Bool
deriving DecidableEq, Repr

/-- A capture running (`armed = false`) or armed (R496–R500, R504); `cut` once the chain has been taken from it. -/
structure Capture where
  tenant : Nat
  tap : Nat
  trigger : Nat
  count : Nat
  off : Nat
  timeoutAt : Nat
  armed : Bool
  cut : Bool
  stamp : Nat
  gain : Nat
  gainChanged : Bool
  carrierOn : Bool
  wasSynth : Bool
deriving DecidableEq, Repr

/-! ## Calibration and towpath -/

/-- The oscillator calibration of R548, R549: REFIN frequency, gates made, first and last error in
0.01 ppm, the code XO_TRIM is moving to, the earliest moment of the next step, the start of the gate that runs,
whether a code was held at the end of its range, and the code that the run found. -/
structure OscRun where
  ref : Nat
  gates : Nat
  first : Int
  last : Int
  target : Nat
  stepAt : Nat
  gateFrom : Nat
  atEnd : Bool
  trim0 : Nat
deriving DecidableEq, Repr

/-- Values in force and their banks (R535–R541; 0 CAL-F, 1 CAL-A, 2 CAL-B, 255 none), values loaded
with their bank and waiting for a frame boundary (R569), the detector points held, the point being held, its output and
the end of its hold time (R575). -/
structure Cal where
  hf : HfCal
  uhf : UhfCal
  xoTrim : Nat
  bankHf : Nat
  bankUhf : Nat
  bankCommon : Nat
  nextHf : Option (HfCal × Nat)
  nextUhf : Option (UhfCal × Nat)
  point0 : Option (Int × Int)
  point1 : Option (Int × Int)
  holding : Option Nat
  holdOut : Nat
  holdUntil : Nat
  osc : Option OscRun
deriving DecidableEq, Repr

/-- Towpath step kinds in the order of R552. -/
inductive StepKind where
  | tuner | null | offset | irr | noise
deriving DecidableEq, Repr

/-- One towpath lane (R551–R566). `stepAt` is the start of the step that runs, `tunerAt` the earliest moment of the next
tuner step (R379), `credit` is in units of 0.001 µs; `gather` and `gatherI` count the qualifying frames of the offset
and image-rejection estimates (R546) with the running sum of the former, and `est` is the sum of a complete one; `pkt`
and `pktDelay` are the packet delayed so far and by how many ns, `pktDone` once that frame has started (R554); `frac` is
the part of a µs that the delay counter has not counted yet; `void` says that the step that runs leaves no result
(R560). -/
structure TowLane where
  credit : Nat
  due : List StepKind
  step : Option StepKind
  stepAt : Nat
  tunerAt : Nat
  gather : Nat
  sum : Int
  est : Int
  gatherI : Nat
  noise : List (Nat × Nat)
  pkt : Option Nat
  pktDelay : Nat
  pktDone : Bool
  void : Bool
  frac : Nat
deriving DecidableEq, Repr

structure Tow where
  hf : TowLane
  uhf : TowLane
  recalDue : Bool
  recalRun : Bool
deriving DecidableEq, Repr

/-! ## RNG and keys -/

/-- Where the continuous tests of a source stand (R682): the last raw bit with the run that it ends, and the last count
of the lock test with the number of equal counts up to it. -/
structure HealthTest where
  bit : Option Bool
  run : Nat
  count : Option Nat
  same : Nat
deriving DecidableEq, Repr

/-- The RNG (16_rng_keys): sources running and their consecutive failures, the conditioned bits of the pool, whether the
expander has instantiated and reseeded since the last wake, generate calls since the reseed, the class 1 reserve, the
port buffer, the earliest end of each source's next block, whether a source has ever been started, K and V of CTR_DRBG,
and where the sources' tests stand (R680–R685, R691, R699). -/
structure Rng where
  jitterOn : Bool
  noiseOn : Bool
  jitterFails : Nat
  noiseFails : Nat
  pool : List Byte
  instantiated : Bool
  seeded : Bool
  calls : Nat
  stretched : Bool
  waiting : Bool
  reserve : List Half
  buffer : List Word
  jitterNext : Nat
  noiseNext : Nat
  started : Bool
  key : List Byte
  v : List Byte
  jitterTest : HealthTest
  noiseTest : HealthTest
deriving DecidableEq, Repr

/-! ## Emulation, peer, SAM, pins -/

/-- A card-emulation profile (R672). -/
structure EmuProfile where
  uidMode : Nat
  maxRate : Nat
  atqa : Half
  sak : Byte
  ats : List Byte
  uid : List Byte
  cmdOff : Nat
  rspOff : Nat
  fwi : Nat
deriving DecidableEq, Repr

/-- Card emulation (R640–R652). `state` is the code of R641; `star` is READY* (reached from HALT);
`apdu` the command assembled so far; `await` true while a complete APDU awaits its response;
`wtxOpen` while an S(WTX) request is unanswered. -/
structure Emu where
  profile : Option EmuProfile
  owner : Nat
  armed : Bool
  state : Nat
  star : Bool
  uid : List Byte
  fsdi : Nat
  cid : Nat
  dsi : Nat
  dri : Nat
  apdu : List Byte
  tooLong : Bool
  await : Bool
  wtx : Nat
  wtxAt : Nat
  rest : List Byte
  num : Bool
  blocks : Nat
  last : Option HfFrame
  wtxOpen : Bool
  level : Nat
deriving DecidableEq, Repr

/-- Where a peer link stands (R657–R669). -/
inductive PeerStage where
  | sensing | fieldGuard | atrWait | listening | open | answerDue | reqSent | swapBackoff
  | swapFall | swapGap | swapListen
deriving DecidableEq, Repr

/-- Peer mode (R657–R669, R676). `owner` is the tenant; `swapOk` role swap in force; `mine` and `theirs` the last draws;
`want` true while its PEER_ROLE_SWAP is admitted, `accepted` once the roles are to exchange after the frame being sent,
`answer` while a request waits for the end of the own back-off. `buf` is the transport data received so far, `rest` what
is still to send. `rwtEnd` is the end of the RWT that a target's answer has, and `peerTo` the TO that the target
announced (R662). `otherEnd` is the end of the other field, and `answerAt` the end of the sensing before the own one
(R660). `drawAt` is a draw of the swap that waits for entropy, from when on, and whether it is for the length of a
back-off (R666, R696). -/
structure PeerRun where
  owner : Nat
  target : Bool
  activeMode : Bool
  rate : Nat
  allowSwap : Bool
  did : Nat
  gbLen : Nat
  gbOff : Nat
  rxOff : Nat
  nfcid : List Byte
  gb : List Byte
  swapOk : Bool
  stage : PeerStage
  buf : List Byte
  rest : List Byte
  want : Bool
  accepted : Bool
  answer : Bool
  mine : Nat
  theirs : Nat
  ties : Nat
  until_ : Nat
  otherOn : Bool
  otherEnd : Nat
  answerAt : Option Nat
  lq : Nat
  evm : Nat
  drawAt : Option (Nat × Bool) := none
  rwtEnd : Nat := 0
  peerTo : Nat := 0
deriving DecidableEq, Repr

/-- Stage of a SAM interface (R814–R817). -/
inductive SamStage where
  | off | atrWait | ifsWait | ready | offWait
deriving DecidableEq, Repr

/-- One SAM interface (19_sam_gpio): class 0 off, 1 A, 2 B, 3 C; `div` the divisor of R813; `ifsd` the block length
announced to a card of T=1 (R820), `wi` the waiting-time factor; `limitAt` the moment its current limit became active
(R810); `waitAt` the end of the wait for an ATR or an answer (R814, R823); `cwi` the code of CWT (R820). `upAt` is the
moment of SAM_ADMITTED of the class that is on, `rstAt` the moment at which Sn_RST goes high, and `downAt` that of the
last activation with that of the deactivation that ended it (R814, R815). -/
structure Sam where
  lease : Option Nat
  cls : Nat
  stage : SamStage
  atr : List Byte
  proto : Nat
  fi : Nat
  di : Nat
  ifsc : Nat
  ifsd : Nat
  wi : Nat
  div : Nat
  crc : Bool
  present : Bool
  limitAt : Option Nat
  offAt : Nat
  releaseTo : Option Nat
  waitAt : Option Nat
  cwi : Nat := 13
  upAt : Option Nat := none
  rstAt : Nat := 0
  downAt : Option (Nat × Nat) := none
deriving DecidableEq, Repr

/-- GPIO pins: direction (1 = output), output level, input level (R827–R830). -/
structure Gpio where
  dir : BitVec 4
  out : BitVec 4
  level : BitVec 4
deriving DecidableEq, Repr

/-- Input pins read by commands, `wake` the level of WAKE, and FDET (R525, R653, R831). -/
structure Pins where
  wake : Bool
  testEn : Bool
  fdet : Bool
deriving DecidableEq, Repr

/-- The thermal sensor (R61, R64, R744): the temperature in °C that counts, the moment of the last reading and
that reading, and whether warning and trip have been reported. -/
structure Therm where
  temp : Int
  at_ : Nat
  raw : Int
  missed : Bool
  warned : Bool
  tripped : Bool
deriving DecidableEq, Repr

/-! ## The whole part -/

structure State where
  pending : List Instr
  time : Nat
  pwr : Pwr
  aon : Aon
  clk : Clk
  nv : Nv
  fw : Fw
  portA : PortSt
  portB : PortSt
  basin : Basin
  pt : Pt
  tenants : List Tenant
  hfLease : Lease
  uhfLease : Lease
  queue : List Packet
  packets : Nat
  visit : Nat
  hfLane : Lane
  uhfLane : Lane
  houseLane : Lane
  lock : LockSt
  withdrawn : List (Nat × Option Chain)
  cfg : List (Nat × Int)
  ic : Ic
  fab : Fabric
  fence : Fences
  ctr : Counters
  contain : Contain
  hf : Hf
  uhf : Uhf
  spec : Spec
  chr : ChrSt
  capHf : Option Capture
  capUhf : Option Capture
  cal : Cal
  tow : Tow
  rng : Rng
  keyUsed : List Nat
  emu : Emu
  peer : Option PeerRun
  sam0 : Sam
  sam1 : Sam
  gpio : Gpio
  pins : Pins
  therm : Therm
  free : Nat
deriving DecidableEq, Repr

/-- Why the machine stops. -/
inductive Fault where
  /-- Raised by the supply rows for a VIN above the absolute maximum of 72 V (R38, R851): the manual
  guarantees nothing of the part afterwards. Safe: the model stops where the part may go on. -/
  | beyondRating
deriving DecidableEq, Repr

/-- Why a command is turned away without a meaning. -/
inductive Refusal where
  /-- No command is refused under this name in the finished model; it is the name of an arm that has
  no meaning yet. Safe. -/
  | notModelled (mnemonic : String)
deriving DecidableEq, Repr

/-! ## The state right after a power-on reset (R79, R82 step 1) -/

/-- Register values of both copies of the protection table after reset (R227): the word at index k
stands at offset 0x040 + 4·k. -/
def ptReset : List Word :=
  [0x0000FF07, 0x00100000, 0, 0x20, 0x800, 0x20, 0x1000, 0x100] ++ List.replicate 56 0
    ++ [0x00100000, 0x0000000F] ++ List.replicate 62 0

def Place.reset0 : Place := ⟨0, 16, 0, 32, false, 0x800, 32, false, 0x1000, 256⟩
def Place.none : Place := ⟨0, 0, 0, 0, false, 0, 0, false, 0, 0⟩

def Tenant.reset (p : Place) : Tenant := ⟨0, 0, 0, 0, 0, 0, false, false, 0, false, 0, p⟩

def PortSt.reset : PortSt := ⟨false, 8, 0, 0, true, 0, false, none, none, [], 0, [], false⟩

def Lease.reset : Lease := ⟨none, false, 0, [], none, 0, false, false, none, 0⟩

def Lane.reset : Lane := ⟨none, [], List.replicate 8 0, 0⟩

/-- IC_SRC(s) after reset (R322). -/
def icSrcReset (s : Nat) : Word :=
  BitVec.ofNat 32 (0x18 + (if s < 112 then 0 else (s - 112) / 2 * 256))

def Ic.reset : Ic where
  pend := 0
  mask := 0
  src := (List.range 128).map icSrcReset
  count := List.replicate 128 0
  timer := List.replicate 128 0
  st := List.replicate 128 .idle
  pay := List.replicate 128 0
  curpri := List.replicate 4 0
  tcfg := List.replicate 4 3
  eoiErr := List.replicate 4 false
  marks := List.replicate 32 none
  flight := []
  rr := 3
  busy := false
  prof := List.replicate 128 (0, 0)

def Fabric.reset : Fabric := ⟨List.replicate 10 [], 0⟩

def Fences.reset : Fences :=
  ⟨0, List.replicate 14 0, List.replicate 14 0, List.replicate 14 0⟩

def Lpcd.reset : Lpcd := ⟨250, 8, 3, 1, true, 0, 0, false, false, 0, 0, 0⟩

def Hf.reset : Hf where
  radio := .sleep
  pll := .off
  on := false
  rising := false
  falling := none
  fallEnd := 0
  riseEnd := 0
  cut := false
  onAt := 0
  step := 0
  nextStep := none
  iAnt := 0
  drive := 0
  lowSince := none
  limited := false
  bad := 0
  alarm := false
  measAt := 0
  phi := 0
  mag := 0
  retune := none
  nextCodes := none
  gain := 0
  quiet := 0
  ext := false
  extSeen := 0
  sof := false
  tx := none
  held := none
  sent := none
  gapNs := 0
  sendNs := 0
  wait := none
  waitLen := 0
  cards := []
  lpcd := Lpcd.reset
  stepFrom := none
  loopUntil := 0
  dropDue := false
  rfOn := 0

def Uhf.reset : Uhf where
  radio := .sleep
  synth := .off
  divN := 0
  divF := 0
  relock := false
  on := false
  rising := false
  riseEnd := 0
  falling := none
  fallEnd := 0
  wantOn := false
  riseWait := .none
  readyAt := 0
  power := 0
  nextPower := none
  fwd := 0
  rl := 0
  mode := 1
  index := 0
  nextChannel := none
  perm := []
  lfsr := 0
  visitFrom := none
  ledger := []
  hopDue := false
  hopQuiet := false
  restUntil := 0
  unlockAt := none
  low := 0
  measAt := 0
  alarm := false
  blocked := false
  gain := 0
  quiet := 0
  sof := false
  tx := none
  held := none
  sent := none
  gapNs := 0
  sendNs := 0
  wait := none
  waitLen := 0
  selects := []
  bw := 0
  link := none
  dropDue := false
  rfOn := 0

/-- Values in force before step 7 has chosen a bank (log 8). -/
def HfCal.blank : HfCal :=
  ⟨0, 0, 0, 0, 0, 0, 0, List.replicate 16 0, List.replicate 64 0⟩
def UhfCal.blank : UhfCal :=
  ⟨List.replicate 4 0, List.replicate 5 0, List.replicate 5 (0, 0), List.replicate 31 (0, 0),
    List.replicate 101 0, List.replicate 101 (0, 0), List.replicate 101 0, 0⟩

/-- CAL-F of the specimen at reset (log 8): efficiency 0.75 on HF and 2.90 W at +30 dBm as in the
worked example of R58; the other figures are the model's. -/
def calFReset : CalData where
  kind := 0
  seq := 0
  serial := 0x0000721400000001
  temp := 89
  xoTrim := 128
  uvlof := 8100
  ckPwr := 0
  hf := { HfCal.blank with
    series := 12, parallel := 0, rAnt := 1000, aBase := 128, nBase := 32,
    eff := (List.range 64).map (fun k => (k + 1) * 125 / 3) }
  uhf := { UhfCal.blank with
    eff := (List.range 101).map (fun k => 400 + 25 * k), refTemp := 89 }

def Cal.reset : Cal :=
  ⟨HfCal.blank, UhfCal.blank, 128, 255, 255, 255, none, none, none, none, none, 0, 0, none⟩

def TowLane.reset : TowLane := ⟨0, [], none, 0, 0, 0, 0, 0, 0, [], none, 0, false, false, 0⟩

def HealthTest.reset : HealthTest := ⟨none, 0, none, 0⟩

def Rng.reset : Rng :=
  ⟨false, false, 0, 0, [], false, false, 0, false, false, [], [], 0, 0, false, [], [], HealthTest.reset,
    HealthTest.reset⟩

def KeySlot.empty : KeySlot := ⟨0, 0, 0, 0, 0, 0, [], [], 255, none, none⟩

def Emu.reset : Emu :=
  ⟨none, 0, false, 0, false, [], 0, 15, 0, 0, [], false, false, 0, 0, [], false, 0, none, false, 1⟩

def Sam.reset : Sam :=
  ⟨none, 0, .off, [], 0, 372, 1, 32, 32, 10, 30, false, false, none, 0, none, none, 13, none, 0, none⟩

/-- The header bytes of the release image that the manual gives: magic, format and major version 1 (R9, R139). -/
def shippedHeader : List Host.Cell :=
  [(0, 0xA5), (1, 0xF1), (2, 0x14), (3, 0x72), (4, 1), (5, 0), (8, 1)]

/-- NV as the part ships (R9, R516; log 7): firmware bank A active with sequence 1 and confirmed, bank
B erased, no charter, CAL-F written, an empty key store, an empty fault log. No sector of bank A is blank. -/
def Nv.shipped : Nv where
  fwA := ⟨shippedHeader, true, [], List.range 96, .valid 1, .valid 0⟩
  fwB := ⟨[], false, [], [], .erased, .erased⟩
  charter := .erased
  sealPage := .erased
  charterBytes := []
  sealBytes := []
  calF := .valid calFReset
  calA := .erased
  calB := .erased
  calNewer := none
  slots := List.replicate 64 KeySlot.empty
  pool := List.replicate 160 .erased
  keyLog := .erased
  keyLogFree := 0
  keySector := 0
  keyGen := 0
  keyRollAt := 0
  keyRollTo := 0
  keyDirty := []
  keyEntries := List.replicate 6 []
  poolBytes := List.replicate 160 []
  defA := .erased
  defB := .erased
  arcs := List.replicate 64 .erased
  log := []
  logSeq := 0
  logPos := 0
  serial := 0x0000721400000001
  grade := 0
  job := none
  jobs := []
  held := []
  bg := []

def Pwr.reset : Pwr where
  state := .startup
  entry := none
  wakes := []
  vin := 24000
  vhold := 0
  shed := []
  eHold := 0
  tHold := 0
  armed := false
  below := false
  warn := false
  warnAt := 0
  filterAt := 0
  warnCommit := false
  aboveAt := none
  vpaOn := false
  hfGrant := 0
  uhfGrant := 0
  uhfWas := 0
  later := none
  testEn1 := false
  capNom := false
  holdAt := 0
  boot := none

def Aon.reset : Aon where
  crystal := false
  wakeAt := none
  queue := []
  fences := List.replicate 14 0
  details := List.replicate 14 0
  storm := 0
  trials := 0
  trialsB := 0
  wdtResets := 0
  wdtReport := none
  wdtFull := false
  lostClocks := []
  cHold := none
  bootAt := none
  startCause := 0
  elapsed := 0

def Fw.reset : Fw :=
  ⟨false, 0, 0, 0, false, false, false, 0, false, none, 1, 0, 0⟩

/-- The machine right after a power-on reset of a part as shipped: the supply node has crossed UVLO
rising and START_UP has not run (R79, R82). -/
def State.reset : State where
  pending := []
  time := 0
  pwr := Pwr.reset
  aon := Aon.reset
  clk := ⟨List.replicate 14 0, List.replicate 14 false, List.replicate 14 0, false, []⟩
  nv := Nv.shipped
  fw := Fw.reset
  portA := PortSt.reset
  portB := PortSt.reset
  basin := ⟨[], [], [], []⟩
  pt := ⟨ptReset, ptReset, 0⟩
  tenants := Tenant.reset Place.reset0 :: List.replicate 7 (Tenant.reset Place.none)
  hfLease := Lease.reset
  uhfLease := Lease.reset
  queue := []
  packets := 0
  visit := 0
  hfLane := Lane.reset
  uhfLane := Lane.reset
  houseLane := Lane.reset
  lock := ⟨0, []⟩
  withdrawn := []
  cfg := defaultCfg
  ic := Ic.reset
  fab := Fabric.reset
  fence := Fences.reset
  ctr := ⟨[], []⟩
  contain := ⟨[], false, none, none, 0⟩
  hf := Hf.reset
  uhf := Uhf.reset
  spec := ⟨[], [], []⟩
  chr := ⟨none, false, false, false⟩
  capHf := none
  capUhf := none
  cal := Cal.reset
  tow := ⟨TowLane.reset, TowLane.reset, false, false⟩
  rng := Rng.reset
  keyUsed := List.replicate 64 0
  emu := Emu.reset
  peer := none
  sam0 := Sam.reset
  sam1 := Sam.reset
  gpio := ⟨0, 0, 0⟩
  pins := ⟨true, false, false⟩
  therm := ⟨25, 0, 25, false, false, false⟩
  free := 0

end Sys2Proof.Machine
end

