-- ==== Sys2Proof/Machine/Update.lean ====
section
/-! DEFINITION. One update function per field of State; every meaning changes the state through
them. `simps` states for each what it leaves of every field. -/

namespace Sys2Proof.Machine

@[simps] def State.onPending (f : List Instr → List Instr) (s : State) : State :=
  { s with pending := f s.pending }

@[simps] def State.onTime (f : Nat → Nat) (s : State) : State :=
  { s with time := f s.time }

@[simps] def State.onPwr (f : Pwr → Pwr) (s : State) : State :=
  { s with pwr := f s.pwr }

@[simps] def State.onAon (f : Aon → Aon) (s : State) : State :=
  { s with aon := f s.aon }

@[simps] def State.onClk (f : Clk → Clk) (s : State) : State :=
  { s with clk := f s.clk }

@[simps] def State.onNv (f : Nv → Nv) (s : State) : State :=
  { s with nv := f s.nv }

@[simps] def State.onFw (f : Fw → Fw) (s : State) : State :=
  { s with fw := f s.fw }

@[simps] def State.onPortA (f : PortSt → PortSt) (s : State) : State :=
  { s with portA := f s.portA }

@[simps] def State.onPortB (f : PortSt → PortSt) (s : State) : State :=
  { s with portB := f s.portB }

@[simps] def State.onBasin (f : Basin → Basin) (s : State) : State :=
  { s with basin := f s.basin }

@[simps] def State.onPt (f : Pt → Pt) (s : State) : State :=
  { s with pt := f s.pt }

@[simps] def State.onTenants (f : List Tenant → List Tenant) (s : State) : State :=
  { s with tenants := f s.tenants }

@[simps] def State.onHfLease (f : Lease → Lease) (s : State) : State :=
  { s with hfLease := f s.hfLease }

@[simps] def State.onUhfLease (f : Lease → Lease) (s : State) : State :=
  { s with uhfLease := f s.uhfLease }

@[simps] def State.onQueue (f : List Packet → List Packet) (s : State) : State :=
  { s with queue := f s.queue }

@[simps] def State.onPackets (f : Nat → Nat) (s : State) : State :=
  { s with packets := f s.packets }

@[simps] def State.onVisit (f : Nat → Nat) (s : State) : State :=
  { s with visit := f s.visit }

@[simps] def State.onHfLane (f : Lane → Lane) (s : State) : State :=
  { s with hfLane := f s.hfLane }

@[simps] def State.onUhfLane (f : Lane → Lane) (s : State) : State :=
  { s with uhfLane := f s.uhfLane }

@[simps] def State.onHouseLane (f : Lane → Lane) (s : State) : State :=
  { s with houseLane := f s.houseLane }

@[simps] def State.onLock (f : LockSt → LockSt) (s : State) : State :=
  { s with lock := f s.lock }

@[simps] def State.onWithdrawn (f : List (Nat × Option Chain) → List (Nat × Option Chain)) (s : State) : State :=
  { s with withdrawn := f s.withdrawn }

@[simps] def State.onCfg (f : List (Nat × Int) → List (Nat × Int)) (s : State) : State :=
  { s with cfg := f s.cfg }

@[simps] def State.onIc (f : Ic → Ic) (s : State) : State :=
  { s with ic := f s.ic }

@[simps] def State.onFab (f : Fabric → Fabric) (s : State) : State :=
  { s with fab := f s.fab }

@[simps] def State.onFence (f : Fences → Fences) (s : State) : State :=
  { s with fence := f s.fence }

@[simps] def State.onCtr (f : Counters → Counters) (s : State) : State :=
  { s with ctr := f s.ctr }

@[simps] def State.onContain (f : Contain → Contain) (s : State) : State :=
  { s with contain := f s.contain }

@[simps] def State.onHf (f : Hf → Hf) (s : State) : State :=
  { s with hf := f s.hf }

@[simps] def State.onUhf (f : Uhf → Uhf) (s : State) : State :=
  { s with uhf := f s.uhf }

@[simps] def State.onSpec (f : Spec → Spec) (s : State) : State :=
  { s with spec := f s.spec }

@[simps] def State.onChr (f : ChrSt → ChrSt) (s : State) : State :=
  { s with chr := f s.chr }

@[simps] def State.onCapHf (f : Option Capture → Option Capture) (s : State) : State :=
  { s with capHf := f s.capHf }

@[simps] def State.onCapUhf (f : Option Capture → Option Capture) (s : State) : State :=
  { s with capUhf := f s.capUhf }

@[simps] def State.onCal (f : Cal → Cal) (s : State) : State :=
  { s with cal := f s.cal }

@[simps] def State.onTow (f : Tow → Tow) (s : State) : State :=
  { s with tow := f s.tow }

@[simps] def State.onRng (f : Rng → Rng) (s : State) : State :=
  { s with rng := f s.rng }

@[simps] def State.onKeyUsed (f : List Nat → List Nat) (s : State) : State :=
  { s with keyUsed := f s.keyUsed }

@[simps] def State.onEmu (f : Emu → Emu) (s : State) : State :=
  { s with emu := f s.emu }

@[simps] def State.onPeer (f : Option PeerRun → Option PeerRun) (s : State) : State :=
  { s with peer := f s.peer }

@[simps] def State.onSam0 (f : Sam → Sam) (s : State) : State :=
  { s with sam0 := f s.sam0 }

@[simps] def State.onSam1 (f : Sam → Sam) (s : State) : State :=
  { s with sam1 := f s.sam1 }

@[simps] def State.onGpio (f : Gpio → Gpio) (s : State) : State :=
  { s with gpio := f s.gpio }

@[simps] def State.onPins (f : Pins → Pins) (s : State) : State :=
  { s with pins := f s.pins }

@[simps] def State.onTherm (f : Therm → Therm) (s : State) : State :=
  { s with therm := f s.therm }

@[simps] def State.onFree (f : Nat → Nat) (s : State) : State :=
  { s with free := f s.free }

end Sys2Proof.Machine
end

