-- ==== Sys2Proof/Machine/Ops.lean ====
section
/-! DEFINITION. The named operations over memory, registers, doorbells, counters and replies that
the meanings share. -/

namespace Sys2Proof.Machine

open Sys2Proof

/-! ## Bytes -/

/-- `n` bytes of `v`, least significant first (R3). -/
def le : Nat → Nat → List Byte
  | 0, _ => []
  | n + 1, v => BitVec.ofNat 8 v :: le n (v / 256)

/-- The value of bytes, least significant first (R3). -/
def leNat : List Byte → Nat
  | [] => 0
  | b :: bs => b.toNat + 256 * leNat bs

/-- The unsigned field of `n` bytes at byte `i`. -/
def fieldOf (bs : List Byte) (i n : Nat) : Nat := leNat ((bs.drop i).take n)

/-- `n` bytes of a two's complement value. -/
def leInt (n : Nat) (x : Int) : List Byte := le n (x % (256 ^ n : Nat)).toNat

/-- The two's complement value of a `bits`-bit field. -/
def signed (bits v : Nat) : Int :=
  if v % 2 ^ bits < 2 ^ (bits - 1) then (v % 2 ^ bits : Nat)
  else (v % 2 ^ bits : Nat) - (2 ^ bits : Nat)

/-- Bit `i` of a number. -/
def bit (v i : Nat) : Bool := v.testBit i

/-- Bits [hi:lo] of a number. -/
def bits (v hi lo : Nat) : Nat := v / 2 ^ lo % 2 ^ (hi + 1 - lo)

/-- 1 for true. -/
def b2n (b : Bool) : Nat := if b then 1 else 0

/-- A bit map from a list of flags, bit 0 first. -/
def packBits : List Bool → Nat
  | [] => 0
  | b :: bs => b2n b + 2 * packBits bs

/-- Bytes padded with zeros to `n`, or cut to `n`. -/
def padTo (n : Nat) (bs : List Byte) : List Byte := (bs ++ List.replicate (n - bs.length) 0).take n

def absDiff (a b : Nat) : Nat := max a b - min a b

/-- Division rounded up. -/
def ceilDiv (a b : Nat) : Nat := (a + b - 1) / b

/-- Division rounded to nearest, ties up. -/
def roundDiv (a b : Nat) : Nat := (2 * a + b) / (2 * b)

/-! ## Association lists kept in rising order of key -/

def assocGet {β : Type} (l : List (Nat × β)) (k : Nat) (d : β) : β :=
  match l with
  | [] => d
  | (j, v) :: l => if j = k then v else assocGet l k d

def assocSet {β : Type} (l : List (Nat × β)) (k : Nat) (v : β) : List (Nat × β) :=
  match l with
  | [] => [(k, v)]
  | (j, w) :: l =>
    if k < j then (k, v) :: (j, w) :: l
    else if k = j then (k, v) :: l
    else (j, w) :: assocSet l k v

/-! ## Memory: the Basin (R10, R160, R769) -/

/-- One byte; `d` gives what an unlisted address reads as. -/
def cellRead (d : Nat → Byte) : List Host.Cell → Nat → Byte
  | [], a => d a
  | (k, b) :: m, a => if k = a then b else cellRead d m a

/-- One byte written in canonical form: addresses rise, no listed byte is what its address reads as unlisted. -/
def cellWrite (d : Nat → Byte) : List Host.Cell → Nat → Byte → List Host.Cell
  | [], a, v => if v = d a then [] else [(a, v)]
  | (k, b) :: m, a, v =>
    if a < k then (if v = d a then (k, b) :: m else (a, v) :: (k, b) :: m)
    else if a = k then (if v = d a then m else (a, v) :: m)
    else (k, b) :: cellWrite d m a v

/-- The canonical form above a lower bound. -/
def cellsFrom (d : Nat → Byte) : Nat → List Host.Cell → Bool
  | _, [] => true
  | lo, (k, b) :: m => decide (lo ≤ k) && decide (b ≠ d k) && cellsFrom d (k + 1) m

/-- The canonical form: addresses strictly rising, no entry equal to what an unlisted address reads. -/
def Memory.wf (d : Nat → Byte) (m : List Host.Cell) : Bool := cellsFrom d 0 m

/-- The Basin is 4 MiB (R10). -/
def basinSize : Nat := 0x400000

/-- Bytes written one after another; those past the end of the Basin go nowhere. -/
def cellsWrite (d : Nat → Byte) : List Host.Cell → Nat → List Byte → List Host.Cell
  | m, _, [] => m
  | m, a, v :: vs => cellsWrite d (if a < basinSize then cellWrite d m a v else m) (a + 1) vs

/-- The bank of 64 pages that an address lies in (R67). -/
def basinBank (a : Nat) : Nat := a / 0x40000

/-- What an unlisted address reads as: 0, to which step 3 of R82 sets the Basin, or what a bank that had been switched
off came up with (R67; log 128). -/
def Basin.unlisted (b : Basin) (a : Nat) : Byte :=
  match b.off.find? fun x => x.1 == basinBank a with
  | none => 0
  | some x => Config.bankByte x.2 a

/-- The Basin is in canonical form. -/
def Basin.wf (b : Basin) : Bool := Memory.wf b.unlisted b.mem

/-- A write clears the fence of every word it covers, in whole or in part (R769). A fenced word holds
zeros, so the bytes of it that the write leaves read 0. -/
def Basin.write (a : Nat) (vs : List Byte) (b : Basin) : Basin :=
  let fenced := b.fenced.filter fun w => !(decide (w < a + vs.length) && decide (a < w + 4))
  { mem := cellsWrite b.unlisted b.mem a vs
    off := b.off
    fenced := fenced
    pages := b.pages.filter fun p => fenced.any fun w => w / 4096 == p }

def basinWrite (a : Nat) (vs : List Byte) (s : State) : State := s.onBasin (·.write a vs)

def basinByte (s : State) (a : Nat) : Byte := cellRead s.basin.unlisted s.basin.mem a

def basinRead (s : State) (a n : Nat) : List Byte := (List.range n).map fun i => basinByte s (a + i)

def basinWord (s : State) (a : Nat) : Nat := leNat (basinRead s a 4)

/-- Whether any word of an extent is fenced (R770). -/
def basinFenced (s : State) (a n : Nat) : Bool :=
  s.basin.fenced.any fun w => decide (w < a + n) && decide (a < w + 4)

/-! ## Tenants and the protection table (R215, R223–R226) -/

def Place.baseAddr (p : Place) : Nat := p.first * 4096
def Place.size (p : Place) : Nat := p.pages * 4096

def tenant (s : State) (n : Nat) : Tenant := nth s.tenants n (Tenant.reset Place.none)

def onTenant (n : Nat) (f : Tenant → Tenant) (s : State) : State := s.onTenants (modAt · n f)

/-- A word of the active copy by its offset from the base of the copy. -/
def ptWord (t : List Word) (off : Nat) : Nat := (nth t ((off - 0x40) / 4) 0).toNat

def teCtrl (s : State) (n : Nat) : Nat := ptWord s.pt.active (0x40 + 0x20 * n)

/-- Tenant 0 is always enabled (R215). -/
def enabled (s : State) (n : Nat) : Bool := n == 0 || bit (teCtrl s n) 0

/-- Permission bits of R224; tenant 0 holds them all (R215). -/
def permits (s : State) (n b : Nat) : Bool := n == 0 || bit (teCtrl s n) b

def portIndex : Port → Nat
  | .a => 0
  | .b => 1

/-- The port set of a tenant in the active table (R224). -/
def portOf (s : State) (p : Port) (n : Nat) : Bool := bit (teCtrl s n) (1 + portIndex p)

def otherPort : Port → Port
  | .a => .b
  | .b => .a

def portSt (s : State) : Port → PortSt
  | .a => s.portA
  | .b => s.portB

def onPort (p : Port) (f : PortSt → PortSt) (s : State) : State :=
  match p with
  | .a => s.onPortA f
  | .b => s.onPortB f

/-- Slot size in bytes of a ring (R199). -/
def slotSize (big : Bool) : Nat := if big then 256 else 64

/-- Entries between consumer and producer of a ring of `n` (R200). -/
def ringUsed (prod cons n : Nat) : Nat := (prod + 2 * n - cons) % (2 * n)

/-- The placement a table gives a tenant (R223, R225). -/
def placeOf (t : List Word) (n : Nat) : Place :=
  let w := fun k => ptWord t (0x40 + 0x20 * n + 4 * k)
  { first := bits (w 1) 9 0, pages := bits (w 1) 26 16
    cmdOff := bits (w 2) 21 0, cmdN := bits (w 3) 10 0, cmdBig := bit (w 3) 16
    rplOff := bits (w 4) 21 0, rplN := bits (w 5) 10 0, rplBig := bit (w 5) 16
    evtOff := bits (w 6) 21 0, evtN := bits (w 7) 12 0 }

/-- An extent lies inside the tenant's pound (R219). -/
def inPound (s : State) (n off len : Nat) : Bool := off + len ≤ (tenant s n).place.size

/-- Bytes of a tenant's pound; what lies beyond its end reads as zero (R217, R219; log 186). -/
def poundRead (s : State) (n off len : Nat) : List Byte :=
  let k := min len ((tenant s n).place.size - off)
  basinRead s ((tenant s n).place.baseAddr + off) k ++ List.replicate (len - k) 0

/-- Writes into a tenant's pound; no byte goes beyond its end (R217, R219; log 186). -/
def poundWrite (n off : Nat) (vs : List Byte) (s : State) : State :=
  basinWrite ((tenant s n).place.baseAddr + off) (vs.take ((tenant s n).place.size - off)) s

def poundFenced (s : State) (n off len : Nat) : Bool :=
  basinFenced s ((tenant s n).place.baseAddr + off) len

/-! ## Free values (log 2) -/

/-- A value the manual leaves open, below `n`, and the state that will give another one next. -/
def freeBelow (s : State) (n : Nat) : Nat := Config.freeNat s.free % n

/-- The k-th of several values that one step takes, each below `n` of at most 2^64. -/
def freeNth (s : State) (k n : Nat) : Nat := Config.freeNat s.free / 2 ^ (64 * k) % n

def State.useFree (s : State) : State := s.onFree (· + 1)

/-! ## Time -/

/-- The time base with the CK-AON count since it stopped, in µs (R101). -/
def nowAon (s : State) : Nat := s.time + s.aon.elapsed * 30518 / 1000

/-- The event timestamp (R99). -/
def stamp (s : State) : Nat := s.time % 2 ^ 32

/-! ## Doorbells on their way to the controller (R11, R21, R105) -/

def producerIndex : Producer → Nat
  | .portA => 0 | .portB => 1 | .hfrx => 2 | .hftx => 3 | .uhfbb => 4 | .sec => 5
  | .core => 6 | .lpd => 7 | .aon => 8 | .fab => 9

/-- The Event row of R105 by which a source's doorbell crosses into CK-FAB (log 10). -/
def producerOf (src : Nat) : Producer :=
  if src ∈ [1, 2, 7] then .lpd
  else if src ∈ [16, 17] then .hftx
  else if src ∈ [19, 21, 22, 23, 39] then .hfrx
  else if src ∈ [48, 49, 50, 52, 65] then .uhfbb
  else if src ∈ [80, 81, 82, 83] then .sec
  else if src ∈ [18, 104, 105] then .aon
  else if src ∈ [11, 96, 97] then .fab
  else .core

/-- Whether CK-FAB is stopped (R70, R109). -/
def fabStopped (s : State) : Bool :=
  match s.pwr.state with
  | .deepStandby | .retain | .lpcd | .off => true
  | _ => false

/-- Firmware runs: normal service and the last steps of start-up (R82). -/
def inService (s : State) : Bool := s.pwr.state == .run || s.pwr.state == .boot

/-- A doorbell waits at the fabric behind those of its producer (R108). -/
def enqueue (p : Producer) (d : Doorbell) (s : State) : State :=
  s.onFab fun f => { f with queues := modAt f.queues (producerIndex p) (· ++ [d]) }

/-- An event reported by a producer with one doorbell (R11). While CK-FAB stands, AON keeps up to 4, and the event
that finds the queue full marks bit 23 of the fourth (R109, R110). -/
def raiseAs (p : Producer) (src pay : Nat) (s : State) : State :=
  let d : Doorbell := ⟨src, BitVec.ofNat 24 pay, false⟩
  if fabStopped s then
    s.onAon fun a =>
      if a.queue.length < 4 then { a with queue := a.queue ++ [d] }
      else { a with queue := modAt a.queue 3 fun q => { q with pay := q.pay ||| 0x800000 } }
  else enqueue p d s

/-- An event of the unit that a source belongs to. -/
def raise (src pay : Nat) (s : State) : State := raiseAs (producerOf src) src pay s

/-! ## Statistics counters (R773, R775–R778) -/

def ctrGet (s : State) (id : Nat) : Nat := assocGet s.ctr.vals id 0

/-- SAT of a counter; WDT_RESETS lies in AON (R777). -/
def ctrSat (s : State) (id : Nat) : Bool := if id = 5 then s.aon.wdtResets == 0xFFFFFFFF else s.ctr.sat.contains id

/-- Adds `n` to a counter, which sticks at 0xFFFF_FFFF, sets SAT and raises source 12 once (R775). -/
def ctrAdd (id n : Nat) (s : State) : State :=
  let v := min 0xFFFFFFFF (ctrGet s id + n)
  let s' := s.onCtr fun c => { c with vals := assocSet c.vals id v }
  if v = 0xFFFFFFFF ∧ ¬ ctrSat s id then
    let t := if 0x10 ≤ id ∧ id < 0x28 then id % 8 else 0
    raise 12 (id + t * 2 ^ 16) (s'.onCtr fun c => { c with sat := id :: c.sat })
  else s'

/-- Clears a counter and re-arms source 12 (R776). -/
def ctrClear (id : Nat) (s : State) : State :=
  s.onCtr fun c => { vals := assocSet c.vals id 0, sat := c.sat.filter (· != id) }

/-- Source 11, counted in ACCESS_FAULTS (R188, R777). -/
def accessFault (p : Port) (write : Bool) (kind addr : Nat) (s : State) : State :=
  ctrAdd 7 1 (raise 11 (portIndex p + 2 * b2n write + 4 * kind + 16 * bits addr 23 4) s)

/-! ## Fences (R193) -/

def fenced (s : State) (u : Nat) : Bool := s.fence.map.getLsbD u

def fenceMap (s : State) : Nat := s.fence.map.toNat

/-! ## Configuration -/

def cfg (s : State) (id : Nat) : Nat := (cfgGet s.cfg id).toNat
def cfgI (s : State) (id : Nat) : Int := cfgGet s.cfg id

/-! ## Replies (R268–R275, R863) -/

/-- The sources that opcode chapters name as completion sources: none, one whose payload is STATUS and
SEQ, or one with a payload of its own and the value R863 gives when the reply has none. -/
inductive Completion where
  | none | status (src : Nat) | own (src dflt : Nat)
deriving DecidableEq, Repr

/-- The completion source of a packet. A SAM_POWER or SAM_EXCHANGE whose byte 0 names no SAM takes the source that the
byte's lowest bit picks, and a CAL_RUN whose byte 0 names neither chain takes none; a byte 0 that is not there counts as
0 (R18; log 185). -/
def completionOf (s : State) (p : Packet) : Completion :=
  let b := fun i => (nth p.params i 0).toNat
  match p.opcode with
  | 0x0101 => .own 10 (s.pt.gen.toNat % 2 ^ 24)
  | 0x0107 | 0x0108 | 0x0601 | 0x0902 => .own 8 0xFFFFFF
  | 0x0300 => .status 37
  | 0x0306 => .status 38
  | 0x0301 => .status 30
  | 0x0302 => .status 31
  | 0x0303 => .status 32
  | 0x0304 => .status 33
  | 0x0305 => .status 34
  | 0x0308 => .status 35
  | 0x0400 => .status 59
  | 0x0402 => .status 60
  | 0x0401 => .status 61
  | 0x0403 => .status 63
  | 0x0404 => .status 64
  | 0x0A01 => .status 66
  | 0x0502 => .status 41
  | 0x0510 | 0x0511 | 0x0512 | 0x0513 => .status 44
  | 0x0600 => if b 0 = 0 then .status 26 else if b 0 = 1 then .status 57 else .none
  | 0x0701 => .status 87
  | 0x0711 =>
    let slot := b 0 % 64
    .own 84 (slot + 64 * (nth s.nv.slots slot KeySlot.empty).version)
  | 0x0800 | 0x0801 => .status (98 + b 0 % 2)
  | _ => .none

/-- Twelve bytes of a clamp entry (R271). -/
def clampBytes (c : Clamp) : List Byte :=
  le 2 c.field ++ le 1 c.reason ++ le 1 c.reasons ++ leInt 4 c.requested ++ leInt 4 c.applied

/-- Clamps that still fit behind a body of `n` bytes (R273). -/
def clampsFit (slot n : Nat) (cs : List Clamp) : List Clamp := cs.take ((slot - 24 - n) / 12)

/-- The 24-byte header of a reply (R268, R270). -/
def replyHeader (s : State) (p : Packet) (start : Nat) (tow susp : Bool) (clamps : List Clamp)
    (status len : Nat) (trunc : Bool) : List Byte :=
  le 2 p.opcode ++ le 1 status ++ le 1 (min 255 clamps.length) ++ le 2 p.seq ++ le 2 len
    ++ le 4 p.cookie.toNat ++ le 4 start ++ le 4 (stamp s)
    ++ le 4 (fenceMap s + b2n trunc * 2 ^ 16 + b2n tow * 2 ^ 17 + b2n susp * 2 ^ 18)

/-- A reply with clamps and no other status carries 0x01 (R272). -/
def replyStatus (status : Nat) (clamps : List Clamp) : Nat :=
  if status = 0 ∧ clamps ≠ [] then 1 else status

/-- Writes a reply and then raises what follows it: completion source, NOTIFY, source 13 (R17, R265,
R274, R863). `own` is the payload of a completion source with a format of its own. -/
def replyWith (p : Packet) (start : Nat) (tow susp : Bool) (clamps : List Clamp) (status0 : Nat)
    (body : List Byte) (own : Option Nat) (s : State) : State :=
  let status := replyStatus status0 clamps
  let t := tenant s p.tenant
  let size := slotSize t.place.rplBig
  let fit := clampsFit size body.length clamps
  let content := body ++ (fit.map clampBytes).flatten
  let slot := (replyHeader s p start tow susp clamps status content.length
    (decide (fit.length < clamps.length)) ++ content).take size
  let comp := completionOf s p
  let s1 :=
    if t.place.rplN = 0 then s
    else
      let a := t.place.baseAddr + t.place.rplOff + (t.rplProd % t.place.rplN) * size
      onTenant p.tenant (fun t => { t with rplProd := (t.rplProd + 1) % (2 * t.place.rplN) })
        (basinWrite a slot s)
  let s2 := ctrAdd (0x18 + p.tenant) 1 s1
  let s3 := if status = 0x15 then ctrAdd (0x20 + p.tenant) 1 s2 else s2
  let s4 :=
    if status = 0x10 then s3
    else match comp with
      | .none => s3
      | .status src => raise src (status + 256 * p.seq) s3
      | .own src d => raise src (own.getD d) s3
  let s5 := if p.notify then raise (112 + 2 * p.tenant) (p.seq + 2 ^ 16 * status) s4 else s4
  if clamps = [] then s5
  else
    raise 13 (min 255 clamps.length + 2 ^ 8 * p.tenant + 2 ^ 12 * (p.opcode % 2 ^ 12))
      (ctrAdd 10 clamps.length s5)

/-- A packet answered without admission: start time equals end time (R269). -/
def answer (p : Packet) (status : Nat) (s : State) : State :=
  replyWith p (stamp s) false false [] status [] none s

/-- A clamp applied without a packet (R274). -/
def clampEvent (id : Nat) (s : State) : State :=
  raise 13 (1 + 2 ^ 11 + 2 ^ 12 * (id % 2 ^ 12)) (ctrAdd 10 1 s)

/-! ## Lanes, chains and leases -/

def laneSt (s : State) : LaneId → Lane
  | .hf => s.hfLane
  | .uhf => s.uhfLane
  | .house => s.houseLane

def onLane (l : LaneId) (f : Lane → Lane) (s : State) : State :=
  match l with
  | .hf => s.onHfLane f
  | .uhf => s.onUhfLane f
  | .house => s.onHouseLane f

def leaseOf (s : State) : Chain → Lease
  | .hf => s.hfLease
  | .uhf => s.uhfLease

def onLease (c : Chain) (f : Lease → Lease) (s : State) : State :=
  match c with
  | .hf => s.onHfLease f
  | .uhf => s.onUhfLease f

def chainLane : Chain → LaneId
  | .hf => .hf
  | .uhf => .uhf

def chainIndex : Chain → Nat
  | .hf => 0
  | .uhf => 1

def chainOf (n : Nat) : Chain := if n = 0 then .hf else .uhf

def onTowLane (c : Chain) (f : TowLane → TowLane) (s : State) : State :=
  s.onTow fun t =>
    match c with
    | .hf => { t with hf := f t.hf }
    | .uhf => { t with uhf := f t.uhf }

def towLane (s : State) : Chain → TowLane
  | .hf => s.tow.hf
  | .uhf => s.tow.uhf

/-- The lane an opcode's packets run on, by the table under "Fetching and admission". -/
def laneFor (p : Packet) : LaneId :=
  let chain := (nth p.params 0 0).toNat
  let byChain : LaneId := if chain = 0 then .hf else if chain = 1 then .uhf else .house
  match p.opcode / 256 with
  | 3 | 5 => .hf
  | 4 => .uhf
  | 6 => if p.opcode = 0x0600 then byChain else .house
  | 10 => byChain
  | _ => .house

/-- The executing packet of a lane. -/
def execOf (s : State) (l : LaneId) : Option Exec := (laneSt s l).exec

/-- Changes the executing packet of a lane, if there is one. -/
def onExec (l : LaneId) (f : Exec → Exec) (s : State) : State :=
  onLane l (fun x => { x with exec := x.exec.map f }) s

/-- Every packet in execution on a lane, suspended ones included. -/
def Lane.all (l : Lane) : List Exec := l.exec.toList ++ l.susp

def allExecs (s : State) : List Exec := s.hfLane.all ++ s.uhfLane.all ++ s.houseLane.all

/-- The executing packet of a lane, provided the row that runs is the one for its opcode and it has
not started yet. -/
def freshOn (s : State) (l : LaneId) (op : Nat) : Option Exec :=
  match execOf s l with
  | some e => if e.pkt.opcode = op ∧ e.phase = .fresh then some e else none
  | none => none

/-- Writes the reply of an execution that has left its lane. -/
def replyExec (e : Exec) (status : Nat) (body : List Byte) (own : Option Nat) (s : State) : State :=
  replyWith e.pkt e.start e.towpath e.suspended e.clamps status body own s

/-! ## Fault log records (R779–R781) -/

/-- A record waits in RAM for the commit gate; a record that finds 16 waiting is lost (R781). -/
def logRecord (kind src ten pay loc : Nat) (s : State) : State :=
  if s.contain.queue.length < 16 then
    let r : LogRec :=
      { kind := kind, lost := s.contain.lost, src := src, tenant := ten, seq := s.nv.logSeq
        time := s.time, pay := BitVec.ofNat 24 pay, cause := s.aon.startCause, location := loc
        version := s.fw.version, detail := [] }
    (s.onContain fun c => { c with queue := c.queue ++ [r], lost := false }).onNv
      fun n => { n with logSeq := (n.logSeq + 1) % 2 ^ 32 }
  else
    ctrAdd 11 1 ((s.onContain fun c => { c with lost := true }).onNv
      fun n => { n with logSeq := (n.logSeq + 1) % 2 ^ 32 })

end Sys2Proof.Machine
end

