-- ==== Sys2Proof/Machine/Crypto.lean ====
section
/-! DEFINITION. The named algorithms that the part computes: SHA-256 (FIPS 180-4; R139) and AES blocks (FIPS 197;
R681, R707) and CTR_DRBG (SP 800-90A; R691), in the notation of those standards. -/

namespace Sys2Proof.Machine

open Sys2Proof

def xorBytes (a b : List Byte) : List Byte := List.zipWith (· ^^^ ·) a b

/-! ## SHA-256 -/

/-- The largest number below 2^35 whose k-th power is at most `n`. -/
def rootBelow (k n : Nat) : Nat :=
  (List.range 35).foldl (fun r i => if (r + 2 ^ (34 - i)) ^ k ≤ n then r + 2 ^ (34 - i) else r) 0

/-- The first 32 bits of the fraction of the k-th root of `p`. -/
def rootFraction (k p : Nat) : Word := BitVec.ofNat 32 (rootBelow k (p * 2 ^ (32 * k)))

def isPrime (p : Nat) : Bool := 1 < p && (List.range 18).all fun d => d < 2 || p ≤ d || p % d != 0

/-- The first 64 prime numbers, from which FIPS 180-4 takes its constants. -/
def shaPrimes : List Nat := (List.range 312).filter isPrime

/-- The round constants: fractions of the cube roots. -/
def shaK : List Word := shaPrimes.map (rootFraction 3)

/-- The initial hash value: fractions of the first eight square roots. -/
def shaInit : List Word := (shaPrimes.take 8).map (rootFraction 2)

/-- A 32-bit word of the message, most significant byte first. -/
def shaWord (bs : List Byte) : Word := BitVec.ofNat 32 (leNat (bs.take 4).reverse)

def shaWords : Nat → List Byte → List Word
  | 0, _ => []
  | n + 1, bs => shaWord bs :: shaWords n (bs.drop 4)

/-- A word rotated right by each of some amounts, all of them added bit by bit. -/
def rotations (x : Word) (by_ : List Nat) : Word := by_.foldl (fun acc n => acc ^^^ x.rotateRight n) 0

/-- `n` further words of the schedule; the list holds the latest word first. -/
def shaSchedule : Nat → List Word → List Word
  | 0, w => w
  | n + 1, w =>
    let late := nth w 1 0
    let early := nth w 14 0
    shaSchedule n ((nth w 15 0 + (rotations early [7, 18] ^^^ early >>> 3) + nth w 6 0
      + (rotations late [17, 19] ^^^ late >>> 10)) :: w)

/-- One round on the working variables a to h. -/
def shaRound (v : List Word) (kw : Word × Word) : List Word :=
  match v with
  | [a, b, c, d, e, f, g, h] =>
    let choice := g ^^^ (e &&& (f ^^^ g))
    let majority := (a &&& b) ||| (c &&& (a ||| b))
    let t1 := kw.1 + kw.2 + h + choice + rotations e [6, 11, 25]
    let t2 := majority + rotations a [2, 13, 22]
    [t1 + t2, a, b, c, d + t1, e, f, g]
  | _ => v

/-- The hash value after one 64-byte block. -/
def shaBlock (h : List Word) (block : List Byte) : List Word :=
  let w := (shaSchedule 48 (shaWords 16 block).reverse).reverse
  List.zipWith (· + ·) h ((shaK.zip w).foldl shaRound h)

def shaBlocks : Nat → List Word → List Byte → List Word
  | 0, h, _ => h
  | n + 1, h, bs => shaBlocks n (shaBlock h (bs.take 64)) (bs.drop 64)

/-- The message with its padding and its length in bits. -/
def shaPad (bs : List Byte) : List Byte :=
  bs ++ 0x80 :: (List.replicate ((119 - bs.length % 64) % 64) 0 ++ (le 8 (8 * bs.length)).reverse)

/-- The SHA-256 hash, first byte first. -/
def sha256 (bs : List Byte) : List Byte :=
  let m := shaPad bs
  ((shaBlocks (m.length / 64) shaInit m).map fun w => (le 4 w.toNat).reverse).flatten

/-! ## AES -/

/-- Multiplication by x modulo x^8 + x^4 + x^3 + x + 1. -/
def gfDouble (a : Byte) : Byte := if a.getLsbD 7 then a <<< 1 ^^^ 0x1B else a <<< 1

/-- `n` more bits of a product in GF(2^8). -/
def gfMulBits : Nat → Byte → Byte → Byte
  | 0, _, _ => 0
  | n + 1, a, b => (if b.getLsbD 0 then a else 0) ^^^ gfMulBits n (gfDouble a) (b >>> 1)

def gfMul (a b : Byte) : Byte := gfMulBits 8 a b

/-- The inverse a^254, and 0 for 0. -/
def gfInverse (a : Byte) : Byte :=
  let a2 := gfMul a a
  let a3 := gfMul a2 a
  let a6 := gfMul a3 a3
  let a12 := gfMul a6 a6
  let a15 := gfMul a12 a3
  let a30 := gfMul a15 a15
  let a60 := gfMul a30 a30
  let a120 := gfMul a60 a60
  gfMul (gfMul (gfMul a120 a120) a12) a2

def aesSub (a : Byte) : Byte :=
  let b := gfInverse a
  b ^^^ b.rotateLeft 1 ^^^ b.rotateLeft 2 ^^^ b.rotateLeft 3 ^^^ b.rotateLeft 4 ^^^ 0x63

def aesSubInv (a : Byte) : Byte := gfInverse (a.rotateLeft 1 ^^^ a.rotateLeft 3 ^^^ a.rotateLeft 6 ^^^ 0x05)

/-- Byte `i` of the state takes its value from byte `f i`. -/
def aesPermute (f : Nat → Nat) (st : List Byte) : List Byte := (List.range 16).map fun i => nth st (f i) 0

/-- SHIFTROWS and its inverse; byte i lies in row i mod 4. -/
def aesShift (st : List Byte) : List Byte := aesPermute (fun i => (i + 4 * (i % 4)) % 16) st
def aesShiftInv (st : List Byte) : List Byte := aesPermute (fun i => (i + 12 * (i % 4)) % 16) st

/-- MIXCOLUMNS with the first row of its matrix; the other rows are that one rotated. -/
def aesMix (row : List Byte) (st : List Byte) : List Byte :=
  (List.range 16).map fun i =>
    (List.range 4).foldl (fun acc j => acc ^^^ gfMul (nth row ((j + 4 - i % 4) % 4) 0) (nth st (i / 4 * 4 + j) 0)) 0

/-- The next word of the key schedule from the words so far, latest first; `i` is its number. -/
def aesNextWord (nk i : Nat) (ws : List (List Byte)) : List Byte :=
  let t := nth ws 0 []
  let u := if i % nk = 0 then
      xorBytes ((t.drop 1 ++ t.take 1).map aesSub) [(List.range (i / nk - 1)).foldl (fun r _ => gfDouble r) 1, 0, 0, 0]
    else if 6 < nk ∧ i % nk = 4 then t.map aesSub
    else t
  xorBytes (nth ws (nk - 1) []) u

def aesExpand (nk : Nat) : Nat → Nat → List (List Byte) → List (List Byte)
  | 0, _, ws => ws
  | n + 1, i, ws => aesExpand nk n (i + 1) (aesNextWord nk i ws :: ws)

/-- The round keys of a 16-byte or 32-byte key. -/
def aesKeys (key : List Byte) : List (List Byte) :=
  let nk := key.length / 4
  let first := ((List.range nk).map fun i => (key.drop (4 * i)).take 4).reverse
  let ws := (aesExpand nk (4 * (nk + 7) - nk) nk first).reverse
  (List.range (nk + 7)).map fun r => (((ws.drop (4 * r)).take 4)).flatten

/-- The rounds after the first key addition; the last one does not mix columns. -/
def aesRounds : List (List Byte) → List Byte → List Byte
  | [], st => st
  | [k], st => xorBytes (aesShift (st.map aesSub)) k
  | k :: ks, st => aesRounds ks (xorBytes (aesMix [2, 3, 1, 1] (aesShift (st.map aesSub))) k)

/-- One block enciphered (FIPS 197). -/
def aesEncrypt (key block : List Byte) : List Byte :=
  match aesKeys key with
  | [] => block
  | k :: ks => aesRounds ks (xorBytes block k)

/-- The inverse rounds, with the round keys from the last to the first. -/
def aesRoundsInv : List (List Byte) → List Byte → List Byte
  | [], st => st
  | [k], st => xorBytes ((aesShiftInv st).map aesSubInv) k
  | k :: ks, st => aesRoundsInv ks (aesMix [14, 11, 13, 9] (xorBytes ((aesShiftInv st).map aesSubInv) k))

/-- One block deciphered (FIPS 197). -/
def aesDecrypt (key block : List Byte) : List Byte :=
  match (aesKeys key).reverse with
  | [] => block
  | k :: ks => aesRoundsInv ks (xorBytes block k)

/-- The MAC of the next `n` blocks after the value `x` (CBC-MAC; the function BCC of SP 800-90A). -/
def cbcMac (key : List Byte) : Nat → List Byte → List Byte → List Byte
  | 0, x, _ => x
  | n + 1, x, bs => cbcMac key n (aesEncrypt key (xorBytes x (bs.take 16))) (bs.drop 16)

/-! ## CTR_DRBG (SP 800-90A) with AES-256 and the derivation function -/

/-- `n` in 4 bytes, most significant first. -/
def be32 (n : Nat) : List Byte := (le 4 n).reverse

/-- `n` blocks, each the cipher of the one before. -/
def ofbBlocks (key : List Byte) : Nat → List Byte → List Byte
  | 0, _ => []
  | n + 1, x =>
    let y := aesEncrypt key x
    y ++ ofbBlocks key n y

/-- Block_Cipher_df: 48 bytes from an input of whole bytes. -/
def drbgDerive (input : List Byte) : List Byte :=
  let s := be32 input.length ++ be32 48 ++ input ++ [0x80]
  let padded := s ++ List.replicate ((16 - s.length % 16) % 16) 0
  let k0 := (List.range 32).map fun i => BitVec.ofNat 8 i
  let part := fun i =>
    let data := be32 i ++ List.replicate 12 0 ++ padded
    cbcMac k0 (data.length / 16) (List.replicate 16 0) data
  let t := part 0 ++ part 1 ++ part 2
  ofbBlocks (t.take 32) 3 (t.drop 32)

/-- The value after V. -/
def drbgNext (v : List Byte) : List Byte := (le 16 ((leNat v.reverse + 1) % 2 ^ 128)).reverse

/-- `n` blocks of output, and V after them. -/
def drbgBlocks (key : List Byte) : Nat → List Byte → List Byte × List Byte
  | 0, v => ([], v)
  | n + 1, v =>
    let v1 := drbgNext v
    let r := drbgBlocks key n v1
    (aesEncrypt key v1 ++ r.1, r.2)

/-- CTR_DRBG_Update: Key and V after 48 bytes of data. -/
def drbgUpdate (data key v : List Byte) : List Byte × List Byte :=
  let t := xorBytes (drbgBlocks key 3 v).1 data
  (t.take 32, t.drop 32)

/-- Key and V of a new instance. -/
def drbgInstantiate (seed personal : List Byte) : List Byte × List Byte :=
  drbgUpdate (drbgDerive (seed ++ personal)) (List.replicate 32 0) (List.replicate 16 0)

/-- Key and V after a reseed. -/
def drbgReseed (entropy key v : List Byte) : List Byte × List Byte := drbgUpdate (drbgDerive entropy) key v

/-- One generate call of `n` bytes without additional input, with Key and V after it. -/
def drbgGenerate (n : Nat) (key v : List Byte) : List Byte × (List Byte × List Byte) :=
  let r := drbgBlocks key ((n + 15) / 16) v
  (r.1, drbgUpdate (List.replicate 48 0) key r.2)

end Sys2Proof.Machine
end

