-- ==== Sys2Proof/Machine/Flags.lean ====
section
/-! DEFINITION. The status words and flag bits that are computed from the state when they are read:
IRQ levels, target state, tenant status, port errors. -/

namespace Sys2Proof.Machine

open Sys2Proof

/-! ## Interrupt controller -/

/-- Reserved sources (R358). -/
def reservedSrc (n : Nat) : Bool :=
  n == 47 || (67 ≤ n && n ≤ 79) || (88 ≤ n && n ≤ 95) || (106 ≤ n && n ≤ 111) || 128 ≤ n

/-- Fields of IC_SRC(s) (R322); a reserved source reads 0 (R323). -/
def icSrc (s : State) (n : Nat) : Nat := if reservedSrc n then 0 else (nth s.ic.src n 0).toNat
def srcPrio (s : State) (n : Nat) : Nat := bits (icSrc s n) 3 0
def srcTarget (s : State) (n t : Nat) : Bool := bit (icSrc s n) (4 + t)
def srcOwner (s : State) (n : Nat) : Nat := bits (icSrc s n) 10 8
def srcModeC (s : State) (n : Nat) : Bool := bit (icSrc s n) 11
def srcProfile (s : State) (n : Nat) : Nat := bits (icSrc s n) 14 12

def srcState (s : State) (n : Nat) : SrcState := nth s.ic.st n .idle
def curpri (s : State) (t : Nat) : Nat := nth s.ic.curpri t 0

/-- Pending and mask bits; those of a reserved source read 0 (R323). -/
def pendBit (s : State) (n : Nat) : Bool := !reservedSrc n && s.ic.pend.getLsbD n
def maskBit (s : State) (n : Nat) : Bool := !reservedSrc n && s.ic.mask.getLsbD n

/-- The port may change the pending and mask bits of a source (R320). -/
def portOwnsSrc (s : State) (p : Port) (n : Nat) : Bool := !reservedSrc n && portOf s p (srcOwner s n)

/-- A watermark of R337 holds IRQt while the owner's EVT_CONS has not reached it. -/
def markHolds (s : State) (t n : Nat) : Bool :=
  match nth s.ic.marks (8 * t + n) none with
  | none => false
  | some m =>
    let u := ringUsed m (tenant s n).evtCons (tenant s n).place.evtN
    decide (0 < u) && decide (u ≤ (tenant s n).place.evtN)

def ringHolds (s : State) (t : Nat) : Bool := (List.range 8).any (markHolds s t)

def deliveredTo (s : State) (t n : Nat) : Bool := srcState s n == .delivered t

def claimable (s : State) (t : Nat) : Bool := (List.range 128).any (deliveredTo s t)

/-- Level of IRQt (R344); deasserted while the controller is fenced (R29, R316) and in recovery
service (R32). -/
def irqLevel (s : State) (t : Nat) : Bool :=
  !fenced s 7 && !(s.pwr.state == .recovery || s.pwr.state == .startup) && (claimable s t || ringHolds s t)

/-- The level of the IRQt pin: held low while VIO_B is absent (R850). -/
def irqPin (s : State) (t : Nat) : Bool := s.portB.vio && irqLevel s t

/-- IC_TSTATt (R345). -/
def tstat (s : State) (t : Nat) : Nat :=
  b2n (irqLevel s t) + 2 * b2n (claimable s t) + 4 * b2n (ringHolds s t)
    + 2 ^ 8 * packBits ((List.range 8).map (markHolds s t)) + 2 ^ 16 * b2n (nth s.ic.eoiErr t false)

/-- 32 bits of a 128-bit map. -/
def word128 (v : BitVec 128) (i : Nat) : Nat := v.toNat / 2 ^ (32 * i) % 2 ^ 32

/-- IC_PENDi reads 0 while the controller is fenced (R316). -/
def icPend (s : State) (i : Nat) : Nat := if fenced s 7 then 0 else word128 s.ic.pend i

/-- IC_ACTIVEi (R317): mode C sources DELIVERED or ACTIVE, the 8 cycles before step 4 included (R323). -/
def icActive (s : State) (i : Nat) : Nat :=
  packBits ((List.range 32).map fun b => srcState s (32 * i + b) != .idle)

/-- IC_PROFILEp (R317, R360). -/
def icProfile (s : State) (p : Nat) : Nat := cfg s (0x500 + p) + 2 ^ 16 * cfg s (0x508 + p)

/-! ## Tenants -/

def rplFull (t : Tenant) : Bool := t.place.rplN ≠ 0 && ringUsed t.rplProd t.rplCons t.place.rplN == t.place.rplN

def waitsFor (l : Lease) (n : Nat) : Bool := l.queue.any fun w => w.tenant == n && w.exec.isSome

/-- TEN_STATUS (R202). CMD_HELD shows a full reply ring (R19); a grant under way shows nowhere (log 212). -/
def tenStatus (s : State) (n : Nat) : Nat :=
  let t := tenant s n
  b2n (enabled s n) + 2 * b2n t.resetting + 4 * b2n (rplFull t) + 8 * b2n t.idxErr
    + 2 ^ 8 * b2n (s.hfLease.holder == some n) + 2 ^ 9 * b2n (s.uhfLease.holder == some n)
    + 2 ^ 10 * b2n (waitsFor s.hfLease n) + 2 ^ 11 * b2n (waitsFor s.uhfLease n)

/-! ## Ports -/

/-- What is left of a transaction in progress on a port that is reset: it is ended, and the port drives nothing until
chip select rises, when a PORT_RESET word that had reached the fabric takes effect (R205, R206, R209). The doorbells of
CMD_PROD words before the reset ring with it (log 251). -/
def cutTx (q : PortSt) : Option OpenTx :=
  match q.burst, q.stall with
  | some o, _ => some { o with paCfg := none, doors := [], kind := .dead }
  | none, some st => some { addr := st.addr, write := false, kind := .dead }
  | none, none => none

/-- A port is served and powered: both while firmware runs, port B alone in recovery service (R32, R178, R183, R214,
R847). -/
def portServed (s : State) (p : Port) : Bool :=
  (inService s || (s.pwr.state == .recovery && p == .b)) && !fenced s (12 + portIndex p) && (portSt s p).vio

/-- A port answers transactions: it is served, and not between steps 1 and 4 of a port reset (R209). -/
def portUp (s : State) (p : Port) : Bool := portServed s p && decide ((portSt s p).resetUntil ≤ s.time)

/-- PA_CFG (R194). -/
def paCfg (s : State) : Nat := b2n s.portA.mode + 2 ^ 8 * s.portA.latency

/-- A port error sets its flag, captures the address of the first one since the error register was
read, and counts (R196, R197, R777). -/
def portErrFlag (p : Port) (code addr : Nat) (s : State) : State :=
  ctrAdd (8 + portIndex p) 1 (onPort p (fun q =>
    { q with
      err := q.err ||| BitVec.ofNat 32 (2 ^ (code - 1))
      errAddr := if q.armed then BitVec.ofNat 32 addr else q.errAddr
      armed := false }) s)

/-- The doorbell of a port error (R211). -/
def portErrEvent (p : Port) (code addr : Nat) (s : State) : State :=
  raise (96 + portIndex p) (code + 16 * bits addr 23 4) s

end Sys2Proof.Machine
end

