-- ==== Sys2Proof/Machine/Chain.lean ====
section
/-! DEFINITION. What both RF chains share with power, leases and fences: the VPA budget, field and
carrier falls, frame boundaries, and switching off the users of a chain. -/

namespace Sys2Proof.Machine

open Sys2Proof

/-! ## VPA budget (R53–R58, R62, R63, R66) -/

/-- CAL-F where it is valid (R83, R539). -/
def calF (s : State) : Option CalData :=
  match s.nv.calF with
  | .valid c => if c.kind = 0 ∧ c.serial = s.nv.serial then some c else none
  | _ => none

/-- VPA draw in mW of an HF step, 0 for none (R53, R86, R539). -/
def hfDraw (s : State) (step : Nat) : Nat :=
  if step = 0 then 0
  else match calF s with
    | some c => nth c.hf.eff (step - 1) 0
    | none => Config.hfDrawMax step

/-- VPA draw in mW of a UHF output in 0.01 dBm. -/
def uhfDraw (s : State) (power : Nat) : Nat :=
  if power = 0 then 0
  else match calF s with
    | some c => nth c.uhf.eff ((power - 500) / 25) 0
    | none => Config.uhfDrawMax ((power - 500) / 25)

/-- The budget after derating (R62), held while the thermal sensor is fenced (R66); 0 in a warning
episode (R40, R43). -/
def budget (s : State) : Nat :=
  let b := cfg s 0x101
  let thr := cfg s 0x106
  if s.pwr.warn then 0
  else if fenced s 11 then min 2000 b
  else if (thr : Int) < s.therm.temp then
    max 1000 (b - cfg s 0x107 * (s.therm.temp - thr).toNat)
  else b

/-- The reserve of a SAM powered in class A or B (R55). -/
def samReserve (m : Sam) : Nat :=
  if m.stage = .off then 0 else if m.cls = 1 then 500 else if m.cls = 2 then 400 else 0

/-- What the SAMs leave of the budget. -/
def chainBudget (s : State) : Nat := budget s - samReserve s.sam0 - samReserve s.sam1

/-- What is left for HF; a request of UHF in the same evaluation cycle comes after it (R13). -/
def hfRoom (s : State) : Nat := chainBudget s - min s.pwr.uhfGrant s.pwr.uhfWas

def uhfRoom (s : State) : Nat := chainBudget s - max (cfg s 0x102) s.pwr.hfGrant

/-- The highest HF step at or below `want` whose draw fits `room`; 0 when none does (R56, R57). -/
def hfFit (s : State) (room : Nat) : Nat → Nat
  | 0 => 0
  | k + 1 => if hfDraw s (k + 1) ≤ room then k + 1 else hfFit s room k

/-- The same for UHF output steps, counted from 1 at +5.00 dBm. -/
def uhfFitStep (s : State) (room : Nat) : Nat → Nat
  | 0 => 0
  | k + 1 => if uhfDraw s (500 + 25 * k) ≤ room then k + 1 else uhfFitStep s room k

/-- The highest output in 0.01 dBm at or below `want` that fits; 0 when none does. -/
def uhfFit (s : State) (room want : Nat) : Nat :=
  match uhfFitStep s room ((want - 500) / 25 + 1) with
  | 0 => 0
  | k + 1 => 500 + 25 * k

/-- The chain granted later is the one whose grant last rose from nothing; a step up of a grant does not count
(R63; log 171). Of two grants in one evaluation cycle HF's is the earlier (R13). -/
def setHfGrant (mw : Nat) (s : State) : State :=
  s.onPwr fun p =>
    { p with
      hfGrant := mw
      later :=
        if mw = 0 ∨ p.hfGrant ≠ 0 then p.later else if p.uhfWas = 0 ∧ p.uhfGrant ≠ 0 then some .uhf else some .hf }

def setUhfGrant (mw : Nat) (s : State) : State :=
  s.onPwr fun p =>
    { p with
      uhfGrant := mw
      later := if mw = 0 then p.later else if p.uhfGrant = 0 then some .uhf else p.later }

/-- A request takes its grant at once: the draw of an output that waits for a boundary is held until that output
comes into force (R53, R58). -/
def askHfGrant (mw : Nat) (s : State) : State := setHfGrant (max mw s.pwr.hfGrant) s

def askUhfGrant (mw : Nat) (s : State) : State := setUhfGrant (max mw s.pwr.uhfGrant) s

def setField (id : Nat) (v : Int) (s : State) : State := s.onCfg (cfgSet · id v)

/-! ## Waveform keys (R482) -/

/-- The charter generation, part of every key (R520). -/
def keyGeneration (s : State) : Int := ((s.chr.inForce.map (·.gen)).getD 0 : Nat)

/-- The waveform key of a chain: its fields of R502, for UHF the raster index, the active bank and the
charter generation. -/
def waveKey (s : State) : Chain → List Int
  | .hf => ((List.range 6).map fun k => cfgI s (0x210 + k)) ++ [(s.cal.bankHf : Int), keyGeneration s]
  | .uhf =>
    ((List.range 9).map fun k => cfgI s (0x310 + k)) ++ ((List.range 17).map fun k => cfgI s (0x320 + k))
      ++ [(s.uhf.index : Int), (s.cal.bankUhf : Int), keyGeneration s]

def verdicts (s : State) : Chain → List (List Int × Nat)
  | .hf => s.spec.hf
  | .uhf => s.spec.uhf

/-- The key in force holds a pass verdict (R482). -/
def passed (s : State) (c : Chain) : Bool := (verdicts s c).any fun v => v.1 == waveKey s c && v.2 == 0

/-- The field is on, rising or falling. -/
def hfEmits (s : State) : Bool := s.hf.on || s.hf.rising

/-- The radio state with the field off (R361, R363). -/
def hfIdleRadio (s : State) : Radio :=
  if fenced s 0 || s.pwr.state != .run then .sleep
  else if s.hfLease.holder.isSome || s.hfLease.handover || s.hfLease.granting.isSome then
    (if s.hf.pll = .locked then .synth else .standby)
  else .standby

/-- A chain without an output of its own is in the state of its lease and PLL, and receives no frame (R361, R363, R375).
-/
def hfIdle (s : State) : State :=
  if hfEmits s then s else s.onHf fun h => { h with radio := hfIdleRadio s, sof := false }

/-! ## Clearing what uses a chain -/

/-- Card emulation ends with a cause of source 28 (R650, R651, R670); the profile stays. An EMU_RESPOND
in execution ends at its next yield point. -/
def emuOff (cause : Nat) (s : State) : State :=
  if s.emu.armed then
    raise 28 cause (hfIdle ((s.onEmu fun e => { Emu.reset with profile := e.profile, owner := e.owner }).onHf
      fun h => { h with tx := none, wait := none }))
  else s

/-- Peer mode ends without further frames. With no field of its own the chain sends nothing on, and listens no more
(R361). -/
def peerOff (s : State) : State :=
  let s1 := s.onPeer fun _ => none
  if s.peer.isNone || hfEmits s then s1 else s1.onHf fun h => { h with tx := none, wait := none, sof := false }

/-- Peer mode stops because the lease leaves: source 45 with code 3, and an initiator whose field is on sends RLS_REQ
before it falls, where its key holds a pass verdict; the chain goes on to SYNTH (R363, R484, R650, R670; log 204). -/
def peerLeave (s : State) : State :=
  match s.peer with
  | none => s
  | some p =>
    raise 45 3 (hfIdle ((peerOff s).onHf fun h =>
      { h with
        held := none
        sent := if !p.target && h.on && h.falling.isNone && passed s .hf && !fenced s 3 then some .rlsReq else h.sent }))

/-- Towpath steps become due on a chain. -/
def addDue (c : Chain) (ks : List StepKind) (s : State) : State :=
  onTowLane c (fun t => { t with due := t.due ++ ks.filter fun k => !t.due.contains k }) s

/-- The tuner is set: a step of it changes the load of the loop, and makes the carrier null due again (R366, R560). -/
def setCodes (cs cp : Nat) (s : State) : State :=
  let moved : Bool := cs != s.cal.hf.series || cp != s.cal.hf.parallel
  let s1 := s.onCal fun c => { c with hf := { c.hf with series := cs, parallel := cp } }
  if moved then addDue .hf [.null] (s1.onHf fun h => { h with loopUntil := s.time + 20 }) else s1

/-- A reader frame or its reply window is running (R367, R368). -/
def hfInFrame (s : State) : Bool := s.hf.tx.isSome || s.hf.wait.isSome

/-- A frame is in flight on HF: an own one with its reply window, or one that the emulated card or a peer receives
(R384, R393, R549, R650). -/
def hfFrameRuns (s : State) : Bool := hfInFrame s || ((s.emu.armed || s.peer.isSome) && s.hf.sof)

/-- New codes, which inside a frame wait for its end (R384). -/
def putCodes (cs cp : Nat) (s : State) : State :=
  if hfInFrame s then s.onHf fun h => { h with nextCodes := some (cs, cp) } else setCodes cs cp s

/-- The codes that a tuner step in progress has set are taken back, with its turn of the search (R560). -/
def undoTuner (s : State) : State :=
  match s.hf.stepFrom with
  | none => s
  | some (cs, cp, r) =>
    (s.onCal fun c => { c with hf := { c.hf with series := cs, parallel := cp } }).onHf
      fun h => { h with stepFrom := none, retune := h.retune.map fun _ => r }

/-- A towpath step on a chain is abandoned without a result (R560); a retune goes on with its tuner step later (R383).
-/
def towStop (c : Chain) (s : State) : State :=
  let s1 := onTowLane c (fun t => { t with step := none, void := false }) s
  if (towLane s c).step = some .tuner then addDue .hf [.tuner] (undoTuner s1) else s1

/-- A retune that runs when the field falls or the lease leaves is abandoned with the best codes
(R385). -/
def abandonRetune (s : State) : State :=
  match s.hf.retune with
  | none => s
  | some r =>
    raise 20 (r.bestS + 2 ^ 6 * r.bestP + 2 ^ 13 * r.n) (putCodes r.bestS r.bestP (s.onHf fun h => { h with retune := none }))

/-- The capture of a chain is cut off when the lease leaves or the chain is fenced (R499); CAPTURE_DONE
writes its header. -/
def cutCapture (c : Chain) (s : State) : State :=
  let f := Option.map fun (k : Capture) => { k with cut := true }
  match c with
  | .hf => s.onCapHf f
  | .uhf => s.onCapUhf f

/-! ## HF field -/

/-- The field is on and not falling. -/
def hfLit (s : State) : Bool := s.hf.on && s.hf.falling.isNone

/-- The field is on or rising, and not falling. -/
def hfUp (s : State) : Bool := hfEmits s && s.hf.falling.isNone

/-- The shaped fall starts (R369); the cards in the field are reset (R588). -/
def hfFall (cause : Nat) (s : State) : State :=
  if hfEmits s && s.hf.falling.isNone then
    let s1 := abandonRetune (towStop .hf s)
    s1.onHf fun h =>
      { h with
        on := true, rising := false, falling := some cause, fallEnd := s.time + 60
        nextStep := none, tx := none, held := none, wait := none, cards := []
        bad := 0, sof := false, radio := .rx }
  else s

/-- A power step in force, with its grant (R365, R58); the loop settles anew. -/
def hfApplyStep (k : Nat) (s : State) : State :=
  setHfGrant (hfDraw s k)
    (s.onHf fun h => { h with step := k, nextStep := none, lowSince := none, loopUntil := s.time + 20 })

/-- The LPCD baseline is the active bank's until a REBASE (R402). -/
def lpcdFromBank (c : HfCal) (s : State) : State :=
  s.onHf fun h =>
    if h.lpcd.rebased then h else { h with lpcd := { h.lpcd with aBase := c.aBase, nBase := c.nBase } }

/-- Cached verdicts of a chain are discarded (R486). -/
def dropVerdicts (c : Chain) (s : State) : State :=
  s.onSpec fun m => match c with
    | .hf => { m with hf := [] }
    | .uhf => { m with uhf := [] }

/-- Values and tuner codes that waited for the end of a frame take effect, with what the fields of R502 drop (R384,
R503, R569). -/
def hfTakeValues (s : State) : State :=
  let s0 := if s.hf.dropDue then dropVerdicts .hf (s.onHf fun h => { h with dropDue := false }) else s
  let s1 :=
    match s0.cal.nextHf with
    | some (c, b) => lpcdFromBank c (s0.onCal fun k => { k with hf := c, bankHf := b, nextHf := none })
    | none => s0
  match s1.hf.nextCodes with
  | some (a, b) =>
    setCodes a b (s1.onHf fun h => { h with nextCodes := none })
  | none => s1

/-- A frame boundary on HF: what waited for it takes effect (R368, R373, R384, R569). A waiting step
of 0 is the fall of R63. -/
def hfBoundary (s : State) : State :=
  let s2 := hfTakeValues s
  if !hfEmits s2 then s2
  else match s2.hf.nextStep with
  | some 0 => hfFall (if s2.chr.stopped then 0 else 2) s2
  | some k => hfApplyStep k s2
  | none => s2

/-- The field has ended: its grant is released (R58), and a frame cut by the end is over. -/
def hfFieldOut (s : State) : State :=
  let s1 := hfTakeValues (setHfGrant 0 (s.onHf fun h =>
    { h with on := false, rising := false, falling := none, step := 0, nextStep := none, iAnt := 0, drive := 0, lowSince := none }))
  s1.onHf fun h => { h with radio := hfIdleRadio s1 }

/-- The field is off at the end of its fall: source 17 (R406). -/
def hfFieldGone (cause : Nat) (s : State) : State := raise 17 cause (hfFieldOut s)

/-- A field that R112 has ended is reported at fence entry (R406). -/
def hfDriverCut (s : State) : State :=
  if s.hf.cut then raise 17 3 (s.onHf fun h => { h with cut := false }) else s

/-! ## UHF carrier -/

def uhfLit (s : State) : Bool := s.uhf.on && s.uhf.falling.isNone
def uhfEmits (s : State) : Bool := s.uhf.on || s.uhf.rising
def uhfUp (s : State) : Bool := uhfEmits s && s.uhf.falling.isNone
def uhfInFrame (s : State) : Bool := s.uhf.tx.isSome || s.uhf.wait.isSome

/-- The carrier state of the tenant is kept across a hop, a rest and a relock (R441). -/
def keepsCarrier : FallFor → Bool
  | .hop | .rest | .relock => true
  | _ => false

def uhfIdleRadio (s : State) : Radio :=
  if fenced s 1 || s.pwr.state != .run then .sleep
  else if s.uhfLease.holder.isSome || s.uhfLease.handover || s.uhfLease.granting.isSome then
    (if s.uhf.synth = .locked then .synth else .standby)
  else .standby

/-- The cause of a fall under way when another comes: one that ends the carrier takes the place of a hop, a rest or a
relock, and else the first stands, with its moment (R419, R425, R459). -/
def fallCause (was why : FallFor) : FallFor := if keepsCarrier was && !keepsCarrier why then why else was

/-- The carrier to come is given up with its grant; a chain that listened for it is back in SYNTH (R418, R434). -/
def giveUpRise (s : State) : State :=
  setUhfGrant 0 (s.onUhf fun u =>
    { u with riseWait := .none, wantOn := false, radio := if u.riseWait = .lbt then uhfIdleRadio s else u.radio })

/-- The shaped fall of 30 µs starts (R419); a carrier still to rise is given up. A frame in flight is lost: where the
carrier comes back, its exchange goes on as unanswered (R425, R435), and a frame that waits waits on. -/
def uhfFall (why : FallFor) (s : State) : State :=
  let keep := keepsCarrier why
  match s.uhf.falling with
  | some was =>
    if keep then s
    else s.onUhf fun u => { u with falling := some (fallCause was why), held := none, wait := none, wantOn := false }
  | none =>
    if uhfEmits s then
      let lost := keep && uhfInFrame s
      let s1 := towStop .uhf s
      s1.onUhf fun u =>
        { u with
          on := true, rising := false, falling := some why, fallEnd := s.time + 30, sof := false
          nextPower := none, radio := .rx, tx := none
          held := if keep then u.held else none
          wait := if lost then some s.time else none
          wantOn := keep && u.wantOn }
    else if keep then s
    else giveUpRise s

/-- The visit that ends is entered in the ledger (R429). -/
def endVisit (s : State) : State :=
  match s.uhf.visitFrom with
  | none => s
  | some t => s.onUhf fun u =>
    { u with visitFrom := none, ledger := u.ledger ++ [(u.index, t, s.time)] }

/-- The same on UHF. -/
def uhfTakeValues (s : State) : State :=
  let s0 := if s.uhf.dropDue then dropVerdicts .uhf (s.onUhf fun u => { u with dropDue := false }) else s
  match s0.cal.nextUhf with
  | some (c, b) => s0.onCal fun k => { k with uhf := c, bankUhf := b, nextUhf := none }
  | none => s0

/-- The carrier is off: grant released (R58), and a handover counts its 20 µs from here (R243), unless it
keeps its carrier (R244). -/
def uhfCarrierGone (s : State) : State :=
  let s0 := onLease .uhf (fun l => if l.handover && !l.live then { l with dueAt := s.time + 20 } else l) s
  let s1 := uhfTakeValues (setUhfGrant 0 (endVisit (s0.onUhf fun u =>
    { u with on := false, rising := false, falling := none, power := 0, fwd := 0, rl := 0 })))
  s1.onUhf fun u => { u with radio := uhfIdleRadio s1 }

/-- An output in force, with its grant (R437, R58). -/
def uhfApplyPower (p : Nat) (s : State) : State :=
  setUhfGrant (uhfDraw s p) (s.onUhf fun u => { u with power := p, nextPower := none })

/-- A frame boundary on UHF (R439, R441, R442 action 2, R462, R569). A waiting output of 0 is a fall;
a waiting channel starts the change of R431. -/
def uhfBoundary (s : State) : State :=
  let s1 := uhfTakeValues s
  let s2 :=
    match s1.uhf.nextPower with
    | some 0 => uhfFall .off s1
    | some p => uhfApplyPower p s1
    | none => s1
  if s2.uhf.nextChannel.isSome && uhfLit s2 then uhfFall .hop s2 else s2

/-! ## Grants that no longer fit (R63) -/

/-- The draw of a chain once what waits for a frame boundary or for the end of a fall has happened. -/
def hfNext (s : State) : Nat :=
  if s.hf.falling.isSome then 0
  else match s.hf.nextStep with
    | some k => hfDraw s k
    | none => s.pwr.hfGrant

def uhfNext (s : State) : Nat :=
  if s.uhf.falling.isSome then 0
  else match s.uhf.nextPower with
    | some p => uhfDraw s p
    | none => s.pwr.uhfGrant

/-- The output that a rise aims at. -/
def risePower (s : State) : Nat :=
  match s.cal.holding with
  | some _ => s.cal.holdOut
  | none => cfg s 0x300

/-- A command that waits for its chain's output, of which nothing is lit yet. -/
def lights (c : Chain) (e : Exec) : Bool :=
  match c, e.phase with
  | .hf, .sense _ => true
  | .uhf, .carrierRise | .uhf, .settle | .uhf, .channel | .uhf, .runRise _ _ | .uhf, .calHold _ => true
  | _, _ => false

/-- Such a command waits on its lane, suspended or not. -/
def lightsNow (c : Chain) (s : State) : Bool := (laneSt s (chainLane c)).all.any (lights c)

/-- The field of a chain's output. -/
def powerField : Chain → Nat
  | .hf => 0x200
  | .uhf => 0x300

/-- Reason 5 joins the clamp entry that a packet has for the output, or is its first (R271, R273). -/
def joinClamp (id : Nat) (want applied : Int) (cs : List Clamp) : List Clamp :=
  if cs.any fun c => c.field == id then
    cs.map fun c => if c.field = id then { c with reasons := c.reasons ||| 16, applied := applied } else c
  else cs ++ [⟨id, 5, 16, want, applied⟩]

/-- A change of the packets that wait for a chain's output. -/
def onLights (c : Chain) (f : Exec → Exec) (s : State) : State :=
  let g := fun (e : Exec) => if lights c e then f e else e
  onLane (chainLane c) (fun x => { x with exec := x.exec.map g, susp := x.susp.map g }) s

/-- The UHF output does not fit what is asked for: a clamp entry with reason 5 in the reply of the command that waits
for the carrier, else a clamp without a packet (R56, R57, R274). -/
def riseClamp (want applied : Nat) (s : State) : State :=
  if lightsNow .uhf s then onLights .uhf (fun e => { e with clamps := joinClamp 0x300 want applied e.clamps }) s
  else clampEvent 0x300 s

/-- What an output's field held before the packet that waits for it, unless it has changed since. -/
def priorOf (c : Chain) (s : State) : Int :=
  let v := cfgI s (powerField c)
  match ((laneSt s (chainLane c)).all.find? (lights c)).bind (·.prior) with
  | some (old, new) => if new = v then old else v
  | none => v

/-- Nothing fits an output that was to be lit: its packet ends with 0x42 at its next yield point, its field is as
before, and the reply carries reason 5 with that value (R57). -/
def lightFails (c : Chain) (want : Nat) (s : State) : State :=
  let v := priorOf c s
  if lightsNow c s then
    setField (powerField c) v (onLights c (fun e =>
      { e with clamps := joinClamp (powerField c) want v e.clamps, stop := if e.stop = none then some 0x42 else e.stop }) s)
  else s

/-- The HF output that fits comes into force at the next boundary, at once outside a frame; a field still to be lit
gives up what it holds. -/
def lowerHf (k : Nat) (s : State) : State :=
  if hfEmits s then
    let s1 := s.onHf fun h => { h with nextStep := some k }
    if hfInFrame s1 then s1 else hfBoundary s1
  else if k = 0 then lightFails .hf (cfg s 0x200) (setHfGrant 0 (s.onHf fun h => { h with nextStep := none }))
  else setHfGrant (hfDraw s k) (s.onHf fun h => { h with nextStep := some k })

/-- HF is brought down to the highest step that fits what UHF keeps. A reduction under way is not made again. -/
def reduceHf (s : State) : State :=
  let room := chainBudget s - uhfNext s
  if hfNext s ≤ room then s
  else
    let k := hfFit s room (s.hf.nextStep.getD s.hf.step)
    lowerHf k (clampEvent 0x200 (if k = 0 then s else setField 0x200 (31250 * k : Nat) s))

def lowerUhf (p : Nat) (s : State) : State :=
  if uhfEmits s then
    let s1 := s.onUhf fun u => { u with nextPower := some p }
    if uhfInFrame s1 then s1 else uhfBoundary s1
  else if p = 0 then
    lightFails .uhf (risePower s) (giveUpRise s)
  else setUhfGrant (uhfDraw s p) s

/-- The UHF output aimed at. -/
def uhfAim (s : State) : Nat :=
  s.uhf.nextPower.getD (if uhfEmits s then s.uhf.power else risePower s)

def reduceUhf (s : State) : State :=
  let room := chainBudget s - max (cfg s 0x102) (hfNext s)
  if uhfNext s ≤ room then s
  else
    let p := uhfFit s room (uhfAim s)
    lowerUhf p (clampEvent 0x300 (if p = 0 ∨ s.cal.holding.isSome = true then s else setField 0x300 p s))

/-- R63: the chain granted later is reduced first, then UHF where R54 no longer holds. -/
def refit (s : State) : State :=
  if hfNext s + uhfNext s ≤ chainBudget s then reduceUhf s
  else match s.pwr.later with
    | some .hf => reduceUhf (reduceHf s)
    | _ => reduceHf (reduceUhf s)

/-- UHF outputs asked for in the evaluation cycle in which HF takes its grant come after it: they are clamped to what
HF leaves (R13, R56, R57). -/
def uhfYields (s : State) : State :=
  if s.pwr.uhfGrant ≤ max s.pwr.uhfWas (uhfRoom s) then s
  else
    let p := uhfFit s (uhfRoom s) (uhfAim s)
    if p = 0 then lightFails .uhf (uhfAim s) (giveUpRise (s.onUhf fun u => { u with rising := false, visitFrom := none }))
    else
      let s1 := riseClamp (uhfAim s) p (if s.cal.holding.isSome then s else setField 0x300 p s)
      if s.uhf.nextPower.isSome then
        setUhfGrant (max (uhfDraw s p) s.pwr.uhfWas) (s1.onUhf fun u => { u with nextPower := some p })
      else if uhfEmits s then uhfApplyPower p s1
      else setUhfGrant (uhfDraw s p) s1

/-! ## Charter limits of the chains (R517–R519) -/

/-- The charter in force, when transmission is not stopped (R514, R526). -/
def charter (s : State) : Option Charter := if s.chr.stopped then none else s.chr.inForce

/-- L of R518. -/
def uhfLimit (c : Charter) : Int :=
  500 + ((min (c.maxEirp - c.antGain + c.cableLoss) 3000 - 500) / 25) * 25

/-- Lighting the field is allowed (R514, R517). -/
def hfAllowed (s : State) : Bool :=
  match charter s with
  | some c => c.hfMax != 0
  | none => false

/-- Lighting the carrier is allowed (R514, R519). -/
def uhfAllowed (s : State) : Bool :=
  match charter s with
  | some c => c.uhfEnable && decide (500 ≤ uhfLimit c)
  | none => false

end Sys2Proof.Machine
end

