-- ==== Sys2Proof/Machine/LeaseOps.lean ====
section
/-! DEFINITION. What happens to a chain's lease when it leaves its holder, shared by every command
that takes a lease away (R242–R255). -/

namespace Sys2Proof.Machine

open Sys2Proof

/-- Users of a chain end when its lease leaves: card emulation, peer mode, an LPCD run (R404, R651),
and on UHF the Selects kept for the lease (R619). -/
def chainUsersOff (c : Chain) (s : State) : State :=
  match c with
  | .hf =>
    abandonRetune ((peerLeave (emuOff 3 (cutCapture .hf s))).onHf fun h =>
      { h with cards := [], lpcd := { h.lpcd with run := false, hits := 0 } })
  | .uhf => (cutCapture .uhf s).onUhf fun u => { u with selects := [] }

/-- The earliest moment of the next grant (R242, R243): 20 µs after the guard from the most recent HF
fall, or after the UHF fall, or after now. -/
def grantDue (c : Chain) (s : State) : Nat :=
  match c with
  | .hf =>
    if s.hf.fallEnd = 0 then s.time + 20
    else max (s.time + 20) (s.hf.fallEnd + cfg s 0x802 + 20)
  | .uhf => if uhfEmits s then s.time + 50 else s.time + 20

/-- The handover of R242 and R243: the output falls, and the chain waits for its grant. -/
def startHandover (c : Chain) (afterReset : Bool) (s : State) : State :=
  let s1 := chainUsersOff c s
  let due0 := grantDue c s1
  let s2 :=
    match c with
    | .hf => hfFall 1 s1
    | .uhf => uhfFall .handover s1
  let due := match c with
    | .hf => grantDue .hf s2
    | .uhf => due0
  onLease c (fun l =>
    { l with holder := none, handover := true, dueAt := due, afterReset := afterReset
             live := false, revoke := none }) s2

/-- Revocation (R245): source 25 or 56, then the handover. -/
def revokeLease (c : Chain) (reason : Nat) (s : State) : State :=
  match (leaseOf s c).holder with
  | none => s
  | some h =>
    startHandover c (reason == 3)
      (raise (match c with | .hf => 25 | .uhf => 56) (h + 16 * reason) s)

/-- Whether the holder's packet is executing on the chain's lane, suspended packets included. -/
def holderExecuting (c : Chain) (s : State) : Bool :=
  match (leaseOf s c).holder with
  | none => false
  | some h => (laneSt s (chainLane c)).all.any fun e => e.pkt.tenant == h

/-- The house-lane packet PREEMPT_LEASE that waits for this revocation is answered (R259). -/
def preemptDone (c : Chain) (s : State) : State :=
  match s.houseLane.exec with
  | some e =>
    if e.pkt.opcode = 0x0105 ∧ e.phase = .leaseEnd ∧ fieldOf e.pkt.params 0 1 = chainIndex c ∧ (leaseOf s c).revoke = none then
      replyExec e 0 [] none (s.onHouseLane fun l => { l with exec := none })
    else s
  | none => s

/-- At the end of the holder's packet, a waiting revocation takes place: for the maximum hold only
while a tenant still waits (R246), for a preemption in any case (R251), for a lost permission (R233). -/
def leaseAtPacketEnd (c : Chain) (s : State) : State :=
  let l := leaseOf s c
  match l.revoke with
  | none => s
  | some r =>
    if holderExecuting c s then s
    else if r = 1 ∧ l.queue = [] then onLease c (fun l => { l with revoke := none }) s
    else preemptDone c (revokeLease c r s)

/-- A packet's deadline has passed (R285, R288). A RESET_TENANT of the caller itself runs to its end (R238). -/
def expired (s : State) (p : Packet) : Bool :=
  p.deadline != 0 && decide (p.fetched + p.deadline ≤ s.time) && !(p.opcode == 0x0102 && (tenant s p.tenant).resetting)

/-- A queued packet's deadline has passed; the packets of a tenant that resets are discarded as R235 and R233 say. -/
def lateInQueue (s : State) (p : Packet) : Bool := expired s p && !(tenant s p.tenant).resetting

/-- The status that a packet is to stop with at its next yield point: one it has been given, or that of its deadline
(R286). -/
def stopDue (s : State) (e : Exec) : Option Nat :=
  match e.stop with
  | some st => some st
  | none => if expired s e.pkt then some 0x15 else none

/-- Phases that end at a frame boundary, which is a yield point (R282). -/
def endsAtFrame : Phase → Bool
  | .poll _ | .activate _ | .raw _ | .iso _ | .deselect _ | .inventory _ | .access _ | .select _ | .peerXchg | .peerSwap
  | .emuRespond => true
  | _ => false

/-- The status that a packet ends with: one past its deadline, or on a fenced unit, when its last frame ends stops at
that boundary (R286, R748). -/
def endStatus (s : State) (e : Exec) (status : Nat) : Nat :=
  if endsAtFrame e.phase then (stopDue s e).getD status else status

/-- The executing packet of a lane is answered and leaves it; one that is suspended keeps its end until it goes on
(R281; log 188). -/
def finish (l : LaneId) (status : Nat) (body : List Byte) (own : Option Nat) (s : State) : State :=
  match execOf s l with
  | none => s
  | some e =>
    let st := endStatus s e status
    if e.parked then onExec l (fun e => { e with phase := .done st, partialBody := body }) s
    else
      let s1 := replyExec e st body own (onLane l (fun x => { x with exec := none }) s)
      leaseAtPacketEnd .uhf (leaseAtPacketEnd .hf s1)

/-- A suspended packet takes the lane's place for a moment, and the lane's own packet stands with the suspended
ones. -/
def parkIn (e : Exec) (x : Lane) : Lane :=
  { x with
    exec := some { e with parked := true }
    susp := (x.susp.filter fun f => f.pkt.id != e.pkt.id) ++ x.exec.toList }

/-- The way back: the packet `cur` has the lane again. -/
def parkOut (cur : Option Exec) (x : Lane) : Lane :=
  let held := x.exec.toList.map fun f => { f with parked := false }
  match cur with
  | none => { x with exec := none, susp := x.susp ++ held }
  | some c =>
    { x with
      exec := x.susp.find? fun f => f.pkt.id == c.pkt.id
      susp := (x.susp.filter fun f => f.pkt.id != c.pkt.id) ++ held }

/-- What an event does for the packet of a lane that waits for it. The chains, the interfaces and their waits go on
through a suspension (R281, R607, R821), so a suspended packet takes the event too. -/
def withWaiting (l : LaneId) (who : Exec → Bool) (f : State → State) (s : State) : State :=
  if (execOf s l).any who then f s
  else match (laneSt s l).susp.find? who with
    | none => f s
    | some e =>
      let cur := execOf s l
      onLane l (parkOut cur) (f (onLane l (parkIn e) s))

/-- Phases of HF packets that the chain may end during a suspension. -/
def hfWaiter (e : Exec) : Bool :=
  match e.phase with
  | .emuRespond | .peerStart | .peerXchg | .peerSwap => true
  | _ => false

/-- Phases of UHF packets that wait for the carrier or a hold. -/
def uhfWaiter (e : Exec) : Bool :=
  match e.phase with
  | .carrierRise | .settle | .channel | .runRise _ _ | .calHold _ => true
  | _ => false

/-- The packet that uses SAM interface n. -/
def samWaiter (n : Nat) (e : Exec) : Bool :=
  match e.phase with
  | .samPower op => op.n == n
  | .samXchg op => op.n == n
  | _ => false

/-- The card handling of R589, and an oscillator run. -/
def houseWaiter (e : Exec) : Bool :=
  match e.phase with
  | .deselect _ | .calOsc => true
  | _ => false

/-- A packet leaves its lane without a reply of its own lane: it waits elsewhere. -/
def leaveLane (l : LaneId) (s : State) : State := onLane l (fun x => { x with exec := none }) s

end Sys2Proof.Machine
end

