-- ==== Sys2Proof/Machine/Fence.lean ====
section
/-! DEFINITION. Fence entry and what each packet needs (R26, R743–R752). -/

namespace Sys2Proof.Machine

open Sys2Proof

/-- The frame that deselects a record, none where none is sent (R589, R610). -/
def deselectFrame (c : Card) (passing : Bool) : Option HfFrame :=
  if c.state = 3 ∨ c.state = 4 then some .sDeselect
  else if c.state = 2 then some .hlta
  else if c.tech = 2 ∧ passing = false then some (.stayQuiet c.uid)
  else none

/-- A packet that would send a reader frame on HF: with the field up, or one that lights it (R490, R585). A passive
target of peer mode answers by load modulation, which no mask check covers (R484, R661). -/
def sendsHfFrame (s : State) (p : Packet) : Bool :=
  let b := fun i => fieldOf p.params i 1
  match p.opcode with
  | 0x0301 | 0x0302 | 0x0303 | 0x0304 | 0x0308 => hfUp s
  | 0x0305 =>
    b 1 == 0 && s.hf.cards.any fun c => (b 0 == 0xFF || b 0 == c.handle) && (deselectFrame c false).isSome
  | 0x0510 => b 0 != 1 || b 1 == 1
  | 0x0511 | 0x0512 => s.peer.any fun r => !r.target || r.activeMode
  | 0x0513 => s.peer.any fun r => !r.target
  | _ => false

/-- A packet that would raise the UHF carrier: one that finds it off or falling, or a change of channel that lets it
fall and rise again (R431, R484, R574). -/
def raisesCarrier (s : State) (p : Packet) : Bool :=
  let b := fun i => fieldOf p.params i 1
  (!uhfUp s && ((p.opcode == 0x0403 && b 0 == 1)
      || (p.opcode == 0x0600 && b 0 == 1 && (b 1 == 3 || (b 1 == 4 && decide (b 4 ≤ 1))))))
    || ((uhfEmits s || s.uhf.wantOn) && p.opcode == 0x0404)

/-- A LEASE_RELEASE with FIELD_KEEP that sends S(DESELECT) or HLTA before the lease passes (R490, R589). -/
def releaseSends (s : State) (p : Packet) : Bool :=
  let b := fun i => fieldOf p.params i 1
  p.opcode == 0x0201 && b 0 == 0 && bit (b 1) 0 && s.hfLease.holder == some p.tenant && s.hfLease.queue != []
    && s.hf.cards.any fun c => c.state == 2 || c.state == 3 || c.state == 4

/-- The units whose fence makes a packet return 0x13 (R747, R490, R696, R652). -/
def needsUnit (s : State) (p : Packet) (u : Nat) : Bool :=
  let b := fun i => fieldOf p.params i 1
  let fam := p.opcode / 256
  let op := p.opcode
  match u with
  | 0 => fam == 3 || fam == 5 || ((op == 0x0600 || op == 0x0A00) && b 0 == 0)
      || (op == 0x0602 && bit (b 0) 0)
  | 1 => fam == 4 || ((op == 0x0600 || op == 0x0A00) && b 0 == 1) || (op == 0x0602 && bit (b 0) 1)
  | 3 => sendsHfFrame s p || raisesCarrier s p || releaseSends s p
    || op == 0x0A01 || ((uhfEmits s || s.uhf.wantOn) && (op == 0x0400 || op == 0x0401
        || (op == 0x0402 && bit (b 5) 1 && (b 1 == 1 || s.uhf.selects.any fun c => c.slot != b 0))))
  | 4 => op ∈ [0x0700, 0x0701, 0x0400, 0x0510, 0x0512] || (op == 0x0720 && bit (b 2) 0)
      || (op == 0x0501 && s.emu.owner == p.tenant && s.emu.profile.any fun f => f.uidMode == 3)
  | 5 => op ∈ [0x0720, 0x0721] || (op == 0x0710 && b 6 == 1)
  | 6 => op ∈ [0x0710, 0x0711, 0x0712, 0x0713, 0x0720, 0x0721]
  | 8 => op ∈ [0x0800, 0x0801, 0x0802] && b 0 == 0
  | 9 => op ∈ [0x0800, 0x0801, 0x0802] && b 0 == 1
  | 10 => op == 0x0810
  | _ => false

/-- A packet needs a unit that is fenced (R26, R749). -/
def needsFenced (s : State) (p : Packet) : Bool :=
  (List.range 14).any fun u => fenced s u && needsUnit s p u

/-- The executing packets on the unit end with 0x13 at their next yield point (R748 step 4). -/
def stopOnUnit (u status : Nat) (s : State) : State :=
  let mark := fun (e : Exec) => if needsUnit s e.pkt u ∧ e.stop = none then { e with stop := some status } else e
  let f := fun (l : Lane) => { l with exec := l.exec.map mark, susp := l.susp.map mark }
  ((s.onHfLane f).onUhfLane f).onHouseLane f

/-- A SAM interface. -/
def samSt (s : State) (n : Nat) : Sam := if n = 0 then s.sam0 else s.sam1

def onSam (n : Nat) (f : Sam → Sam) (s : State) : State := if n = 0 then s.onSam0 f else s.onSam1 f

/-- An interface is deactivated; its lines follow one another down (R815). -/
def samDown (n : Nat) (s : State) : State :=
  onSam n (fun m =>
    { m with
      stage := .off, cls := 0, atr := [], proto := 0, fi := 372, di := 1, crc := false, limitAt := none
      waitAt := none, offAt := s.time, upAt := none
      downAt := match m.upAt with
        | some t => some (t, s.time)
        | none => m.downAt }) s

/-- The part deactivates a powered interface by itself; source 98 or 99 with KIND 4 (R810, R833). -/
def samOff (n : Nat) (s : State) : State :=
  match (samSt s n).stage with
  | .off => s
  | .offWait => samDown n s
  | _ => raise (98 + n) (0xFF + 4 * 2 ^ 8) (samDown n s)

/-- Forced-safe state of a unit (R747). -/
def makeSafe (u : Nat) (s : State) : State :=
  match u with
  | 0 =>
    let s1 := hfDriverCut (hfFall 3 (peerOff (emuOff 3 (cutCapture .hf s))))
    s1.onHf fun h =>
      { h with
        radio := .sleep, pll := .off, tx := none, held := none, wait := none
        lpcd := { h.lpcd with run := false, hits := 0 } }
  | 1 =>
    let s1 := uhfFall .fence (cutCapture .uhf s)
    s1.onUhf fun c => { c with radio := .sleep, synth := .off }
  | 2 => towStop .uhf (towStop .hf s)
  | 3 => s.onSpec fun m => { m with queue := [] }
  | 4 => s.onRng fun r => { r with jitterOn := false, noiseOn := false }
  | 8 => samOff 0 s
  | 9 => samOff 1 s
  | 10 => s.onGpio fun g => { g with dir := 0 }
  | 11 => refit s
  | 12 => s.onPortA fun p => { p with stall := none, burst := (cutTx p).map fun o => { o with reset := 0 }, rdata := [] }
  | 13 => s.onPortB fun p => { p with burst := (cutTx p).map fun o => { o with reset := 0 }, rdata := [] }
  | _ => s

/-- Payload of sources 5 and 6 (R750). -/
def fencePayload (u cause detail : Nat) : Nat := u + 16 * cause + 2 ^ 12 * detail

/-- The FENCE_MAP bit, the cause in the map and in AON (R748 step 2, R754). -/
def markFence (u cause detail : Nat) (s : State) : State :=
  (s.onFence fun f =>
    { f with map := f.map ||| (1#14 <<< u), causes := modAt f.causes u fun _ => cause
             details := modAt f.details u fun _ => detail }).onAon
    fun a => { a with fences := modAt a.fences u fun _ => cause, details := modAt a.details u fun _ => detail }

/-- Source 5 of a clock loss follows its source 7 out of the domain of the clock monitor (R105, R114; log 10). -/
def fenceProducer (cause : Nat) : Producer := if cause = 2 then .lpd else .core

/-- A reading outside the limits of R744. -/
def implausible (t : Int) : Bool := decide (t < -55) || decide (175 < t)


/-- No new reading for 10 ms (R744). -/
def readingLate (s : State) : Bool := decide (s.therm.at_ + 10000 ≤ s.time)

/-- The unit under test, if an UNFENCE runs one. -/
def underTest (s : State) : Option Nat :=
  match (execOf s .house).map (·.phase) with
  | some (Phase.testing op) => op.rest.head?
  | _ => none

/-- A fence decision for the unit that UNFENCE is testing makes its self-test fail (R753). -/
def testHit (u : Nat) (s : State) : State :=
  if underTest s = some u then
    onExec .house (fun e =>
      { e with phase := match e.phase with
          | .testing op => .testing { op with hit := true }
          | ph => ph }) s
  else s

/-- Fence entry (R748): safe state, FENCE_MAP, source 5 except for the interrupt controller (R354),
executing packets marked, a log record. A further cause of a fenced unit adds a record (R751), and spoils a self-test
of it that is under way (R753). -/
def fenceUnit (u cause detail : Nat) (s : State) : State :=
  let pay := fencePayload u cause detail
  if fenced s u then logRecord 1 0xFF 0xFF 0 0 (testHit u s)
  else
    let s1 := ctrAdd 6 1 (makeSafe u (markFence u cause detail s))
    let s2 := if u = 7 then s1 else raiseAs (fenceProducer cause) 5 pay s1
    logRecord 1 (if u = 7 then 0xFF else 5) 0xFF (if u = 7 then 0 else pay) 0 (stopOnUnit u 0x13 s2)

/-- Which (unit, cause) pairs R743 knows. -/
def fenceCause (u cause : Nat) : Bool :=
  match cause with
  | 1 | 12 => u < 14
  | 2 => u ∈ [0, 1, 4, 5, 6]
  | 3 | 4 | 5 | 6 => u < 2
  | 7 => u == 1
  | 8 => u == 4
  | 9 => u == 5
  | 10 => u == 6
  | 11 => u == 2
  | 13 => u == 11
  | 14 => u == 8 || u == 9
  | 15 => u == 12 || u == 13
  | 16 => u ∈ [0, 1, 8, 9, 10]
  | _ => false

/-- The last working host port is never fenced (R27, R746); in recovery service that is port B (R32). -/
def fenceable (s : State) (u : Nat) : Bool :=
  if u = 12 then !fenced s 13 else if u = 13 then !fenced s 12 && s.pwr.state != .recovery else u < 14

end Sys2Proof.Machine
end

