-- ==== Sys2Proof/Machine/RngOps.lean ====
section
/-! DEFINITION. The expander: generate calls, reseeds, the class 1 reserve and the port buffer
(R691–R698, R702). -/

namespace Sys2Proof.Machine

open Sys2Proof

/-- `n` 16-bit words from generated bytes, the first byte of each the low one (log 4). -/
def rngHalves (n : Nat) (bs : List Byte) : List Half := (List.range n).map fun i => BitVec.ofNat 16 (fieldOf bs (2 * i) 2)

/-- Bits in the pool. -/
def poolBits (s : State) : Nat := 8 * s.rng.pool.length

/-- The shortest raw input of a block in µs: 4096 raw bits of the jitter source at its highest rate, 2048 of the noise
source at its rate (R680, R681; log 200). -/
def blockTime (noise : Bool) : Nat := if noise then 512 else 129

def blockNext (s : State) (noise : Bool) : Nat := if noise then s.rng.noiseNext else s.rng.jitterNext

/-- The next block of a source ends no sooner than a block time and `delay` µs from now. -/
def nextBlock (noise : Bool) (delay : Nat) (s : State) : State :=
  let t := s.time + delay + blockTime noise
  s.onRng fun r => if noise then { r with noiseNext := t } else { r with jitterNext := t }

/-- Both sources stopped. -/
def rngStopped (s : State) : Bool := !s.rng.jitterOn && !s.rng.noiseOn

/-- The expander instantiates from 384 pool bits, with the serial number as personalisation string (R691). -/
def rngInstantiate (s : State) : State :=
  let k := drbgInstantiate (s.rng.pool.take 48) (le 8 s.nv.serial)
  s.onRng fun r =>
    { r with pool := r.pool.drop 48, instantiated := true, seeded := true, calls := 0, key := k.1, v := k.2 }

/-- A reseed takes 256 pool bits and ends a stretch and a wait (R691, R694, R695). -/
def rngReseed (s : State) : State :=
  let s1 := s.onRng fun r =>
    let k := drbgReseed (r.pool.take 32) r.key r.v
    { r with
      pool := r.pool.drop 32, calls := 0, seeded := true, stretched := false, waiting := false, key := k.1, v := k.2 }
  if s.rng.waiting then raise 83 0 s1 else s1

/-- The call count at which every generate call waits (R695). -/
def rngLimit (s : State) : Nat := 2 ^ cfg s 0x601

/-- A generate call has to reseed first: asked for (R693), after a wake (R690), or at the limit. -/
def rngMust (s : State) (pr : Bool) : Bool := pr || !s.rng.seeded || decide (rngLimit s ≤ s.rng.calls)

/-- A generate call can be served now. -/
def rngReady (s : State) (pr : Bool) : Bool :=
  !fenced s 4 && s.rng.instantiated && (!rngMust s pr || decide (256 ≤ poolBits s))

/-- The reseed before a generate call, or the stretch in its place (R692, R694). -/
def rngBefore (pr : Bool) (s : State) : State :=
  if rngMust s pr then rngReseed s
  else if s.rng.calls < 2 ^ 12 then s
  else if 256 ≤ poolBits s then rngReseed s
  else if s.rng.stretched then s
  else raise 82 (cfg s 0x601) (s.onRng fun r => { r with stretched := true })

/-- One generate call of `n` 16-bit words; none when it has to wait. -/
def rngGenerate (pr : Bool) (n : Nat) (s : State) : Option (List Half × State) :=
  if rngReady s pr then
    let s1 := rngBefore pr s
    let g := drbgGenerate (2 * n) s1.rng.key s1.rng.v
    some (rngHalves n g.1,
      s1.onRng fun r => { r with calls := min (2 ^ 20) (r.calls + 1), key := g.2.1, v := g.2.2 })
  else none

/-- A consumer begins to wait; source 83 when the call count is what it waits for (R695). -/
def rngWait (s : State) : State :=
  if s.rng.instantiated && decide (rngLimit s ≤ s.rng.calls) && !s.rng.waiting && !fenced s 4 then
    raise 83 1 (s.onRng fun r => { r with waiting := true })
  else s

/-- Refills the reserve of class 1; at the limit the call waits (R695, R698). -/
def rngRefillReserve (s : State) : State :=
  let n := 64 - s.rng.reserve.length
  if n = 0 then s
  else
    match rngGenerate false n s with
    | none => rngWait s
    | some (ws, s1) => s1.onRng fun r => { r with reserve := r.reserve ++ ws }

/-- A class 1 draw of `n` 16-bit words from the reserve, which is refilled after the use (R698). -/
def rngDraw1 (n : Nat) (s : State) : Option (List Half × State) :=
  let s1 := if s.rng.reserve.length < n then rngRefillReserve s else s
  if s1.rng.reserve.length < n || fenced s1 4 then none
  else some (s1.rng.reserve.take n, rngRefillReserve (s1.onRng fun r => { r with reserve := r.reserve.drop n }))

/-- Pairs of 16-bit words as 32-bit words. -/
def toWords : List Half → List Word
  | a :: b :: rest => BitVec.ofNat 32 (a.toNat + 2 ^ 16 * b.toNat) :: toWords rest
  | _ => []

/-- Refills an empty port buffer with 16 words of one generate call; at the limit the call waits (R695, R702). -/
def rngRefillPort (s : State) : State :=
  if s.rng.buffer = [] then
    match rngGenerate false 32 s with
    | none => rngWait s
    | some (ws, s1) => s1.onRng fun r => { r with buffer := toWords ws }
  else s

/-- The next word of the port buffer (R702). -/
def rngTakeWord (s : State) : Option (Word × State) :=
  let s1 := rngRefillPort s
  if fenced s1 4 then none
  else match s1.rng.buffer with
    | [] => none
    | w :: ws => some (w, rngRefillPort (s1.onRng fun r => { r with buffer := ws }))

/-- The bytes of 16-bit words. -/
def halfBytes (ws : List Half) : List Byte := (ws.map fun w => le 2 w.toNat).flatten

/-- RNG_STAT as a port reads it (R701); the read clears the port's TIMEOUT. -/
def rngStat (p : Port) (s : State) : Nat × State :=
  (b2n (portSt s p).rngTimeout + 2 * b2n (fenced s 4) + 4 * b2n s.rng.waiting + 8 * b2n s.rng.stretched,
    onPort p (fun q => { q with rngTimeout := false }) s)

/-- RNG_POOL (R699); before start-up step 9 no source has stopped. -/
def rngPool (s : State) : Nat :=
  min 4096 (poolBits s) + 2 ^ 16 * b2n (s.rng.started && !s.rng.jitterOn)
    + 2 ^ 17 * b2n (s.rng.started && !s.rng.noiseOn)

end Sys2Proof.Machine
end

