-- ==== Sys2Proof/Machine/TenantOps.lean ====
section
/-! DEFINITION. Packets of a tenant wherever they are, and the discards of a tenant reset or of a
disabled tenant (R233, R235–R238). -/

namespace Sys2Proof.Machine

open Sys2Proof

/-! ## Packets by place -/

/-- A packet as it stands in a command slot (R264, R265). -/
def packetOfBytes (n id now : Nat) (bs : List Byte) : Packet where
  id := id
  tenant := n
  opcode := fieldOf bs 0 2
  ordered := bit (fieldOf bs 2 1) 0
  notify := bit (fieldOf bs 2 1) 1
  seq := fieldOf bs 4 2
  cookie := BitVec.ofNat 32 (fieldOf bs 12 4)
  deadline := fieldOf bs 8 4
  params := (bs.drop 16).take (fieldOf bs 6 2)
  fetched := now

/-- Basin address of the next command slot of a tenant, and its size. -/
def nextSlot (s : State) (n : Nat) : Nat × Nat :=
  let t := tenant s n
  let size := slotSize t.place.cmdBig
  (t.place.baseAddr + t.place.cmdOff + (t.cmdCons % t.place.cmdN) * size, size)

def readSlot (s : State) (n : Nat) : List Byte := basinRead s (nextSlot s n).1 (nextSlot s n).2

def waitersOf (l : Lease) : List Exec := l.queue.filterMap (·.exec) ++ (l.granting.bind (·.exec)).toList

/-- Packets fetched and not answered, by place: queue, lanes, lease queues, a waiting LOCK_CYCLE. -/
def unanswered (s : State) : List Packet :=
  s.queue ++ (allExecs s ++ waitersOf s.hfLease ++ waitersOf s.uhfLease ++ s.lock.waiting).map (·.pkt)

/-- Reply slots of a tenant that are neither used nor reserved (R276). -/
def freeSlots (s : State) (n : Nat) : Nat :=
  let t := tenant s n
  t.place.rplN - ringUsed t.rplProd t.rplCons t.place.rplN
    - ((unanswered s).filter fun p => p.tenant == n).length

/-- Packets between CMD_CONS and CMD_PROD. -/
def inRing (s : State) (n : Nat) : Nat :=
  ringUsed (tenant s n).cmdProd (tenant s n).cmdCons (tenant s n).place.cmdN

def advanceCons (n : Nat) (s : State) : State :=
  onTenant n (fun t => { t with cmdCons := (t.cmdCons + 1) % (2 * t.place.cmdN) }) s

/-! ## Discards -/

/-- Answers the tenant's fetched packets that wait for admission, in order. -/
def discardQueued (n status : Nat) (s : State) : State :=
  (s.queue.filter fun p => p.tenant == n).foldl (fun s p => answer p status s)
    (s.onQueue fun q => q.filter fun p => p.tenant != n)

/-- Answers packets still in the command ring while reply slots are free (R235 step 4). -/
def discardRing (n status : Nat) : Nat → State → State
  | 0, s => s
  | k + 1, s =>
    if inRing s n = 0 ∨ freeSlots s n = 0 then s
    else
      discardRing n status k
        (answer (packetOfBytes n 0 s.time (readSlot s n)) status (advanceCons n s))

/-- Step 5: nothing is left to answer and no withdrawal waits, so RESETTING returns to 0, and the placement is again
that of the active table (R233). -/
def resetDone (n : Nat) (s : State) : State :=
  if inRing s n = 0 ∧ (n, none) ∉ s.withdrawn ∧ (unanswered s).all (fun p => p.tenant != n || p.opcode == 0x0102) then
    onTenant n (fun t => { t with resetting := false, dropStatus := 0, place := placeOf s.pt.active n }) s
  else s

/-- The Keeper's own RESET_TENANT is answered after the last 0x50 reply of its ring (R238; log 187). -/
def resetAgain (s : State) : State :=
  match s.houseLane.exec with
  | some e => if e.phase = .resetWait ∧ inRing s 0 = 0 then finish .house 0 e.partialBody none s else s
  | none => s

/-- Steps 4 and 5 as far as reply slots allow. -/
def drainTenant (n : Nat) (s : State) : State :=
  if (tenant s n).resetting then
    let st := (tenant s n).dropStatus
    resetDone n (discardRing n st (inRing s n) (discardQueued n st s))
  else s

/-- The NV job in progress goes on without the packet that asked for it; its jobs not begun are dropped (R235). -/
def detachJobs (l : LaneId) (s : State) : State :=
  s.onNv fun n =>
    { n with
      job := n.job.map fun j => if j.lane = some l then { j with lane := none } else j
      jobs := n.jobs.filter fun j => j.lane != some l }

/-- The jobs of a suspended packet that is aborted: one that has begun goes on without it, the others are dropped
(R235). -/
def detachHeld (id : Nat) (n : Nv) : Nv :=
  let mine := ((n.held.filter fun h => h.1 == id && h.2.begun).map (·.2)).map fun j => { j with lane := none }
  let n1 := { n with held := n.held.filter fun h => h.1 != id }
  match n1.job, mine with
  | none, j :: rest => { n1 with job := some j, jobs := rest ++ n1.jobs }
  | _, _ => { n1 with jobs := mine ++ n1.jobs }

/-- An HF_FIELD that stops while it senses gives back its grant (R361, R370, R375). -/
def stopSense (s : State) : State := hfIdle (setHfGrant 0 (s.onHf fun h => { h with nextStep := none }))

/-- The frame that an aborted packet still held is not sent. -/
def abortHeld (l : LaneId) (e : Exec) (s : State) : State :=
  match l, e.phase with
  | .uhf, _ => s.onUhf fun u => { u with held := none }
  | .hf, _ | .house, .deselect _ => s.onHf fun h => { h with held := none }
  | .house, _ => s

/-- What an aborted packet leaves behind: the run, search or staged change that it drove, the frame that it held, and
the transmission and key store that its charter command had stopped. -/
def abortEffect (l : LaneId) (e : Exec) (s : State) : State :=
  let s1 := abortHeld l e (s.onNv (detachHeld e.pkt.id))
  let s2 := if e.pkt.opcode = 0x0107 ∨ e.pkt.opcode = 0x0109 then
      s1.onChr fun k => { k with stopped := false, keysDead := false }
    else s1
  match e.phase with
  | .calOsc => s2.onCal fun c => { c with osc := none }
  | .calHold _ => s2.onCal fun c => { c with holding := none }
  | .sense _ => stopSense s2
  | .specWait _ => s2.onSpec fun m => { m with queue := m.queue.filter fun q => q.2 != some l }
  | .leaseEnd =>
    if e.pkt.opcode = 0x0802 then onSam (fieldOf e.pkt.params 0 1) (fun m => { m with releaseTo := none }) s2 else s2
  | .tuneWait _ => s2.onHf fun h => { h with nextCodes := none }
  | .emuRespond => s2.onEmu fun m => { m with rest := [] }
  | _ => s2

/-- Aborts the executing packet of a lane when `who` says so, and suspended packets likewise. -/
def abortLane (l : LaneId) (who : Exec → Bool) (status : Nat) (s : State) : State :=
  let x := laneSt s l
  let gone := x.all.filter who
  let keep : Lane := { x with exec := x.exec.filter fun e => !who e, susp := x.susp.filter fun e => !who e }
  let s1 := if (x.exec.map who).getD false then detachJobs l s else s
  gone.foldl (fun s e => replyExec e status [] none (abortEffect l e s)) (onLane l (fun _ => keep) s1)

/-- A chain whose lease is FREE with its output off returns to STANDBY (R363). -/
def chainFree (c : Chain) (s : State) : State :=
  let l := leaseOf s c
  if l.holder.isSome || l.handover || l.granting.isSome then s
  else match c with
    | .hf => if hfEmits s then s else s.onHf fun h => { h with pll := .off, radio := hfIdleRadio s }
    | .uhf => if uhfEmits s then s else s.onUhf fun u => { u with synth := .off, radio := uhfIdleRadio s }

/-- The waiters that `who` picks leave the queue, or the grant under way, which then goes to the head of the queue. -/
def dropWaiters (who : Waiter → Bool) (c : Chain) (s : State) : State :=
  let q := (leaseOf s c).queue.filter fun w => !who w
  let g := (leaseOf s c).granting.filter fun w => !who w
  if (leaseOf s c).granting.isSome && g.isNone then
    chainFree c (onLease c (fun l => { l with queue := q.drop 1, granting := q.head? }) s)
  else onLease c (fun l => { l with queue := q, granting := g }) s

/-- Waiting LEASE_ACQUIREs of a tenant are withdrawn and answered; so is the grant under way to it. -/
def withdrawWaits (c : Chain) (n status : Nat) (s : State) : State :=
  let l := leaseOf s c
  let mine := (l.queue ++ l.granting.toList).filter fun w => w.tenant == n
  (mine.filterMap (·.exec)).foldl (fun s e => replyExec e status [] none s) (dropWaiters (fun w => w.tenant == n) c s)

/-- SAM leases of a tenant are released, the interfaces deactivated first (R237, R822). -/
def releaseSams (n : Nat) (s : State) : State :=
  let s1 := if s.sam0.lease = some n then (samOff 0 s).onSam0 fun m => { m with lease := none, releaseTo := none } else s
  if s1.sam1.lease = some n then (samOff 1 s1).onSam1 fun m => { m with lease := none, releaseTo := none } else s1

/-- How many packets a reset discards (R258); the RESET_TENANT `id` itself is left out (R238). -/
def discardCount (n id : Nat) (s : State) : Nat :=
  ((unanswered s).filter fun p => p.tenant == n && p.id != id).length + inRing s n

/-- The LOCK_CYCLEs of a tenant that wait for an earlier one are answered. -/
def dropLockWaits (n status : Nat) (s : State) : State :=
  (s.lock.waiting.filter fun e => e.pkt.tenant == n).foldl (fun s e => replyExec e status [] none s)
    (s.onLock fun k => { k with waiting := k.waiting.filter fun e => e.pkt.tenant != n })

/-- A tenant reset, steps 1 to 5 (R235–R238). `who` picks the tenant's packets that are aborted: all
of them but the RESET_TENANT that resets its own tenant. -/
def tenantReset (n : Nat) (who : Exec → Bool) (s : State) : State :=
  let s1 := onTenant n (fun t => { t with resetting := true, dropStatus := 0x50 }) s
  let s2 := if s1.hfLease.holder = some n then revokeLease .hf 3 s1 else s1
  let s3 := if s2.uhfLease.holder = some n then revokeLease .uhf 3 s2 else s2
  let s4 := abortLane .house who 0x50 (abortLane .uhf who 0x50 (abortLane .hf who 0x50 s3))
  let s5 := withdrawWaits .uhf n 0x50 (withdrawWaits .hf n 0x50 s4)
  drainTenant n (releaseSams n (dropLockWaits n 0x50 s5))

end Sys2Proof.Machine
end

