-- ==== Sys2Proof/Machine/Operands.lean ====
section
/-! DEFINITION. The operand forms: the parameter layout of every opcode, and the checks firmware makes
on a fetched packet (R220, R221, R264–R267, R273). -/

namespace Sys2Proof.Machine

open Sys2Proof

/-! ## Parameter fields -/

def Packet8 (p : Packet) (i : Nat) : Nat := fieldOf p.params i 1
def Packet16 (p : Packet) (i : Nat) : Nat := fieldOf p.params i 2
def Packet32 (p : Packet) (i : Nat) : Nat := fieldOf p.params i 4

/-! ## Layouts -/

/-- What an opcode's layout says of a packet: the parameter length, the reserved bytes (offset, count)
and bits (byte, mask), the pound extents that the parameters alone give (offset, length), those of
them that are read, and the length of the reply body. -/
structure Layout where
  len : Nat
  zero : List (Nat × Nat) := []
  mask : List (Nat × Nat) := []
  ext : List (Nat × Nat) := []
  reads : List (Nat × Nat) := []
  body : Nat := 0
deriving DecidableEq, Repr

/-- The first multiple of 8 at or after `n` (R307). -/
def align8 (n : Nat) : Nat := (n + 7) / 8 * 8

/-- The layouts of the system opcodes. GET_CONFIG with IN_POUND = 0 and a pound offset is refused (log 208). -/
def layoutSystem (p : Packet) : Option Layout :=
  let b := Packet8 p
  let h := Packet16 p
  let w := Packet32 p
  match p.opcode with
  | 0x0000 => some { len := 0 }
  | 0x0001 => some { len := 0, body := 32 }
  | 0x0002 => some { len := 0, body := 40 }
  | 0x0003 =>
    if bit (b 2) 0 then
      some { len := 8, zero := [(3, 1)], mask := [(2, 0xF8)], body := 4
             ext := [(w 4, h 0 * 8 + (h 0 + 2) * 12)], reads := [(w 4, h 0 * 8)] }
    else
      some { len := 8 + 8 * h 0, mask := [(2, 0xF8)], body := 4
             zero := (3, 1) :: (4, 4) :: (List.range (h 0)).map fun k => (10 + 8 * k, 2) }
  | 0x0004 =>
    if bit (b 2) 0 then
      some { len := 8, zero := [(3, 1)], mask := [(2, 0xFC)]
             ext := [(w 4, align8 (w 4 + 2 * h 0) - w 4 + 8 * h 0)], reads := [(w 4, 2 * h 0)] }
    else some { len := 8 + 2 * h 0, zero := [(3, 1), (4, 4)], mask := [(2, 0xFC)], body := 8 * h 0 }
  | 0x0006 => some { len := 8, zero := [(1, 3)] }
  | 0x0007 =>
    some { len := 12, zero := [(5, 3)], mask := [(4, 0xFE)], ext := [(w 8, 8 * h 2)], body := 4 }
  | 0x0008 => some { len := 0, body := 32 }
  | 0x0009 => some { len := 12, zero := [(6, 2)], body := 16 }
  | 0x0100 => some { len := 8, zero := [(4, 4)], ext := [(w 0, 512)], reads := [(w 0, 512)] }
  | 0x0101 => some { len := 8, zero := [(1, 3)], mask := [(0, 0xFE)], body := 8 }
  | 0x0102 => some { len := 4, zero := [(1, 3)], body := 4 }
  | 0x0103 => some { len := 4, zero := [(2, 2)], mask := [(1, 0xC0)], body := 8 }
  | 0x0104 => some { len := 8, body := 4 }
  | 0x0105 => some { len := 4, zero := [(2, 2)], mask := [(1, 0xFE)] }
  | 0x0106 => some { len := 4, ext := [(w 0, 4096)], body := 8 }
  | 0x0107 =>
    if b 0 = 0 then
      some { len := 16, zero := [(2, 2)], ext := [(w 4, 3840)], reads := [(w 4, 3840)], body := 8 }
    else some { len := 16, zero := [(2, 2)], body := 8 }
  | 0x0108 | 0x0109 => some { len := 4, zero := [(0, 4)] }
  | 0x0200 => some { len := 4, zero := [(2, 2)], mask := [(1, 0xFE)], body := 8 }
  | 0x0201 => some { len := 4, zero := [(2, 2)], mask := [(1, 0xFE)] }
  | 0x0202 => some { len := 0, body := 16 }
  | _ => none

def layoutRf (p : Packet) : Option Layout :=
  let b := Packet8 p
  let h := Packet16 p
  let w := Packet32 p
  match p.opcode with
  | 0x0300 => some { len := 8, zero := [(2, 2)], mask := [(1, 0xFE)], body := 8 }
  | 0x0301 =>
    some { len := 12, zero := [(4, 4)], mask := [(0, 0xF8), (1, 0xFC)], ext := [(w 8, 256)], body := 4 }
  | 0x0302 =>
    if bit (b 6) 0 then
      some { len := 12, zero := [(7, 1)], mask := [(6, 0xFE)], ext := [(w 8, 256)], body := 12 }
    else some { len := 12, zero := [(7, 5)], mask := [(6, 0xFE)], body := 12 }
  | 0x0303 =>
    some { len := 20, zero := [(3, 1)], mask := [(1, 0xF8)], ext := [(w 8, h 4), (w 12, h 6)]
           reads := [(w 8, h 4)], body := 12 }
  | 0x0304 =>
    some { len := 20, zero := [(1, 3)], ext := [(w 8, w 4), (w 12, w 16)], reads := [(w 8, w 4)], body := 16 }
  | 0x0305 => some { len := 4, zero := [(2, 2)], body := 4 }
  | 0x0306 => some { len := 4, zero := [(3, 1)], body := 12 }
  | 0x0307 => some { len := 8, zero := [(6, 2)], mask := [(5, 0xF8)], body := 4 }
  | 0x0308 =>
    some { len := 20, zero := [(3, 1)], mask := [(2, 0xFC)], ext := [(w 8, h 4), (w 12, h 6)]
           reads := [(w 8, h 4)], body := 12 }
  | 0x0400 =>
    some { len := 24, zero := [(7, 1), (16, 8)], mask := [(3, 0xFC)], ext := [(w 12, 80 * h 4)], body := 16 }
  | 0x0401 =>
    some { len := 16, zero := [(2, 2)], ext := [(w 4, b 0), (w 8, 16 * b 1), (w 12, 8 * b 1)]
           reads := [(w 4, b 0), (w 8, 16 * b 1)], body := 8 }
  | 0x0402 =>
    some { len := 16, mask := [(5, 0xFC)], ext := [(w 12, (h 6 + 7) / 8)], reads := [(w 12, (h 6 + 7) / 8)]
           body := 4 }
  | 0x0403 => some { len := 8, zero := [(1, 3)], body := 12 }
  | 0x0404 => some { len := 4, zero := [(2, 2)], body := 8 }
  | 0x0500 =>
    some { len := 32, zero := [(6, 2), (18, 2)], ext := [(w 20, b 5), (w 24, 4096), (w 28, 4096)]
           reads := [(w 20, b 5)] }
  | 0x0501 => some { len := 4, zero := [(0, 4)], body := 4 }
  | 0x0502 => some { len := 4, zero := [(2, 2)], body := 4 }
  | 0x0503 => some { len := 4, zero := [(0, 4)] }
  | 0x0510 =>
    some { len := 20, zero := [(6, 2), (16, 4)], mask := [(3, 0xFE)], ext := [(w 8, b 5 + 48), (w 12, 4096)]
           reads := [(w 8, b 5)], body := 16 }
  | 0x0511 => some { len := 12, zero := [(8, 4)], ext := [(w 4, w 0)], reads := [(w 4, w 0)], body := 8 }
  | 0x0512 => some { len := 4, zero := [(0, 4)], body := 8 }
  | 0x0513 => some { len := 4, zero := [(1, 3)] }
  | _ => none

def layoutOther (p : Packet) : Option Layout :=
  let b := Packet8 p
  let h := Packet16 p
  let w := Packet32 p
  match p.opcode with
  | 0x0600 =>
    some { len := 16, zero := [(2, 2), (12, 4)], mask := if b 0 = 1 ∧ b 1 = 4 then [(5, 0xFF)] else [], body := 16 }
  | 0x0601 => some { len := 4, zero := [(0, 4)], body := 8 }
  | 0x0602 => some { len := 4, zero := [(2, 2)], mask := [(0, 0xF8)] }
  | 0x0603 => some { len := 0, body := 24 }
  | 0x0604 => some { len := 4, zero := [(1, 3)], body := 40 }
  | 0x0700 => some { len := 12, zero := [(5, 3)], mask := [(4, 0xFE)], ext := [(w 8, w 0)], body := 4 }
  | 0x0701 => some { len := 4, zero := [(0, 4)], body := 4 }
  | 0x0702 => some { len := 4, zero := [(1, 3)], mask := [(0, 0xFC)], body := 4 }
  | 0x0710 =>
    let n := if b 6 = 1 then h 12 else if b 1 = 1 then 32 else 16
    some { len := 16, zero := [(14, 2)], mask := [(2, 0xF0)], ext := [(w 8, n)], reads := [(w 8, n)], body := 8 }
  | 0x0711 => some { len := 4, zero := [(1, 3)], body := 4 }
  | 0x0712 => some { len := 4, zero := [(1, 3)], body := 16 }
  | 0x0713 => some { len := 4, zero := [(1, 3)] }
  | 0x0720 =>
    let iv := if 2 ≤ b 1 then [(w 16, 16)] else []
    some { len := 24, zero := [(3, 1), (20, 4)], mask := [(2, 0xFE)], ext := (w 8, w 4) :: (w 12, w 4) :: iv
           reads := (w 8, w 4) :: (if bit (b 2) 0 then [] else iv), body := 4 }
  | 0x0721 =>
    some { len := 20, zero := [(3, 1), (16, 4)], mask := [(1, 0xFE)], ext := [(w 8, w 4), (w 12, b 2)]
           reads := (w 8, w 4) :: (if bit (b 1) 0 then [(w 12, b 2)] else []), body := 8 }
  | 0x0800 =>
    some { len := 8, mask := [(3, 0xFE)], ext := if w 4 = 0 then [] else [(w 4, 33)], body := 16 }
  | 0x0801 =>
    some { len := 16, zero := [(14, 2)], mask := [(1, 0xFE)], ext := [(w 4, h 2), (w 8, h 12)]
           reads := [(w 4, h 2)], body := 8 }
  | 0x0802 => some { len := 4, zero := [(3, 1)], mask := [(2, 0xFE)], body := 4 }
  | 0x0810 => some { len := 4, zero := [(3, 1)], mask := [(0, 0xF0), (1, 0xF0), (2, 0xF0)], body := 4 }
  | 0x0900 => some { len := 12, ext := [(w 8, w 4)], reads := [(w 8, w 4)] }
  | 0x0901 => some { len := 0, body := 12 }
  | 0x0902 => some { len := 4, zero := [(0, 4)] }
  | 0x0A00 => some { len := 16, zero := [(3, 1), (12, 4)], ext := [(w 8, 32 + (if b 0 = 0 then 2 else 4) * h 4)] }
  | 0x0A01 =>
    if bit (b 1) 0 then
      some { len := 8, zero := [(2, 2)], mask := [(1, 0xFE)], ext := [(w 4, 2048)], body := 12 }
    else some { len := 8, zero := [(2, 6)], mask := [(1, 0xFE)], body := 12 }
  | _ => none

/-- The layout of a packet's opcode; none for an undefined opcode (R298, R300). -/
def layoutOf (p : Packet) : Option Layout :=
  match p.opcode / 256 with
  | 0 | 1 | 2 => layoutSystem p
  | 3 | 4 | 5 => layoutRf p
  | _ => layoutOther p

/-! ## Permissions (R149, R220, R221, R295, R581, R735, R837) -/

/-- The permission bit of TE_CTRL that a packet's opcode needs, if any. -/
def permBit (p : Packet) : Option Nat :=
  match p.opcode / 256 with
  | 3 | 5 => some 8
  | 4 => some 9
  | 6 => some 14
  | 10 => some 15
  | 2 =>
    if p.opcode = 0x0200 then
      (if Packet8 p 0 = 0 then some 8 else if Packet8 p 0 = 1 then some 9 else none)
    else none
  | 7 => if p.opcode < 0x0710 then none else some 13
  | 8 => if p.opcode = 0x0810 then some 12 else if Packet8 p 0 = 0 then some 10 else if Packet8 p 0 = 1 then some 11 else none
  | _ => none

/-- Opcodes and flags that only the Keeper may use. -/
def needsKeeper (p : Packet) : Bool :=
  p.opcode / 256 == 1 || p.opcode / 256 == 9 || p.opcode == 0x0006 || p.opcode == 0x0701 || p.opcode == 0x0702
    || (p.opcode == 0x0003 && bit (Packet8 p 2) 1)
    || (p.opcode == 0x0604 && (Packet8 p 0 == 1 || Packet8 p 0 == 2))
    || (p.opcode == 0x0802 && bit (Packet8 p 2) 0)

/-- Whether the tenant may issue the packet under the active table. -/
def mayIssue (s : State) (p : Packet) : Bool :=
  (p.tenant == 0 || !needsKeeper p)
    && (match permBit p with
      | some b => permits s p.tenant b
      | none => true)

/-! ## Checks at fetch (R267) -/

def zerosOk (p : Packet) (l : Layout) : Bool :=
  l.zero.all (fun z => fieldOf p.params z.1 z.2 == 0)
    && l.mask.all (fun m => Packet8 p m.1 &&& m.2 == 0)

/-- Status of the first failing check, none when all pass. `owner` is the ring's owner, `hdr` the slot. -/
def fetchStatus (s : State) (owner : Nat) (hdr : List Byte) (p : Packet) : Option Nat :=
  let t := tenant s owner
  if fieldOf hdr 3 1 ≠ owner then some 0x11
  else if fieldOf hdr 2 1 / 4 ≠ 0 then some 0x11
  else if slotSize t.place.cmdBig - 16 < fieldOf hdr 6 2 then some 0x11
  else match layoutOf p with
    | none => some 0x10
    | some l =>
      if fieldOf hdr 6 2 ≠ l.len then some 0x11
      else if !mayIssue s p then some 0x12
      else if slotSize t.place.rplBig - 24 < l.body then some 0x11
      else if !zerosOk p l || !l.ext.all (fun e => inPound s owner e.1 e.2) then some 0x11
      else none

/-- Pound data that a packet reads lies in a fenced word (R770). -/
def readsFenced (s : State) (p : Packet) : Bool :=
  match layoutOf p with
  | none => false
  | some l => l.reads.any fun e => poundFenced s p.tenant e.1 e.2

/-! ## Rows of opcodes -/

/-- Runs an opcode row on the packet that its lane has just admitted: with the status it is to stop with (R286),
with 0x13 for fenced pound data (R770) or a fenced unit (R26), else `f`. Without such a packet the row does not
happen. -/
def onFresh (l : LaneId) (op : Nat) (f : Exec → State → State) (s : State) : State :=
  match freshOn s l op with
  | none => s
  | some e =>
    match stopDue s e with
    | some st => finish l st [] none s
    | none => if readsFenced s e.pkt || needsFenced s e.pkt then finish l 0x13 [] none s else f e s

/-- The executing packet waits for something; its progress. -/
def setPhase (l : LaneId) (ph : Phase) (s : State) : State := onExec l (fun e => { e with phase := ph }) s

/-- The tenant holds a chain's lease. -/
def holds (s : State) (c : Chain) (n : Nat) : Bool := (leaseOf s c).holder == some n

/-- As `onFresh` for a command that needs its chain's lease (R13). -/
def onLeased (c : Chain) (op : Nat) (f : Exec → State → State) (s : State) : State :=
  onFresh (chainLane c) op (fun e s =>
    if holds s c e.pkt.tenant then f e s else finish (chainLane c) 0x14 [] none s) s

end Sys2Proof.Machine
end

