-- ==== Sys2Proof/Machine/ConfigOps.lean ====
section
/-! DEFINITION. Checking and applying configuration values (R290–R297, R474–R476, R408, R457). -/

namespace Sys2Proof.Machine

open Sys2Proof

/-! ## Backscatter link frequency (R474, R475) -/

/-- 100 · RTcal in ns. -/
def rtcal100 (tari pct : Nat) : Nat := 6250 * 2 ^ tari * (100 + pct)

/-- DR = 64/3 fits a BLF in kHz. -/
def fits64 (rt b : Nat) : Bool := decide (33 * rt * b ≤ 64 * 10 ^ 9) && decide (64 * 10 ^ 8 ≤ 9 * b * rt)

/-- DR = 8 fits a BLF in kHz. -/
def fits8 (rt b : Nat) : Bool := decide (11 * rt * b ≤ 8 * 10 ^ 9) && decide (8 * 10 ^ 8 ≤ 3 * b * rt)

/-- A BLF in kHz for which one of the divide ratios fits. -/
def blfFits (rt b : Nat) : Bool := fits64 rt b || fits8 rt b

/-- The nearest integer kHz that fits, the lower of two equally near (log 12). -/
def blfNearest (rt b : Nat) : Nat → Nat → Nat
  | 0, _ => b
  | n + 1, d =>
    if d ≤ b ∧ blfFits rt (b - d) = true then b - d
    else if blfFits rt (b + d) then b + d
    else blfNearest rt b n (d + 1)

def blfClamp (s : State) (b : Nat) : Nat := blfNearest (rtcal100 (cfg s 0x311) (cfg s 0x312)) b 700 0

/-- The link of the fields in force: DR = 64/3 where it fits, TRcal = DR/BLF to the nearest 31.25 ns (R473, R474). -/
def linkOf (s : State) : Link :=
  let b := cfg s 0x314
  let d := fits64 (rtcal100 (cfg s 0x311) (cfg s 0x312)) b
  { dr64 := d, trcal := if d then roundDiv 2048000 (3 * b) else roundDiv 256000 b, m := cfg s 0x315
    trext := cfg s 0x316 == 1, blf := b }

/-- The tag-to-reader link rate BLF/M in bit/s. -/
def linkRate (l : Link) : Nat := 1000 * l.blf / 2 ^ l.m

/-! ## Checking one value -/

/-- What the checks of R290 make of a requested value: the value to apply, the reasons in the order they
applied, whether it is applied at all, and whether no output step fits the budget (R57). -/
structure Checked where
  value : Int
  reasons : List Nat
  apply : Bool
  noRoom : Bool
deriving DecidableEq, Repr

/-- Who may set a field (R290 step 1). -/
def maySet (s : State) (n : Nat) (f : FieldDef) : Bool :=
  n == 0 || match f.owner with
    | .keeper => false
    | .hf => holds s .hf n
    | .uhf => holds s .uhf n
    | .sam k => (if k = 0 then s.sam0 else s.sam1).lease == some n
    | .pin k => cfg s (0x710 + k) == n

/-- Range (R290 step 2). -/
def checkRange (f : FieldDef) (c : Checked) : Checked :=
  if c.value < f.min then { c with value := f.min, reasons := c.reasons ++ [1] }
  else if f.max < c.value then { c with value := f.max, reasons := c.reasons ++ [2] }
  else c

/-- Step, ties to the lower value (R290 step 3). -/
def checkStep (f : FieldDef) (c : Checked) : Checked :=
  let d := (c.value - f.min).toNat
  let k := d / f.step + (if f.step < 2 * (d % f.step) then 1 else 0)
  let v := f.min + (k * f.step : Nat)
  if v = c.value then c else { c with value := v, reasons := c.reasons ++ [3] }

/-- The BLF clamp of R475. -/
def checkBlf (s : State) (f : FieldDef) (c : Checked) : Checked :=
  if f.id ≠ 0x314 then c
  else
    let b := blfClamp s c.value.toNat
    if (b : Int) = c.value then c
    else { c with value := b, reasons := c.reasons ++ [if c.value < b then 1 else 2] }

/-- The charter limit of a field (R517, R518), none without one. -/
def charterLimit (s : State) (id : Nat) : Option Int :=
  match s.chr.inForce with
  | none => none
  | some c =>
    if id = 0x200 then some (if c.hfMax = 0 then 31250 else (c.hfMax : Int))
    else if id = 0x300 then some (uhfLimit c)
    else none

def checkCharter (s : State) (f : FieldDef) (c : Checked) : Checked :=
  match charterLimit s f.id with
  | none => c
  | some m => if m < c.value then { c with value := m, reasons := c.reasons ++ [4] } else c

/-- Budget for a chain that is lit, or is about to be (R42, R56, R57). -/
def checkBudget (s : State) (lit : Bool) (f : FieldDef) (c : Checked) : Checked :=
  if f.id = 0x200 ∧ lit then
    let want := (c.value / 31250).toNat
    let k := hfFit s (hfRoom s) want
    if k = 0 ∨ s.pwr.warn = true then { value := cfgI s f.id, reasons := c.reasons ++ [5], apply := false, noRoom := true }
    else if k = want then c
    else { c with value := (k * 31250 : Nat), reasons := c.reasons ++ [5] }
  else if f.id = 0x300 ∧ lit then
    let p := uhfFit s (uhfRoom s) c.value.toNat
    if p = 0 ∨ s.pwr.warn = true then { value := cfgI s f.id, reasons := c.reasons ++ [5], apply := false, noRoom := true }
    else if (p : Int) = c.value then c
    else { c with value := p, reasons := c.reasons ++ [5] }
  else c

/-- A chain's power field meets the budget check while its output is on (R408, R457). -/
def litFor (s : State) (id : Nat) : Bool :=
  (id == 0x200 && hfUp s) || (id == 0x300 && uhfUp s)

/-- All checks of one entry (R290). `lit` as for `checkBudget`. -/
def checkEntry (s : State) (n : Nat) (lit : Bool) (f : FieldDef) (req : Int) : Checked :=
  if !maySet s n f then ⟨cfgI s f.id, [6], false, false⟩
  else checkBudget s lit f (checkCharter s f (checkBlf s f (checkStep f (checkRange f ⟨req, [], true, false⟩))))

/-- The clamp entry of a checked value, if any (R271). -/
def clampOf (id : Nat) (req : Int) (c : Checked) : List Clamp :=
  match c.reasons with
  | [] => []
  | r :: _ =>
    [⟨id, r, ((List.range 6).map fun k => if (k + 1) ∈ c.reasons then 2 ^ k else 0).sum, req, c.value⟩]

/-! ## Applying a value -/

/-- What was estimated at the old gain is discarded, a complete offset estimate and the result of a step that writes one
too; the step runs to its end (R13, R393, R448, R560). -/
def dropEstimates (c : Chain) (s : State) : State :=
  onTowLane c (fun t =>
    { t with
      gather := 0, sum := 0, due := t.due.filter (· != .offset)
      void := t.void || t.step == some .offset }) s

/-- A new gain: a capture is marked, and what is measured anew at each gain becomes due (R392, R452, R560). -/
def newGain (c : Chain) (k : Nat) (s : State) : State :=
  let mark := Option.map fun (x : Capture) => { x with gainChanged := true }
  match c with
  | .hf => addDue .hf [.noise] (dropEstimates .hf ((s.onHf fun h => { h with gain := k, quiet := 0 }).onCapHf mark))
  | .uhf =>
    addDue .uhf [.offset, .noise] (dropEstimates .uhf ((s.onUhf fun u => { u with gain := k, quiet := 0 }).onCapUhf mark))

/-- Manual gain follows its fields (R391, R452). -/
def manualGain (s : State) : State :=
  let s1 := if cfg s 0x201 = 1 ∧ s.hf.gain ≠ cfg s 0x202 / 3 then newGain .hf (cfg s 0x202 / 3) s else s
  if cfg s1 0x301 = 1 ∧ s1.uhf.gain ≠ cfg s1 0x302 / 2 then newGain .uhf (cfg s1 0x302 / 2) s1 else s1

/-- A new field power while the field is on: its grant at once, the step at the next frame boundary (R53, R368). A field
that is to fall there for CHARTER_WRITE or CHARTER_BREAK falls all the same (R526). -/
def hfNewStep (k : Nat) (s : State) : State :=
  if s.chr.stopped ∧ s.hf.nextStep = some 0 then s else
  let s1 := uhfYields (askHfGrant (hfDraw s k) (s.onHf fun h => { h with nextStep := some k }))
  if hfInFrame s then s1 else hfBoundary s1

/-- A new output while the carrier is on (R439). A carrier that is to fall at the next boundary, for R526 or for action
2 of R442, falls all the same. -/
def uhfNewPower (p : Nat) (s : State) : State :=
  if (s.chr.stopped || s.uhf.blocked) && s.uhf.nextPower == some 0 then s else
  let s1 := askUhfGrant (uhfDraw s p) (s.onUhf fun u => { u with nextPower := some p })
  if uhfInFrame s then s1 else uhfBoundary s1

/-- The output of field 0x0300, where the carrier is on and no detector point holds its drive (R575). -/
def uhfNewOutput (s : State) : State :=
  if uhfUp s && s.cal.holding.isNone then uhfNewPower (cfg s 0x300) s else s

/-- What an applied value does at once (R292). A field of R502 is in force at the next frame boundary (R486, R503). -/
def fieldEffect (id : Nat) (s : State) : State :=
  if id ∈ [0x101, 0x102, 0x106, 0x107] then refit s
  else if id = 0x103 then
    (if cfg s id = 1 then s.onClk fun c => { c with spreadOn := true } else s)
  else if id = 0x200 then (if hfUp s then hfNewStep (cfg s id / 31250) s else s)
  else if id = 0x300 then uhfNewOutput s
  else if id ∈ [0x201, 0x202, 0x301, 0x302] then manualGain s
  else if id = 0x215 then (if hfInFrame s then s.onHf fun h => { h with dropDue := true } else dropVerdicts .hf s)
  else if id = 0x318 ∨ (0x320 ≤ id ∧ id ≤ 0x330) then
    (if uhfInFrame s then s.onUhf fun u => { u with dropDue := true } else dropVerdicts .uhf s)
  else s

/-- A pin that changes its owner returns to input (R829). -/
def pinOwner (id : Nat) (v : Int) (s : State) : State :=
  if 0x710 ≤ id ∧ id < 0x714 ∧ cfgI s id ≠ v then s.onGpio fun g => { g with dir := g.dir &&& ~~~(1#4 <<< (id - 0x710)) }
  else s

def applyField (id : Nat) (v : Int) (s : State) : State := fieldEffect id (setField id v (pinOwner id v s))

/-- R476: after a change of Tari or of the data-1 length the BLF is checked again. -/
def recheckBlf (id : Nat) (s : State) : State × List Clamp :=
  if id = 0x311 ∨ id = 0x312 then
    let b := cfg s 0x314
    let c := blfClamp s b
    if c = b then (s, [])
    else
      let r := if b < c then 1 else 2
      (setField 0x314 c s, [⟨0x314, r, 2 ^ (r - 1), b, c⟩])
  else (s, [])

/-- The value of an entry: signed for a field whose range is signed. -/
def entryValue (f : FieldDef) (raw : Nat) : Int := if f.min < 0 then signed 32 raw else (raw : Int)

/-- The outcome of a list of entries: the state, the clamps in order, entries applied, applied IDs, and
whether some entry met no room in the budget. -/
structure Applied where
  s : State
  clamps : List Clamp
  count : Nat
  ids : List Nat
  noRoom : Bool

/-- One entry after the ones before it (R290–R292). -/
def applyEntry (n : Nat) (a : Applied) (e : Nat × Nat) : Applied :=
  match fieldDef e.1 with
  | none => a
  | some f =>
    let req := entryValue f e.2
    let c := checkEntry a.s n (litFor a.s e.1) f req
    let clamps := a.clamps ++ clampOf e.1 req c
    if c.apply then
      let r := recheckBlf e.1 (applyField e.1 c.value a.s)
      { s := r.1, clamps := clamps ++ r.2, count := a.count + 1, ids := a.ids ++ [e.1], noRoom := a.noRoom }
    else { a with clamps := clamps, noRoom := a.noRoom || c.noRoom }

/-- Each clamp entry reports the value in force after the packet (R271). -/
def Applied.settle (a : Applied) : Applied :=
  { a with clamps := a.clamps.map fun c => { c with applied := cfgI a.s c.field } }

def applyEntries (n : Nat) (es : List (Nat × Nat)) (s : State) : Applied :=
  (es.foldl (applyEntry n) ⟨s, [], 0, [], false⟩).settle

/-- Entries as bytes: field ID, reserved, value (R304). -/
def entriesOf (bs : List Byte) (n : Nat) : List (Nat × Nat) :=
  (List.range n).map fun k => (fieldOf bs (8 * k) 2, fieldOf bs (8 * k + 4) 4)

/-- A list of entries is well formed (R293, R5). -/
def entriesOk (bs : List Byte) (n : Nat) : Bool :=
  let es := entriesOf bs n
  decide (1 ≤ n) && decide (n ≤ 255) && es.all (fun e => (fieldDef e.1).isSome)
    && decide (es.map (·.1)).Nodup
    && (List.range n).all (fun k => fieldOf bs (8 * k + 2) 2 == 0)

end Sys2Proof.Machine
end

