-- ==== Sys2Proof/Machine/PacketFlow.lean ====
section
/-! DEFINITION. Fetching, admission, the execution slice and deadlines (R276–R289, R749, R770). -/

namespace Sys2Proof.Machine

open Sys2Proof

/-! ## Fetching (R276, R277) -/

/-- Packets of a tenant fetched and not yet admitted. -/
def fetchedOf (s : State) (n : Nat) : List Packet := s.queue.filter fun p => p.tenant == n

/-- Packets between CMD_CONS and the CMD_PROD whose doorbell has rung: a write still held open rings when chip select
rises (R199, R203). -/
def rung (s : State) (n : Nat) : Nat :=
  let t := tenant s n
  let doors := fun (q : PortSt) => (q.burst.map (·.doors)).getD []
  match (doors s.portA ++ doors s.portB).find? fun d => d.1 == n with
  | none => inRing s n
  | some d =>
    let k := ringUsed d.2 t.cmdCons t.place.cmdN
    if k ≤ inRing s n then k else 0

def canFetch (s : State) (n : Nat) : Bool :=
  enabled s n && !(tenant s n).resetting && decide (0 < rung s n)
    && decide ((fetchedOf s n).length < 3) && decide (0 < freeSlots s n)

/-- Fetches the next packet of a tenant: answers it or queues it. -/
def fetchFrom (n : Nat) (s : State) : State :=
  let bs := readSlot s n
  let p := packetOfBytes n s.packets s.time bs
  let bad := basinFenced s (nextSlot s n).1 (16 + p.params.length)
  let s1 := (advanceCons n s).onPackets (· + 1)
  if bad then answer p 0x13 s1
  else match fetchStatus s n bs p with
    | some st => answer p st s1
    | none => s1.onQueue (· ++ [p])

/-- The next tenant in visiting order that a packet can be fetched from. -/
def nextVisit (s : State) : Option Nat :=
  ((List.range 8).map fun i => (s.visit + i) % 8).find? (canFetch s)

def execPacketFetch (s : State) : Host.Outcome State Fault Refusal :=
  .next <|
    if s.pwr.state ≠ .run ∨ s.pwr.entry.isSome then s
    else match nextVisit s with
      | none => s
      | some n => fetchFrom n (s.onVisit fun _ => (n + 1) % 8)

/-! ## Admission (R278–R284) -/

/-- ORDERED holds a packet back behind earlier ones, and later ones behind it (R283, R284). -/
def orderHolds (s : State) (p : Packet) : Bool :=
  (unanswered s).any fun q => q.tenant == p.tenant && decide (q.id < p.id) && (p.ordered || q.ordered)

/-- What a tenant offers a lane: its suspended packet, or the first of its fetched packets there; nothing behind a
LOCK_CYCLE that waits (R278). -/
inductive Offer where
  | susp (e : Exec) | head (p : Packet)
deriving DecidableEq, Repr

/-- What a tenant offers on a lane. A tenant that is being reset offers only its suspended packets: those that a
disabled tenant had admitted finish (R232, R233). -/
def offerOf (s : State) (l : LaneId) (n : Nat) : Option Offer :=
  if l == .house && s.lock.waiting.any fun e => e.pkt.tenant == n then none
  else match (laneSt s l).susp.find? fun e => e.pkt.tenant == n with
    | some e => some (.susp e)
    | none =>
      if (tenant s n).resetting then none
      else match s.queue.find? fun p => p.tenant == n && laneFor p == l with
      | some p => if orderHolds s p then none else some (.head p)
      | none => none

def eligible (s : State) (l : LaneId) (n : Nat) : Bool := (offerOf s l n).isSome

def weight (s : State) (n : Nat) : Nat := cfg s (0x810 + n)

/-- Credits after the refill of R279, where it is due. -/
def refilled (s : State) (l : LaneId) : List Nat :=
  if (List.range 8).any fun n => eligible s l n && decide (0 < nth (laneSt s l).credit n 0) then
    (laneSt s l).credit
  else (List.range 8).map (weight s)

/-- The tenant that R279 chooses. -/
def chooseTenant (s : State) (l : LaneId) : Option Nat :=
  let credit := refilled s l
  ((List.range 8).map fun i => ((laneSt s l).next + i) % 8).find? fun n =>
    eligible s l n && decide (0 < nth credit n 0)

/-- D_H shortens the deadline of the lease holder's packets on its lane (R289). -/
def holderDeadline (s : State) (l : LaneId) (p : Packet) : Packet :=
  let dh := cfg s 0x804
  let mine : Bool := match l with
    | .hf => holds s .hf p.tenant
    | .uhf => holds s .uhf p.tenant
    | .house => false
  if dh ≠ 0 ∧ mine = true ∧ (p.deadline = 0 ∨ dh < p.deadline) then { p with deadline := dh } else p

def newExec (s : State) (l : LaneId) (p : Packet) : Exec :=
  { pkt := holderDeadline s l p, start := stamp s, slice := s.time, admitted := s.time, sliceOver := false
    suspended := false, towpath := false, clamps := [], stop := none, partialBody := [], phase := .fresh, parked := false
    slot := if p.opcode = 0x0720 ∨ p.opcode = 0x0721 then some (nth s.nv.slots (Packet8 p 0) KeySlot.empty) else none
    used := nth s.keyUsed (Packet8 p 0) 0 }

/-- Takes the tenant's credit and moves the round robin on (R279). -/
def takeCredit (l : LaneId) (n : Nat) (s : State) : State :=
  let credit := refilled s l
  onLane l (fun x => { x with credit := modAt credit n (· - 1), next := (n + 1) % 8 }) s

/-- Admits what tenant `n` offers. A packet that needs a fenced unit, or whose deadline has passed, is answered
instead, without credit (R285, R749). -/
def admitFrom (l : LaneId) (n : Nat) (s : State) : State :=
  match offerOf s l n with
  | none => s
  | some (.susp e) =>
    onLane l (fun x =>
      { x with susp := x.susp.filter fun f => f.pkt.id != e.pkt.id
               exec := some { e with slice := s.time, sliceOver := false } }) (takeCredit l n s)
  | some (.head p) =>
    let s1 := s.onQueue fun q => q.filter fun r => r.id != p.id
    if lateInQueue s p then answer p 0x15 s1
    else if needsFenced s p then answer p 0x13 s1
    else onLane l (fun x => { x with exec := some (newExec s l p) }) ((takeCredit l n s).onQueue fun _ => s1.queue)

/-! ## Slice and deadline (R281, R285–R288) -/

/-- A packet of another tenant is eligible on the lane. -/
def otherEligible (s : State) (l : LaneId) (n : Nat) : Bool :=
  (List.range 8).any fun m => m != n && eligible s l m

def execSliceExpiry (l : LaneId) (s : State) : Host.Outcome State Fault Refusal :=
  .next <|
    match execOf s l with
    | none => s
    | some e =>
      if e.slice + cfg s 0x803 ≤ s.time ∧ otherEligible s l e.pkt.tenant then
        onExec l (fun e => { e with sliceOver := true }) s
      else s

/-- Executing packets past their deadline stop at their next yield point (R286). -/
def markExpired (s : State) (l : Lane) : Lane :=
  let f := fun (e : Exec) => if expired s e.pkt ∧ e.stop = none then { e with stop := some 0x15 } else e
  { l with exec := l.exec.map f, susp := l.susp.map f }

/-- LEASE_ACQUIREs past their deadline leave the queue, or the grant under way (R247, R286). -/
def expireWaits (c : Chain) (s : State) : State :=
  let late := fun (w : Waiter) => (w.exec.map fun e => expired s e.pkt).getD false
  let l := leaseOf s c
  let s1 := dropWaiters late c s
  ((l.queue ++ l.granting.toList).filter late).foldl (fun s w =>
    match w.exec with
    | some e => replyExec e 0x15 [] none s
    | none => s) s1

def execDeadlineExpiry (s : State) : Host.Outcome State Fault Refusal :=
  .next <|
    let s1 := (s.queue.filter (lateInQueue s)).foldl (fun s p => answer p 0x15 s)
      (s.onQueue fun q => q.filter fun p => !lateInQueue s p)
    let s2 := expireWaits .uhf (expireWaits .hf s1)
    let s3 := (s2.lock.waiting.filter fun e => expired s e.pkt).foldl (fun s e => replyExec e 0x15 [] none s)
      (s2.onLock fun k => { k with waiting := k.waiting.filter fun e => !expired s e.pkt })
    ((s3.onHfLane (markExpired s)).onUhfLane (markExpired s)).onHouseLane (markExpired s)

end Sys2Proof.Machine
end

