-- ==== Sys2Proof/Machine/Frames.lean ====
section
/-! DEFINITION. Frames on the air: waveform keys and mask verdicts, starting a frame that waits, and
the link quality of a received frame (R481–R494). -/

namespace Sys2Proof.Machine

open Sys2Proof

/-! ## Verdicts (R481–R489) -/

/-- Keeps a verdict among the 8 most recent (R482). -/
def keepVerdict (c : Chain) (code : Nat) (s : State) : State :=
  let k := waveKey s c
  let f := fun (l : List (List Int × Nat)) => ((k, code) :: l.filter fun v => v.1 != k).take 8
  s.onSpec fun m => match c with
    | .hf => { m with hf := f m.hf }
    | .uhf => { m with uhf := f m.uhf }

/-- A chain asks the monitor for a check: in request order (R485). -/
def requestCheck (c : Chain) (s : State) : State :=
  if s.spec.queue.contains (c, none) then s else s.onSpec fun m => { m with queue := m.queue ++ [(c, none)] }

/-- The mask of a chain: offsets in kHz, levels in 0.1 dBc. -/
def maskOf (c : Charter) : Chain → List (Nat × Int)
  | .hf => c.hfMask
  | .uhf => c.uhfMask

/-- The mask level at |offset| in Hz, interpolated between the points (R481, R510), in 0.1 dB and
rounded down. -/
def maskAt (pts : List (Nat × Int)) (f : Nat) : Int :=
  match pts with
  | [] => 0
  | [(_, y)] => y
  | (x0, y0) :: (x1, y1) :: rest =>
    if f ≤ 1000 * x0 then y0
    else if f ≤ 1000 * x1 then
      y0 + (y1 - y0) * ((f : Int) - 1000 * x0) / (1000 * ((x1 : Int) - x0))
    else maskAt ((x1, y1) :: rest) f

/-- Taps of a custom profile whose DC gain is out of range (R480). -/
def tapsBad (s : State) (c : Chain) : Bool :=
  match c with
  | .hf => false
  | .uhf =>
    let g := 2 * ((List.range 16).map fun i => cfgI s (0x320 + i)).sum + cfgI s 0x330
    cfg s 0x317 == 1 && (decide (g < 24576) || decide (40960 < g))

/-- The least margin over the bins and its offset, the first of equals; carrier bin excluded. -/
def worstBin (pts : List (Nat × Int)) (margin : Int) : List (Int × Int) → Option (Int × Int)
  | [] => none
  | (f, lev) :: bins =>
    let rest := worstBin pts margin bins
    if f = 0 then rest
    else
      let m := maskAt pts f.natAbs - margin - lev
      match rest with
      | none => some (m, f)
      | some (m', f') => if m ≤ m' then some (m, f) else some (m', f')

/-- A check of the chain's key: verdict code of R507, worst margin and its offset where bins were judged, whatever the
taps (R480, R481, R489, R507). -/
def checkKey (s : State) (c : Chain) (bins : List (Int × Int)) : Nat × Option (Int × Int) :=
  match s.chr.inForce with
  | none => (3, none)
  | some ch =>
    let w := worstBin (maskOf ch c) (cfgI s (match c with | .hf => 0x215 | .uhf => 0x318)) bins
    (if tapsBad s c then 2 else if w.any fun x => x.1 < 0 then 1 else 0, w)

/-! ## Stops -/

/-- The executing packet of a lane ends with a status at its next yield point (R40, R286, R748). -/
def stopLane (l : LaneId) (status : Nat) (s : State) : State :=
  let f := fun (e : Exec) => if e.stop = none then { e with stop := some status } else e
  onLane l (fun x => { x with exec := x.exec.map f, susp := x.susp.map f }) s

/-- A packet is to be stopped or suspended at its yield point (R281, R286, R748). -/
def yieldWanted (s : State) (l : LaneId) : Bool :=
  match execOf s l with
  | none => false
  | some e => (stopDue s e).isSome || (e.sliceOver && otherEligible s l e.pkt.tenant)

/-! ## HF frames -/

/-- The lane whose packet exchanges frames on HF: the house lane during the card handling of R589. -/
def hfOwner (s : State) : Option LaneId :=
  match s.houseLane.exec with
  | some e =>
    match e.phase with
    | .deselect _ => some .house
    | _ => if s.hfLane.exec.isSome then some .hf else none
  | none => if s.hfLane.exec.isSome then some .hf else none

/-! ## Silences of the towpath (R544, R551–R559) -/

/-- The lane whose packet a chain's frame belongs to. -/
def frameOwner (s : State) : Chain → Option LaneId
  | .hf => hfOwner s
  | .uhf => if s.uhfLane.exec.isSome then some .uhf else none

/-- Steps of a chain in the order of R552, with their duration in µs and their bit of field 0x0404. -/
def stepTable : Chain → List (StepKind × Nat × Option Nat)
  | .hf => [(.tuner, 16, none), (.null, 12, some 1), (.offset, 2, some 0), (.noise, 5, some 2)]
  | .uhf => [(.null, 14, some 5), (.offset, 4, some 3), (.irr, 2, some 4), (.noise, 4, some 6)]

/-- A step's duration in R544. -/
def stepLen (c : Chain) (k : StepKind) : Nat := (((stepTable c).find? fun x => x.1 == k).map fun x => x.2.1).getD 0

/-- The delayed frame of a packet starts: no further frame of it is delayed (R554). -/
def frameBegins (t : TowLane) : TowLane := { t with pktDone := t.pktDone || decide (0 < t.pktDelay) }

/-- Slot length in ns, and whether a chain's budget is spent (R557). -/
def slotNs (s : State) : Nat := 1000 * cfg s 0x400
def towSpent (s : State) (c : Chain) : Bool := decide ((towLane s c).credit < slotNs s)

/-- The chain holds its own unmodulated carrier with no frame in flight. -/
def silent (s : State) : Chain → Bool
  | .hf => hfLit s && !s.hf.rising && !hfInFrame s && s.hf.radio == .rx
  | .uhf => uhfLit s && !s.uhf.rising && !uhfInFrame s && s.uhf.radio == .rx

/-- A capture or a CAL_RUN keeps the lane from running (R560). -/
def towPaused (s : State) (c : Chain) : Bool :=
  (match c with
    | .hf => s.capHf.any fun k => !k.armed
    | .uhf => s.capUhf.any fun k => !k.armed)
    || ((laneSt s (chainLane c)).all.any fun e => e.pkt.opcode == 0x0600)

/-- The frame that waits belongs to a packet that is suspended, and waits with it (R281, R607). -/
def frameSuspended (s : State) : Chain → Bool
  | .hf => (s.hfLane.susp ++ s.houseLane.susp).any fun e => match e.phase with
    | .poll _ | .activate _ | .raw _ | .iso _ | .deselect _ | .peerStart | .peerXchg | .peerSwap => true
    | _ => false
  | .uhf => s.uhfLane.susp.any fun e => match e.phase with
    | .inventory _ | .access _ | .select _ => true
    | _ => false

/-- A frame of the chain waits to start. -/
def frameWaits (s : State) (c : Chain) : Bool :=
  (match c with
    | .hf => s.hf.held.isSome
    | .uhf => s.uhf.held.isSome) && !frameSuspended s c

/-- The moment in ns from which the waiting frame would start. -/
def sendFrom (s : State) : Chain → Nat
  | .hf => s.hf.sendNs
  | .uhf => s.uhf.sendNs

/-- The delay in ns that a step from `start` to `stop` µs imposes on the waiting frame (R553). -/
def delayOf (s : State) (c : Chain) (start stop : Nat) : Nat :=
  if frameWaits s c then 1000 * stop - max (sendFrom s c) (1000 * start) else 0

/-- The waiting frame, if any, would not have started before now. -/
def notSooner (c : Chain) (s : State) : State :=
  match c with
  | .hf => s.onHf fun h => { h with sendNs := max h.sendNs (1000 * s.time) }
  | .uhf => s.onUhf fun u => { u with sendNs := max u.sendNs (1000 * s.time) }

/-- The packet of the waiting frame allows a delay of `ns` (R554, R558, R559). -/
def mayDelay (s : State) (c : Chain) (ns : Nat) : Bool :=
  let t := towLane s c
  match (frameOwner s c).bind (execOf s) with
  | none => false
  | some e =>
    let used := if t.pkt = some e.pkt.id then t.pktDelay else 0
    decide (0 < cfg s 0x401) && !(t.pkt == some e.pkt.id && t.pktDone) && decide (used + ns ≤ slotNs s)
      && (e.pkt.deadline == 0 || decide (s.time + 1000 < e.pkt.fetched + e.pkt.deadline))

/-- The towpath can run tuner steps once its budget allows (R383). -/
def retuneFits (s : State) : Bool := decide (16 ≤ cfg s 0x400) && !fenced s 2

/-- The towpath can run tuner steps (R383). -/
def retuneRuns (s : State) : Bool := retuneFits s && !towSpent s .hf

/-- A step of a chain is due and wanted; one tuner step per slot (R379, R383, R558; log 175). -/
def stepWanted (s : State) (c : Chain) (k : StepKind) (en : Option Nat) : Bool :=
  (towLane s c).due.contains k
    && (match en with
      | some b => bit (cfg s 0x404) b
      | none => s.hf.retune.isSome && retuneFits s && decide (s.tow.hf.tunerAt ≤ s.time))

/-- The steps that are due in a silence of the chain, in their order and with their durations. -/
def towDues (s : State) (c : Chain) : List (StepKind × Nat) :=
  if !silent s c || fenced s 2 || towPaused s c || (towLane s c).step.isSome then []
  else ((stepTable c).filter fun x => stepWanted s c x.1 x.2.2).map fun x => (x.1, x.2.1)

/-- A delay of `ns` that a step would impose is none, or the packet allows it. -/
def delayFits (s : State) (c : Chain) (ns : Nat) : Bool := ns == 0 || mayDelay s c ns

/-- A spent budget keeps the step from running (R383, R557). -/
def budgetBars (s : State) (c : Chain) (k : StepKind) (ns : Nat) : Bool := towSpent s c && (k == .tuner || ns != 0)

/-- The step may start: its delay fits, and the budget allows it (R553, R554, R557). -/
def mayStart (s : State) (c : Chain) (x : StepKind × Nat) : Bool :=
  let ns := delayOf s c s.time (s.time + x.2)
  delayFits s c ns && !budgetBars s c x.1 ns

/-- The step that starts next: the first in the order of R552 that may (log 70). -/
def towNext (s : State) (c : Chain) : Option StepKind := ((towDues s c).find? (mayStart s c)).map fun x => x.1

/-- How many of the steps due before the waiting frame, one after another from `at_` on, only the spent budget keeps
from running (R581). -/
def stepsBarred (s : State) (c : Chain) : Nat → List (StepKind × Nat) → Nat
  | _, [] => 0
  | at_, (k, d) :: xs =>
    let ns := delayOf s c s.time (at_ + d)
    if delayFits s c ns then b2n (budgetBars s c k ns) + stepsBarred s c (at_ + d) xs else stepsBarred s c at_ xs

def towRefused (s : State) (c : Chain) : Nat := stepsBarred s c s.time (towDues s c)

def countRefused (c : Chain) (s : State) : State :=
  ctrAdd (match c with | .hf => 0x34 | .uhf => 0x39) (towRefused s c) s

/-- Nothing holds back a reader frame on HF but the mask check (R367, R384, R553, R607). -/
def hfClear (s : State) : Bool :=
  hfLit s && !s.hf.rising && s.hf.tx.isNone && s.hf.wait.isNone && decide (s.hf.sendNs ≤ 1000 * s.time)
    && s.tow.hf.step.isNone && !s.chr.stopped && !fenced s 3 && !frameSuspended s .hf
    && (match hfOwner s with
      | some l => !yieldWanted s l
      | none => true)

/-- Starts the frame that waits, or asks for its mask check (R482–R484). -/
def hfStart (s : State) : State :=
  match s.hf.held with
  | none => s
  | some f =>
    if hfClear s then
      if passed s .hf then
        onTowLane .hf (fun t => { frameBegins t with tunerAt := 0 })
          ((countRefused .hf s).onHf fun h => { h with held := none, tx := some f, sent := some f, sof := false, radio := .tx })
      else requestCheck .hf s
    else s

/-- A step that runs when a frame comes to wait: one whose delay the packet or the budget does not allow gives way, and
is due again (R554, R557–R559; log 203). -/
def stepYields (c : Chain) (s : State) : State :=
  match (towLane s c).step with
  | none => s
  | some k =>
    let ns := delayOf s c s.time ((towLane s c).stepAt + stepLen c k)
    if ns = 0 ∨ (mayDelay s c ns = true ∧ towSpent s c = false) then s else addDue c [k] (towStop c s)

/-- As `hfStart`, but the silence before the frame is the towpath's where a step is due. -/
def hfRelease (s0 : State) : State :=
  let s := stepYields .hf s0
  if (towNext s .hf).isSome then s else hfStart s

/-- A reader frame whose reply window lasts `win` µs, not before the minimum gap is over (R800) nor before `at_`. -/
def hfSendAt (f : HfFrame) (win at_ : Nat) (s : State) : State :=
  hfRelease (s.onHf fun h =>
    { h with held := some f, waitLen := win, sendNs := max h.gapNs (1000 * max at_ s.time) })

def hfSend (f : HfFrame) (win : Nat) (s : State) : State := hfSendAt f win s.time s

/-- The card that the executing packet's frames go to. -/
def frameCard (s : State) : Option Card :=
  let h := match ((hfOwner s).bind (execOf s)).map (·.phase) with
    | some (.activate op) => op.handle
    | some (.iso op) => op.handle
    | some (.raw op) => op.handle
    | some (.deselect op) => nth op.todo 0 0
    | _ => 0
  s.hf.cards.find? fun c => c.handle == h

/-- `n` periods of the carrier of 13.56 MHz in ns, rounded up. -/
def carrierNs (n : Nat) : Nat := ceilDiv (n * 100000) 1356

/-- The minimum gap of R800 after a frame, in ns: `tech` 0 Type A, 1 Type B, 2 ISO/IEC 15693, and the
reader-to-card rate 106·2^dri kbit/s. -/
def cardGap (tech dri : Nat) : Nat :=
  match tech with
  | 0 => carrierNs 1172
  | 1 => carrierNs (1280 / 2 ^ dri)
  | _ => carrierNs 4192

/-- The minimum gap after the answer to a reader frame. -/
def hfGap (s : State) : Nat :=
  match s.hf.sent with
  | some (.reqb ..) | some (.slotMarker _) | some (.attrib ..) | some (.hltb _) => cardGap 1 0
  | some (.inventory ..) | some .eof15 | some (.select15 _) | some (.stayQuiet _) | some (.req15 ..) => cardGap 2 0
  | some (.raw _ proto _ _ _ dri) => cardGap proto dri
  | some (.iBlock ..) | some (.rAck _) | some (.rNak _) | some (.sWtx _) | some .sDeselect | some (.sParam ..) =>
    match frameCard s with
    | some c => cardGap c.tech c.dri
    | none => cardGap 0 0
  | _ => cardGap 0 0

/-- Frames that no card answers (R592, R610). -/
def noReply : HfFrame → Bool
  | .hlta | .stayQuiet _ => true
  | _ => false

/-! ## UHF frames -/

def uhfClear (s : State) : Bool :=
  uhfLit s && !s.uhf.rising && s.uhf.tx.isNone && s.uhf.wait.isNone && s.tow.uhf.step.isNone
    && !s.chr.stopped && !fenced s 3 && !s.uhf.hopDue && s.uhf.nextChannel.isNone && !yieldWanted s .uhf
    && !frameSuspended s .uhf && decide (s.uhf.sendNs ≤ 1000 * s.time)

/-- The index of R446: the smallest half-bandwidth of 60, 120, 240, 480 and 960 kHz that is at least
1.5 × BLF. -/
def bandwidth (s : State) : Nat :=
  match ([60, 120, 240, 480, 960] : List Nat).findIdx? fun b => decide (3 * cfg s 0x314 ≤ 2 * b) with
  | some i => i
  | none => 4

/-- The half-bandwidth is set before the Query (R446); a change discards the image-rejection estimate, a complete one
and the result of a step that runs on it too (R560). -/
def setBandwidth (s : State) : State :=
  let b := bandwidth s
  if b = s.uhf.bw then s
  else
    onTowLane .uhf (fun t =>
      { t with gatherI := 0, due := t.due.filter (· != .irr), void := t.void || t.step == some .irr })
      (s.onUhf fun u => { u with bw := b })


/-- A Query starts: it and the receiver take the link of the fields in force, and every other frame keeps that of its
round (R446, R503). -/
def queryLink (f : UhfFrame) (s : State) : UhfFrame × State :=
  match f with
  | .query sel ses tb q _ =>
    (.query sel ses tb q (linkOf s), (setBandwidth s).onUhf fun u => { u with link := some (linkOf s) })
  | _ => (f, s)

def uhfStart (s : State) : State :=
  match s.uhf.held with
  | none => s
  | some f =>
    if uhfClear s then
      if passed s .uhf then
        let r := queryLink f s
        onTowLane .uhf frameBegins
          ((countRefused .uhf r.2).onUhf fun u =>
            { u with held := none, tx := some r.1, sent := some r.1, sof := false, radio := .tx })
      else requestCheck .uhf s
    else s

def uhfRelease (s0 : State) : State :=
  let s := stepYields .uhf s0
  if (towNext s .uhf).isSome then s else uhfStart s

def uhfSend (f : UhfFrame) (win : Nat) (s : State) : State :=
  uhfRelease (s.onUhf fun u =>
    { u with held := some f, waitLen := win, sendNs := max u.gapNs (1000 * s.time) })

/-- The minimum gap of 3/BLF after a tag's reply, in ns (R800): the BLF that the last Query asked for (R473, R503). -/
def uhfGap (s : State) : Nat := ceilDiv 3000000 ((s.uhf.link.map (·.blf)).getD (cfg s 0x314))

def uhfNoReply : UhfFrame → Bool
  | .select .. => true
  | _ => false

/-! ## Link quality (R492–R494) -/

def sumRe (r : List (Int × Int)) (d : List Bool) : Int :=
  (List.zipWith (fun (x : Int × Int) (p : Bool) => if p then x.1 else -x.1) r d).sum

def sumSq (r : List (Int × Int)) : Nat := (r.map fun x => (x.1 * x.1 + x.2 * x.2).toNat).sum

/-- EVM in 0.1 %, halves rounded up, at most 1000: the n with (2n−1)·ΣRe ≤ 2000·√(K·Σ|r|² − (ΣRe)²). -/
def evmOf (a k s2 : Nat) : Nat :=
  let q := k * s2 - a * a
  ((List.range 1000).filter fun i => decide (((2 * i + 1) * a) ^ 2 ≤ 4000000 * q)).length

/-- LQ in 0.25 dB, halves rounded up, from the power ratio num/den. -/
def lqOf (num den : Nat) : Nat :=
  ((List.range 255).filter fun i => decide (10 ^ (2 * i + 1) * den ^ 80 ≤ num ^ 80)).length

/-- Mean noise power as a ratio (R492, R493). -/
def noisePower (m : RxMeas) (est : Option Nat) : Option (Nat × Nat) :=
  if m.noise.length < 8 then est.map fun e => (e, 1)
  else some (sumSq m.noise, m.noise.length)

/-- The towpath's latest noise estimate at the gain in force (R493). -/
def hfNoise (s : State) : Option Nat := (s.tow.hf.noise.find? fun x => x.1 == s.hf.gain).map (·.2)
def uhfNoise (s : State) : Option Nat := (s.tow.uhf.noise.find? fun x => x.1 == s.uhf.gain).map (·.2)

/-- LQ and EVM of a frame; a value that R492 does not state is free. -/
def linkQuality (s : State) (res : FrameResult) (m : RxMeas) (est : Option Nat) : Nat × Nat :=
  match res with
  | .ok | .crc =>
    let a := sumRe m.r m.d
    let k := min m.r.length m.d.length
    let evm := if 0 < a then evmOf a.toNat k (sumSq (m.r.take k)) else freeNth s 1 1001
    let lq := match noisePower m est with
      | none => freeNth s 0 256
      | some (p, j) => if p = 0 ∨ a = 0 then freeNth s 0 256 else lqOf (a.natAbs * a.natAbs * j) (k * k * p)
    (lq, evm)
  | _ => (0, 1000)

/-- The status of a frame result (R584). -/
def resultStatus : FrameResult → Nat
  | .ok => 0
  | .noSof => 0x20
  | .collision _ => 0x21
  | .crc => 0x22
  | .coding | .overlong => 0x23

/-- The result code of R630. -/
def resultCode : FrameResult → Nat
  | .ok => 0
  | .noSof => 1
  | .collision _ => 2
  | .coding => 3
  | .crc => 4
  | .overlong => 5

end Sys2Proof.Machine
end

