-- ==== Sys2Proof/Machine/HfReader.lean ====
section
/-! DEFINITION. The HF reader: the card table, HF_POLL, HF_ACTIVATE, HF_TRANSCEIVE,
HF_15693_EXCHANGE, HF_ISODEP_EXCHANGE and HF_DESELECT (R584–R612, R627–R633). A window of 0 µs is one
whose length the manual does not give: its expiry is whenever REPLY_WINDOW_TIMEOUT says so. -/

namespace Sys2Proof.Machine

open Sys2Proof

/-! ## Card table (R587–R591, R596, R627) -/

def cardOf (s : State) (h : Nat) : Option Card := s.hf.cards.find? fun c => c.handle == h

def onCards (f : List Card → List Card) (s : State) : State := s.onHf fun h => { h with cards := f h.cards }

def onCard (h : Nat) (f : Card → Card) (s : State) : State :=
  onCards (List.map fun c => if c.handle = h then f c else c) s

def dropCard (h : Nat) (s : State) : State := onCards (List.filter fun c => c.handle != h) s

def tableFull (s : State) : Bool := decide (8 ≤ s.hf.cards.length)

/-- Inserts a record in handle order. -/
def insertCard (c : Card) : List Card → List Card
  | [] => [c]
  | d :: ds => if c.handle < d.handle then c :: d :: ds else d :: insertCard c ds

/-- The lowest handle without a record. -/
def freeHandle (s : State) : Option Nat :=
  ([1, 2, 3, 4, 5, 6, 7, 8] : List Nat).find? fun h => (cardOf s h).isNone

/-- Records a card that a poll has found (R587, R596). -/
def recordCard (c : Card) (s : State) : State :=
  match s.hf.cards.find? fun d => d.tech == c.tech && d.uid == c.uid with
  | some d => onCard d.handle (fun _ => { c with handle := d.handle }) s
  | none =>
    match freeHandle s with
    | none => s
    | some h => onCards (insertCard { c with handle := h }) s

def newCard (s : State) (tech state : Nat) (uid : List Byte) (lq evm : Nat) : Card :=
  { handle := 0, tech := tech, state := state, uid := uid, atqa := 0, sak := 0, lq := lq, evm := evm
    app := [], prot := [], stamp := stamp s, cid := 0xFF, dsi := 0, dri := 0, fsci := 0, fwi := 0
    sfgi := 0, readyAt := 0, num := false }

def cardRecord (c : Card) : List Byte :=
  le 1 c.handle ++ le 1 c.tech ++ le 1 c.state ++ le 1 c.uid.length ++ padTo 10 c.uid
    ++ le 2 c.atqa.toNat ++ le 1 c.sak.toNat ++ le 1 c.lq ++ le 2 c.evm ++ padTo 4 c.app
    ++ padTo 3 c.prot ++ le 1 0 ++ le 4 c.stamp

/-- The table of 256 bytes that HF_POLL writes. -/
def tableBytes (s : State) : List Byte := padTo 256 (s.hf.cards.map cardRecord).flatten

/-- Emulation or peer mode is armed on the chain (R585). -/
def hfBusy (s : State) : Bool := s.emu.armed || s.peer.isSome

/-! ## HF_POLL (R592–R597, R628) -/

/-- Bytes from bits, least significant first. -/
def bytesOf (bs : List Bool) : List Byte :=
  (List.range (bs.length / 8)).map fun i => BitVec.ofNat 8 (packBits ((bs.drop (8 * i)).take 8))

def pollBody (s : State) (op : PollOp) : List Byte :=
  le 1 s.hf.cards.length ++ le 1 (b2n op.more + 2 * b2n op.collLeft) ++ le 2 0

def pollFinish (op : PollOp) (s : State) : State :=
  match execOf s .hf with
  | none => s
  | some e =>
    finish .hf (if op.found = 0 then 0x20 else 0) (pollBody s op) none
      (poundWrite e.pkt.tenant op.off (tableBytes s) s)

def pollSendAt (op : PollOp) (f : HfFrame) (at_ : Nat) (s : State) : State :=
  hfSendAt f 0 at_ (setPhase .hf (.poll op) s)

def pollSend (op : PollOp) (f : HfFrame) (s : State) : State := pollSendAt op f s.time s

/-- The first frame of a technology; with the table full it is the one more request of R595. -/
def startTech (op : PollOp) (t at_ : Nat) (s : State) : State :=
  let op := { op with tech := t, slot := 0, collided := false, repeats := 0, masks := [[]], probing := tableFull s }
  let wake := op.wake && !op.probing
  if t = 0 then pollSendAt op (if wake then .wupa else .reqa) at_ s
  else if t = 1 then pollSendAt { op with slot := 1 } (.reqb wake op.afi op.nSlots) at_ s
  else pollSendAt op (.inventory op.afi []) at_ s

/-- The technology is done: the next one that the packet names, after the guard (R592–R595). -/
def nextTech (op : PollOp) (s : State) : State :=
  if op.probing then pollFinish op s
  else
    match ([0, 1, 2] : List Nat).find? fun t => decide (op.tech < t) && bit op.techs t with
    | none => pollFinish op s
    | some t => startTech op t (s.time + cfg s 0x220) s

/-- A card answered the one more request of R595. -/
def foundMore (op : PollOp) (s : State) : State := pollFinish { op with more := true } s

def againA (op : PollOp) (s : State) : State := pollSend { op with probing := tableFull s } .reqa s

/-- Type A: what follows the frame last sent (R592). -/
def pollA (op : PollOp) (res : FrameResult) (ans : Option HfAnswer) (lq evm : Nat) (s : State) : State :=
  match s.hf.sent with
  | some .reqa | some .wupa =>
    if res = .noSof then nextTech op s
    else if op.probing then foundMore op s
    else
      let v := match res, ans with
        | .ok, some (.atqa v) => v
        | _, _ => 0
      pollSend { op with level := 1, known := [], uid := [], atqa := v } (.anticoll 1 []) s
  | some (.anticoll lv known) =>
    match res, ans with
    | .ok, some (.uidBits bs) => pollSend op (.select lv (bytesOf (known ++ bs))) s
    | .collision p, some (.uidBits bs) =>
      if known.length < 40 then
        let k := known ++ bs.take p ++ [true]
        pollSend { op with known := k } (.anticoll lv k) s
      else againA op s
    | _, _ => againA op s
  | some (.select lv cl) =>
    match res, ans with
    | .ok, some (.sak b) =>
      if b.getLsbD 2 && decide (lv < 3) then
        pollSend { op with level := lv + 1, known := [], uid := op.uid ++ (cl.drop 1).take 3 }
          (.anticoll (lv + 1) []) s
      else
        let c := { newCard s 0 1 (op.uid ++ cl.take 4) lq evm with atqa := op.atqa, sak := b }
        pollSend { op with found := op.found + 1 } .hlta (recordCard c s)
    | _, _ => againA op s
  | _ => againA op s

/-- Type B: after slot `op.slot` (R593). -/
def afterSlotB (op : PollOp) (s : State) : State :=
  if tableFull s ∧ op.probing = false then
    pollSend { op with probing := true, slot := 1, collided := false } (.reqb false op.afi op.nSlots) s
  else if op.slot < 2 ^ op.nSlots then
    pollSend { op with slot := op.slot + 1 } (.slotMarker (op.slot + 1)) s
  else if op.collided then
    if op.repeats < 3 then
      pollSend { op with repeats := op.repeats + 1, collided := false, slot := 1 }
        (.reqb false op.afi op.nSlots) s
    else nextTech { op with collLeft := true } s
  else nextTech op s

def pollB (op : PollOp) (res : FrameResult) (ans : Option HfAnswer) (lq evm : Nat) (s : State) : State :=
  match s.hf.sent with
  | some (.hltb _) => afterSlotB op s
  | _ =>
    if res = .noSof then afterSlotB op s
    else if op.probing then foundMore op s
    else
      match res, ans with
      | .ok, some (.atqb pupi app prot) =>
        let c := { newCard s 1 1 pupi lq evm with app := app, prot := prot }
        pollSend { op with found := op.found + 1 } (.hltb pupi) (recordCard c s)
      | _, _ => afterSlotB { op with collided := true } s

/-- ISO/IEC 15693: after slot `op.slot` of an Inventory under the first mask of `op.masks` (R594). -/
def afterSlotV (op : PollOp) (s : State) : State :=
  if tableFull s ∧ op.probing = false then
    pollSend { op with probing := true, slot := 0, masks := [[]] } (.inventory op.afi []) s
  else if op.slot < 15 then pollSend { op with slot := op.slot + 1 } .eof15 s
  else
    match op.masks.drop 1 with
    | [] => nextTech op s
    | m :: ms => pollSend { op with slot := 0, masks := m :: ms } (.inventory op.afi m) s

def pollV (op : PollOp) (res : FrameResult) (ans : Option HfAnswer) (lq evm : Nat) (s : State) : State :=
  if res = .noSof then afterSlotV op s
  else if op.probing then foundMore op s
  else
    match res, ans with
    | .ok, some (.inv15 dsfid uid) =>
      afterSlotV { op with found := op.found + 1 }
        (recordCard { newCard s 2 5 uid lq evm with sak := dsfid } s)
    | _, _ =>
      let m := nth op.masks 0 []
      if m.length < 15 then afterSlotV { op with masks := op.masks ++ [m ++ [op.slot]] } s
      else afterSlotV op s

def pollNext (op : PollOp) (res : FrameResult) (ans : Option HfAnswer) (lq evm : Nat) (s : State) : State :=
  if op.tech = 0 then pollA op res ans lq evm s
  else if op.tech = 1 then pollB op res ans lq evm s
  else pollV op res ans lq evm s

def pollStart (e : Exec) (s : State) : State :=
  let p := e.pkt
  let techs := Packet8 p 0
  if techs = 0 ∨ 4 < Packet8 p 2 ∨ Packet32 p 8 % 4 ≠ 0 then finish .hf 0x11 [] none s
  else if hfBusy s || !hfLit s || s.hf.rising then finish .hf 0x23 [] none s
  else
    let op : PollOp :=
      { tech := 0, wake := bit (Packet8 p 1) 0, techs := techs, nSlots := Packet8 p 2, off := Packet32 p 8
        afi := if bit (Packet8 p 1) 1 then some (BitVec.ofNat 8 (Packet8 p 3)) else none
        level := 0, known := [], uid := [], atqa := 0, slot := 0, collided := false, repeats := 0
        masks := [], found := 0, more := false, collLeft := false, probing := false }
    let t := if bit techs 0 then 0 else if bit techs 1 then 1 else 2
    startTech op t (max s.time (s.hf.onAt + cfg s 0x220)) s

def execHfPoll (s : State) : Host.Outcome State Fault Refusal := .next (onLeased .hf 0x0301 pollStart s)

/-! ## HF_ACTIVATE (R598–R601, R629) -/

/-- The UID parts selected at the cascade levels. -/
def uidParts (uid : List Byte) : List (List Byte) :=
  if uid.length ≤ 4 then [uid]
  else if uid.length ≤ 7 then [0x88 :: uid.take 3, uid.drop 3]
  else [0x88 :: uid.take 3, 0x88 :: (uid.drop 3).take 3, uid.drop 6]

/-- A part followed by its check byte. -/
def withBcc (b : List Byte) : List Byte := b ++ [b.foldl (· ^^^ ·) 0]

def activateBody (s : State) (op : ActivateOp) (selected : Bool) (copied : Nat) : List Byte :=
  match cardOf s op.handle with
  | none => List.replicate 12 0
  | some c =>
    le 1 c.state ++ le 1 c.dri ++ le 1 c.dsi ++ le 1 c.fsci ++ le 1 c.fwi ++ le 1 c.sfgi ++ le 1 c.cid
      ++ le 1 (b2n selected) ++ le 1 op.lq ++ le 1 copied ++ le 2 op.evm

def activateFail (op : ActivateOp) (status : Nat) (s : State) : State :=
  finish .hf status (activateBody s op false 0) none s

/-- SFGT, by the formula of R603 for FWT; none at SFGI 0. -/
def sfgt (sfgi : Nat) : Nat := if sfgi = 0 then 0 else ceilDiv (3021 * 2 ^ sfgi) 10

/-- Activation is done: record, answer copied, start-up guard before the first block (R601). -/
def activateDone (op : ActivateOp) (state : Nat) (selected : Bool) (s : State) : State :=
  let s1 := onCard op.handle (fun c =>
    { c with
      state := state, lq := op.lq, evm := op.evm, num := false
      readyAt := s.time + (if state = 3 then sfgt c.sfgi else 0) }) s
  match execOf s1 .hf, cardOf s1 op.handle with
  | some e, some _ =>
    let n := if op.copy then min 255 op.answer.length else 0
    let s2 := if op.copy then poundWrite e.pkt.tenant op.off (op.answer.take 256) s1 else s1
    finish .hf 0 (activateBody s2 op selected n) none s2
  | _, _ => s1

def actSend (op : ActivateOp) (f : HfFrame) (s : State) : State := hfSend f 0 (setPhase .hf (.activate op) s)

/-- After the card has taken its rates of R465: the very high rates where asked for (R598). -/
def actHigh (op : ActivateOp) (s : State) : State :=
  if 4 ≤ op.dri then actSend op (.sParam op.dsi op.dri) s else activateDone op 3 false s

/-- What the card's ATS or ATTRIB answer declares (R599, R601). -/
def actParams (op : ActivateOp) (fsci fwi sfgi : Nat) (s : State) : State :=
  onCard op.handle (fun c => { c with fsci := fsci, fwi := fwi, sfgi := sfgi, cid := op.cid, dsi := 0, dri := 0 }) s

/-- The highest rate that is no higher than the one asked for and that the card declares; 106 kbit/s at least (R599). -/
def bestRate (asked set : Nat) : Nat :=
  (((List.range (asked + 1)).filter fun k => k == 0 || bit set k).getLast?).getD 0

/-- What an ATQB's protocol information says (ISO/IEC 14443-3, log 206): FSCI, FWI and SFGI, and the declared rate codes
from card to reader and back (R599, R601). -/
def protFsci (p : List Byte) : Nat := (nth p 1 0).toNat / 16
def protFwi (p : List Byte) : Nat := if (nth p 2 0).toNat / 16 = 15 then 4 else (nth p 2 0).toNat / 16
def protSfgi (p : List Byte) : Nat := if (nth p 3 0).toNat / 16 = 15 then 0 else (nth p 3 0).toNat / 16
def protDs (p : List Byte) : Nat := 2 * ((nth p 0 0).toNat / 16 % 8)
def protDr (p : List Byte) : Nat := 2 * ((nth p 0 0).toNat % 8)
def protCid (p : List Byte) : Bool := bit (nth p 2 0).toNat 0

/-- ATTRIB with the highest rates that were asked for and that the ATQB declares (R598, R599). -/
def attribSend (op : ActivateOp) (c : Card) (prot : List Byte) (s : State) : State :=
  actSend op (.attrib c.uid (bestRate op.dsi (protDs prot)) (bestRate (min op.dri 3) (protDr prot)) op.fsdi op.cid) s

def activateNext (op0 : ActivateOp) (res : FrameResult) (ans : Option HfAnswer) (lq evm : Nat) (s : State) :
    State :=
  let op := { op0 with lq := lq, evm := evm }
  match cardOf s op.handle with
  | none => finish .hf 0x23 [] none s
  | some c =>
    let bad := activateFail op (if resultStatus res = 0 then 0x23 else resultStatus res)
    match s.hf.sent with
    | some .wupa =>
      if res = .noSof then bad s
      else actSend { op with cascade := 1 } (.select 1 (withBcc (nth (uidParts c.uid) 0 []))) s
    | some (.select lv _) =>
      match res, ans with
      | .ok, some (.sak b) =>
        if lv < (uidParts c.uid).length then
          actSend { op with cascade := lv + 1 } (.select (lv + 1) (withBcc (nth (uidParts c.uid) lv []))) s
        else
          let s1 := onCard op.handle (fun c => { c with sak := b }) s
          if op.level = 1 then activateDone op 2 false s1
          else actSend op (.rats op.fsdi op.cid) s1
      | _, _ => bad s
    | some (.rats _ _) =>
      match res, ans with
      | .ok, some (.ats bytes fsci fwi sfgi dsSet drSet cidOk) =>
        let op := { op with answer := bytes }
        if op.cid ≠ 0xFF ∧ cidOk = false then activateFail op 0x23 s
        else
          let s1 := actParams op fsci fwi sfgi s
          let ds := bestRate op.dsi dsSet
          let dr := bestRate (min op.dri 3) drSet
          if ds + dr = 0 then actHigh op s1 else actSend op (.pps ds dr) s1
      | _, _ => bad s
    | some (.pps ds dr) =>
      match res, ans with
      | .ok, some .ppsOk => actHigh op (onCard op.handle (fun c => { c with dsi := ds, dri := dr }) s)
      | _, _ => actHigh op s
    | some (.reqb ..) =>
      match res, ans with
      | .noSof, _ => bad s
      | .ok, some (.atqb pupi _ prot) =>
        attribSend op c (if pupi = c.uid then prot else c.prot) (onCard op.handle
          (fun c => if pupi = c.uid then { c with prot := prot } else c) s)
      | _, _ => attribSend op c c.prot s
    | some (.attrib ..) =>
      match res, ans with
      | .ok, some (.attribOk bytes) =>
        let op := { op with answer := bytes }
        let p := c.prot
        if op.cid ≠ 0xFF ∧ protCid p = false then activateFail op 0x23 s
        else
          actHigh op (onCard op.handle
            (fun c => { c with dsi := bestRate op.dsi (protDs p), dri := bestRate (min op.dri 3) (protDr p) })
            (actParams op (protFsci p) (protFwi p) (protSfgi p) s))
      | _, _ => bad s
    | some (.sParam ..) =>
      match res, ans with
      | .ok, some (.sParamOk dsSet drSet) =>
        activateDone op 3 false
          (onCard op.handle (fun c => { c with dsi := bestRate op.dsi dsSet, dri := bestRate op.dri drSet }) s)
      | _, _ => activateDone op 3 false s
    | some (.select15 _) =>
      match res, ans with
      | .ok, some (.ans15 flags _ _) => if flags.getLsbD 0 then activateFail op 0x23 s else activateDone op 5 true s
      | _, _ => bad s
    | _ => bad s

/-- The rule of one card without a CID in SELECTED or ISODEP, and of distinct CIDs, of which an abandoned card keeps its
own (R591; log 165). -/
def cidClash (s : State) (h cid : Nat) : Bool :=
  s.hf.cards.any fun c =>
    c.handle != h && c.cid == cid && (c.state == 3 || c.state == (if cid = 0xFF then 2 else 4))

def activateStart (e : Exec) (s : State) : State :=
  let p := e.pkt
  let b := Packet8 p
  let op : ActivateOp :=
    { handle := b 0, level := b 1, dsi := b 2, dri := b 3, fsdi := b 4, cid := b 5, copy := bit (b 6) 0
      off := Packet32 p 8, cascade := 0, answer := [], lq := 0, evm := 1000 }
  if b 0 = 0 ∨ 8 < b 0 ∨ 1 < b 1 ∨ 3 < b 2 ∨ 6 < b 3 ∨ 12 < b 4 ∨ (14 < b 5 ∧ b 5 ≠ 0xFF) then
    finish .hf 0x11 [] none s
  else if hfBusy s || !hfLit s || s.hf.rising then finish .hf 0x23 [] none s
  else
    match cardOf s (b 0) with
    | none => finish .hf 0x23 [] none s
    | some c =>
      if c.state = 3 ∨ c.state = 4 ∨ (c.tech = 1 ∧ b 1 = 1) ∨ (c.tech = 2 ∧ b 1 = 0)
          ∨ (c.tech ≠ 2 ∧ cidClash s (b 0) (if b 1 = 1 then 0xFF else b 5) = true) then
        finish .hf 0x23 [] none s
      else
        let s1 := if c.tech = 2 then s else onCard (b 0) (fun c =>
          { c with state := 1, cid := 0xFF, dsi := 0, dri := 0, fsci := 0, fwi := 0, sfgi := 0 }) s
        if c.tech = 0 then actSend op .wupa s1
        else if c.tech = 1 then actSend op (.reqb true none 0) s1
        else actSend op (.select15 c.uid) s1

def execHfActivate (s : State) : Host.Outcome State Fault Refusal :=
  .next (onLeased .hf 0x0302 activateStart s)

/-! ## HF_TRANSCEIVE and HF_15693_EXCHANGE (R611, R612, R630, R633) -/

/-- The bytes of an answer as a raw exchange sees them. -/
def answerBytes : HfAnswer → List Byte
  | .raw bs => bs
  | .ans15 flags err data => flags :: (if flags.getLsbD 0 then [err] else data)
  | .ats bs .. => bs
  | .attribOk bs => bs
  | .atqa v => le 2 v.toNat
  | .sak b => [b]
  | .uidBits bits => bytesOf bits
  | .atqb pupi app prot => 0x50 :: pupi ++ app ++ prot
  | .inv15 dsfid uid => 0 :: dsfid :: uid
  | _ => []

def rawBody (len : Nat) (res : FrameResult) (lq evm : Nat) (tail2 : List Byte) : List Byte :=
  let pos := match res with
    | .collision p => p
    | _ => 0xFFFF
  le 2 len ++ le 1 (resultCode res) ++ le 1 lq ++ le 2 evm ++ le 2 pos ++ tail2 ++ le 2 0

/-- The response flags and the error code of an answer: of every answer whose bits are sound (R633). -/
def flagBytes (res : FrameResult) : Option HfAnswer → List Byte
  | some (.ans15 flags err _) =>
    if res = .ok ∨ res = .overlong then [flags, if flags.getLsbD 0 then err else 0] else [0, 0]
  | _ => [0, 0]

def rawDone (op : RawOp) (res : FrameResult) (ans : Option HfAnswer) (lq evm : Nat) (s : State) : State :=
  match execOf s .hf with
  | none => s
  | some e =>
    let bs := (ans.map answerBytes).getD []
    let kept := if res = .noSof then [] else bs.take op.rxMax
    let extra := if op.is15 then flagBytes res ans else [0, 0]
    finish .hf (resultStatus res) (rawBody kept.length res lq evm extra) none
      (poundWrite e.pkt.tenant op.rxOff kept s)

/-- A handle that a raw exchange may name: none, or a record that is neither in ISODEP nor ABANDONED. -/
def rawHandleOk (s : State) (h : Nat) (is15 : Bool) : Bool :=
  h == 0 || match cardOf s h with
    | none => false
    | some c => c.state != 3 && c.state != 4 && (!is15 || c.tech == 2)

def transceiveStart (e : Exec) (s : State) : State :=
  let p := e.pkt
  let h := Packet8 p 0
  let fl := Packet8 p 1
  let n := Packet16 p 4
  let short := bit fl 2
  let t := Packet32 p 16
  let proto := if h = 0 then Packet8 p 2 else ((cardOf s h).map (·.tech)).getD 0
  if 8 < h ∨ (if h = 0 then 2 < Packet8 p 2 else Packet8 p 2 ≠ 0) ∨ n = 0 ∨ 4096 < n
      ∨ (short = true ∧ (n ≠ 1 ∨ proto ≠ 0)) ∨ Packet16 p 6 = 0 ∨ 4096 < Packet16 p 6 ∨ t < 100
      ∨ 5000000 < t then finish .hf 0x11 [] none s
  else if hfBusy s || !hfLit s || s.hf.rising || !rawHandleOk s h false then finish .hf 0x23 [] none s
  else
    let c := if h = 0 then none else cardOf s h
    hfSend (.raw (poundRead s p.tenant (Packet32 p 8) n) proto (bit fl 0) short ((c.map (·.dsi)).getD 0) ((c.map (·.dri)).getD 0)) t
      (setPhase .hf (.raw ⟨Packet16 p 6, Packet32 p 12, false, bit fl 1, h⟩) s)

def execHfTransceive (s : State) : Host.Outcome State Fault Refusal :=
  .next (onLeased .hf 0x0303 transceiveStart s)

/-- The response time of ISO/IEC 15693, 4384/fc, in µs (R612; log 191). -/
def response15 : Nat := 324

/-- Bytes of an ISO/IEC 15693 request: flags, command code, the UID where it is addressed, and the parameters (R470,
R612). -/
def request15 (h : Nat) (sel : Bool) (n : Nat) : Nat := 2 + (if h = 0 ∨ sel = true then 0 else 8) + n

def exchange15Start (e : Exec) (s : State) : State :=
  let p := e.pkt
  let h := Packet8 p 0
  let n := Packet16 p 4
  let t := Packet32 p 16
  let uid := if h = 0 then none else (cardOf s h).map (·.uid)
  if 8 < h ∨ 4092 < n ∨ 4096 < request15 h (bit (Packet8 p 2) 1) n ∨
      Packet16 p 6 = 0 ∨ 4096 < Packet16 p 6 ∨ t < 100 ∨ 5000000 < t then
    finish .hf 0x11 [] none s
  else if hfBusy s || !hfLit s || s.hf.rising || !rawHandleOk s h true then finish .hf 0x23 [] none s
  else
    let sel := bit (Packet8 p 2) 1
    hfSend (.req15 (Packet8 p 1) (bit (Packet8 p 2) 0) sel (if sel then none else uid)
        (poundRead s p.tenant (Packet32 p 8) n)) (max t response15)
      (setPhase .hf (.raw ⟨Packet16 p 6, Packet32 p 12, true, true, h⟩) s)

def execHf15693Exchange (s : State) : Host.Outcome State Fault Refusal :=
  .next (onLeased .hf 0x0308 exchange15Start s)

/-! ## HF_ISODEP_EXCHANGE (R602–R608, R631) -/

/-- Frame size of an FSCI or FSDI code of ISO/IEC 14443-4. -/
def frameSize (i : Nat) : Nat :=
  nth [16, 24, 32, 40, 48, 64, 96, 128, 256, 512, 1024, 2048, 4096] i 4096

/-- Information bytes of one block to a card (R602). -/
def blockMax (c : Card) : Nat := frameSize c.fsci - 3 - (if c.cid = 0xFF then 0 else 1)

/-- `m` times FWT in µs, rounded up (R603, R604). -/
def fwt (fwi m : Nat) : Nat := ceilDiv (3021 * 2 ^ fwi * m) 10

def isoWindow (s : State) (c : Card) : Nat := fwt c.fwi 1 + cfg s 0x223

def stick (n : Nat) : Nat := min 255 n

def isoBody (op : IsoOp) (abandoned : Bool) : List Byte :=
  le 4 op.rspLen ++ le 1 (stick op.sent) ++ le 1 (stick op.received) ++ le 1 (stick op.retrans)
    ++ le 1 (stick op.wtx) ++ le 1 op.lq ++ le 1 (b2n op.overflow + 2 * b2n abandoned) ++ le 2 op.evm ++ le 4 0

/-- A block to the card, not before its SFGT is over (R601). -/
def isoSend (op : IsoOp) (f : HfFrame) (win : Nat) (s : State) : State :=
  hfSendAt f win (((cardOf s op.handle).map (·.readyAt)).getD 0) (setPhase .hf (.iso { op with sent := op.sent + 1 }) s)

/-- The next block of the command (R602). -/
def isoNextBlock (op : IsoOp) (c : Card) (s : State) : State :=
  let inf := op.rest.take (blockMax c)
  let rest := op.rest.drop (blockMax c)
  let f : HfFrame := .iBlock op.num (rest != []) inf
  isoSend { op with rest := rest, last := f, retries := 0 } f (isoWindow s c) s

/-- The exchange ends, unless it is stopped at this boundary; its deadline leaves the record in ABANDONED (R608). -/
def isoEnd (op : IsoOp) (status : Nat) (f : State → State) (s : State) : State :=
  match (execOf s .hf).bind (stopDue s) with
  | none => finish .hf status (isoBody op false) none (f s)
  | some st =>
    if st = 0x15 then finish .hf st (isoBody op true) none (onCard op.handle (fun c => { c with state := 4 }) s)
    else finish .hf st (isoBody op false) none (f s)

/-- The exchange ends with its record in ISODEP. -/
def isoFinish (op : IsoOp) (s : State) : State :=
  isoEnd op (if op.overflow then 0x23 else 0)
    (onCard op.handle (fun c => { c with num := op.num, lq := op.lq, evm := op.evm })) s

/-- Error rules (R605): R(NAK), or R(ACK) while the card chains; then S(DESELECT) once. -/
def isoError (op : IsoOp) (c : Card) (status : Nat) (s : State) : State :=
  if op.retries < cfg s 0x221 then
    isoSend { op with retries := op.retries + 1, retrans := op.retrans + 1 }
      (if op.receiving then .rAck op.num else .rNak op.num) (isoWindow s c) s
  else isoSend { op with deselecting := some status } .sDeselect 5000 s

/-- Resends the last I-block (an R(ACK) with the other block number); field 0x0221 limits R(NAK) and R(ACK) only (R605).
-/
def isoResend (op : IsoOp) (c : Card) (s : State) : State :=
  isoSend { op with retrans := op.retrans + 1 } op.last (isoWindow s c) s

/-- Response bytes as far as the maximum allows (R606). -/
def isoStore (op : IsoOp) (tenant : Nat) (inf : List Byte) (s : State) : IsoOp × State :=
  let room := op.rspMax - op.rspLen
  let kept := inf.take room
  ({ op with rspLen := op.rspLen + kept.length, overflow := op.overflow || decide (room < inf.length) },
    poundWrite tenant (op.rspOff + op.rspLen) kept s)

def isoNext (op0 : IsoOp) (res : FrameResult) (ans : Option HfAnswer) (lq evm : Nat) (s : State) : State :=
  match execOf s .hf, cardOf s op0.handle with
  | some e, some c =>
    let op := if res = .noSof then op0 else { op0 with received := op0.received + 1, lq := lq, evm := evm }
    match op.deselecting with
    | some st => finish .hf st (isoBody op false) none (dropCard op.handle s)
    | none =>
      match res, ans with
      | .ok, some (.rAck n) =>
        if op.receiving then isoError op c 0x23 s
        else if n ≠ op.num then isoResend op c s
        else if op.rest = [] then isoError op c 0x23 s
        else isoNextBlock { op with num := !op.num } c s
      | .ok, some (.iBlock n chain inf) =>
        if n ≠ op.num ∨ op.rest ≠ [] then isoError op c 0x23 s
        else
          let r := isoStore { op with num := !op.num, receiving := true, retries := 0 } e.pkt.tenant inf s
          if chain then isoSend r.1 (.rAck r.1.num) (isoWindow s c) r.2 else isoFinish r.1 r.2
      | .ok, some (.sWtx m) =>
        if m = 0 ∨ 59 < m then isoError op c 0x23 s
        else
          let op := { op with wtx := op.wtx + 1 }
          let s1 := if cfg s 0x222 = 1 then
              raise 36 (m + 2 ^ 6 * op.handle + 2 ^ 10 * stick op.wtx) s else s
          isoSend op (.sWtx m) (min (fwt c.fwi m) 4949000 + cfg s 0x223) s1
      | .ok, _ => isoError op c 0x23 s
      | r, _ => isoError op c (resultStatus r) s
  | _, _ => s

def isoStart (e : Exec) (s : State) : State :=
  let p := e.pkt
  let h := Packet8 p 0
  let n := Packet32 p 4
  let m := Packet32 p 16
  if h = 0 ∨ 8 < h ∨ n = 0 ∨ 65535 < n ∨ m = 0 ∨ 65535 < m then finish .hf 0x11 [] none s
  else if hfBusy s || !hfLit s || s.hf.rising then finish .hf 0x23 [] none s
  else
    match cardOf s h with
    | none => finish .hf 0x23 [] none s
    | some c =>
      if c.state ≠ 3 then finish .hf 0x23 [] none s
      else
        let op : IsoOp :=
          { handle := h, rest := poundRead s p.tenant (Packet32 p 8) n, last := .sDeselect, num := c.num
            receiving := false, retries := 0, deselecting := none, rspOff := Packet32 p 12, rspMax := m
            rspLen := 0, sent := 0, received := 0, retrans := 0, wtx := 0, overflow := false, lq := 0, evm := 1000 }
        isoNextBlock op c s

def execHfIsodepExchange (s : State) : Host.Outcome State Fault Refusal :=
  .next (onLeased .hf 0x0304 isoStart s)

/-! ## HF_DESELECT, and the card handling before a lease passes (R589, R610, R632) -/

def deselectBody (op : DeselectOp) : List Byte := le 1 (stick op.halted) ++ le 1 (stick op.dropped) ++ le 2 0

/-- The first handle still to do that needs a frame, with the handles after it. -/
def deselectPick (s : State) (drop : Bool) : List Nat → Option (Nat × HfFrame × List Nat)
  | [] => none
  | h :: hs =>
    match (cardOf s h).bind fun c => deselectFrame c drop with
    | some f => some (h, f, hs)
    | none => deselectPick s drop hs

/-- The lease passes with its field on after the card handling (R244, R261): the table is dropped and
the grant follows 20 µs later. -/
def passLive (c : Chain) (s : State) : State :=
  let live := match c with
    | .hf => hfLit s
    | .uhf => uhfLit s || s.uhf.wantOn
  let s1 := chainUsersOff c s
  onLease c (fun l =>
    { l with holder := none, handover := true, dueAt := s.time + 20, afterReset := false, live := live, revoke := none }) s1

/-- Goes on to the next card, or ends. A LEASE_RELEASE whose lease has been revoked meanwhile passes nothing on
(R242, R245; log 51). -/
def deselectGo (l : LaneId) (op : DeselectOp) (s : State) : State :=
  match deselectPick s op.drop op.todo with
  | some (h, f, _) =>
    hfSendAt f (if f = .sDeselect then 5000 else 0) (((cardOf s h).map (·.readyAt)).getD 0)
      (setPhase l (.deselect { op with todo := op.todo.dropWhile (· != h) }) s)
  | none =>
    if op.drop then
      match execOf s l with
      | none => s
      | some e => match stopDue s e with
        | some st => finish l st [] none s
        | none => finish l 0 [] none (if s.hfLease.holder = some e.pkt.tenant then passLive .hf s else s)
    else finish l 0 (deselectBody op) none s

/-- After the frame to the first handle of `todo`. -/
def deselectNext (l : LaneId) (op : DeselectOp) (res : FrameResult) (ans : Option HfAnswer) (s : State) : State :=
  match op.todo with
  | [] => deselectGo l op s
  | h :: hs =>
    let op := { op with todo := hs }
    match s.hf.sent with
    | some .sDeselect =>
      if res = .ok ∧ ans = some .sDeselect then
        deselectGo l { op with halted := op.halted + 1 } (onCard h (fun c => { c with state := 1 }) s)
      else deselectGo l { op with dropped := op.dropped + 1 } (dropCard h s)
    | some (.stayQuiet _) =>
      deselectGo l { op with halted := op.halted + 1 } (onCard h (fun c => { c with state := 6 }) s)
    | _ => deselectGo l { op with halted := op.halted + 1 } (onCard h (fun c => { c with state := 1 }) s)

def deselectStart (e : Exec) (s : State) : State :=
  let h := Packet8 e.pkt 0
  let a := Packet8 e.pkt 1
  if (h = 0 ∨ 8 < h) ∧ h ≠ 0xFF ∨ 1 < a then finish .hf 0x11 [] none s
  else if hfBusy s || (h != 0xFF && (cardOf s h).isNone) then finish .hf 0x23 [] none s
  else
    let hs := if h = 0xFF then s.hf.cards.map (·.handle) else [h]
    if a = 1 then finish .hf 0 (deselectBody ⟨[], 0, 0, false⟩) none (hs.foldl (fun s h => dropCard h s) s)
    else deselectGo .hf ⟨hs, 0, 0, false⟩ s

def execHfDeselect (s : State) : Host.Outcome State Fault Refusal :=
  .next (onLeased .hf 0x0305 deselectStart s)

/-! ## Received frames -/

/-- What the packet that sent the last reader frame does with its answer, or with none. Where the field has gone at
the frame boundary, an exchange that needs it further ends at its yield point. -/
def hfContinue (res : FrameResult) (ans : Option HfAnswer) (lq evm : Nat) (s : State) : State :=
  match hfOwner s with
  | none => s
  | some l =>
    match execOf s l with
    | none => s
    | some e =>
      match e.phase with
      | .poll op => if hfLit s then pollNext op res ans lq evm s else s
      | .activate op => if hfLit s then activateNext op res ans lq evm s else s
      | .raw op => rawDone op res ans lq evm s
      | .iso op => if hfLit s then isoNext op res ans lq evm s else s
      | .deselect op => deselectNext l op res ans s
      | _ => s

/-- Frames received, and those with a result other than OK (R777). -/
def countHf (res : FrameResult) (s : State) : State :=
  let s1 := ctrAdd 0x28 1 s
  if res = .ok then s1 else ctrAdd 0x29 1 s1

/-- Sources 39 for a clipped reply (R394, R395). -/
def clipEvents (clipped : Bool) (s : State) : State :=
  if clipped then
    let s1 := raise 39 1 s
    if s.hf.gain = 0 then raise 39 2 s1 else s1
  else s

/-- A qualifying card reply feeds the offset estimate with its carrier level; it is complete after 4 (R545, R546). -/
def gatherHf (res : FrameResult) (lq : Nat) (carrier : Int) (s : State) : State :=
  if res = .ok ∧ 60 ≤ lq then
    let n := s.tow.hf.gather + 1
    let s1 := onTowLane .hf (fun t =>
      { t with
        gather := n % 4, sum := (if n = 1 then 0 else t.sum) + carrier
        est := if n = 4 then t.sum + carrier else t.est }) s
    if n = 4 then addDue .hf [.offset] s1 else s1
  else s

/-- The result of a frame of a raw exchange: its CRC counts only where the exchange asks for its check, and its bytes as
far as the command allows (R491, R611, R630). -/
def rawResult (op : RawOp) (res : FrameResult) (ans : HfAnswer) : FrameResult :=
  let r := if res = .crc ∧ op.rxCrc = false then .ok else res
  if r = .ok ∧ op.rxMax < (answerBytes ans).length then .overlong else r

/-- The result of a frame for the exchange that it belongs to. -/
def rxJudged (s : State) (res : FrameResult) (ans : HfAnswer) : FrameResult :=
  match (hfOwner s).bind (execOf s) with
  | none => res
  | some e =>
    match e.phase with
    | .raw op => rawResult op res ans
    | _ => res

/-- The record of the card that a frame has come from: the card of the exchange, or the one that HLTB named (R627). -/
def heardCard (s : State) : Option Nat :=
  match s.hf.sent with
  | some (.hltb pupi) => (s.hf.cards.find? fun c => c.tech == 1 && c.uid == pupi).map (·.handle)
  | _ => (frameCard s).map (·.handle)

/-- The last frame of a card gives its record's LQ and EVM (R627). -/
def cardHeard (lq evm : Nat) (s : State) : State :=
  match heardCard s with
  | some h => onCard h (fun c => { c with lq := lq, evm := evm }) s
  | none => s

def hfRx (res0 : FrameResult) (ans : HfAnswer) (m : RxMeas) (clipped : Bool) (s : State) : State :=
  if s.hf.wait.isNone || s.hf.tx.isSome || hfBusy s then s
  else
    let res := rxJudged s res0 ans
    let q := linkQuality s res m (hfNoise s)
    let s1 := gatherHf res q.1 m.carrier (clipEvents clipped (countHf res s.useFree))
    let s2 := hfBoundary (s1.onHf fun h =>
      { h with wait := none, sof := false, gapNs := 1000 * s.time + hfGap s })
    hfContinue res (some ans) q.1 q.2 (cardHeard q.1 q.2 s2)

def execHfRxFrame (res : FrameResult) (ans : HfAnswer) (m : RxMeas) (clipped : Bool) (s : State) :
    Host.Outcome State Fault Refusal :=
  .next (if res = .noSof then s else hfRx res ans m clipped s)

end Sys2Proof.Machine
end

