-- ==== Sys2Proof/Machine/Leases.lean ====
section
/-! DEFINITION. The leases of the chains: LEASE_ACQUIRE, LEASE_RELEASE, PREEMPT_LEASE, the grant and
the maximum hold (R240–R263). -/

namespace Sys2Proof.Machine

open Sys2Proof

/-! ## Grants -/

/-- The PLL or synthesiser of a chain. -/
def pllOf (s : State) : Chain → Pll
  | .hf => s.hf.pll
  | .uhf => s.uhf.synth

/-- The divider of a carrier frequency in kHz (R421): N + F/2^24 = 4·f / 27.12 MHz, F rounded to the nearest. -/
def dividerOf (f : Nat) : Nat × Nat := (f / 6780, roundDiv (f % 6780 * 2 ^ 24) 6780)

/-- The divider follows the channel in force. -/
def setDivider (s : State) : State :=
  match s.chr.inForce with
  | none => s
  | some c =>
    let d := dividerOf (nth c.raster s.uhf.index 0)
    s.onUhf fun u => { u with divN := d.1, divF := d.2 }

def setPll (c : Chain) (p : Pll) (s : State) : State :=
  match c with
  | .hf => s.onHf fun h => { h with pll := p }
  | .uhf => setDivider (s.onUhf fun u => { u with synth := p })

def chainLit (s : State) : Chain → Bool
  | .hf => hfEmits s
  | .uhf => uhfEmits s

/-- A chain in SLEEP or STANDBY, whose clocks are not monitored (R122). -/
def chainRests (s : State) : Chain → Bool
  | .hf => s.hf.radio == .sleep || s.hf.radio == .standby
  | .uhf => s.uhf.radio == .sleep || s.uhf.radio == .standby

/-- The clocks of a chain. -/
def chainClocks : Chain → List Clock
  | .hf => [.hftx, .hfrx]
  | .uhf => [.uhfbb]

/-- The clocks of a chain that rests are armed anew when it goes on: no bad window stays (R122). -/
def armClocks (c : Chain) (s : State) : State :=
  if chainRests s c then
    s.onClk fun k => { k with bad := (chainClocks c).foldl (fun l d => modAt l d.ctorIdx fun _ => 0) k.bad }
  else s

/-- The radio state of a chain whose output is off follows its lease and PLL (R361, R363). -/
def settleRadio (c : Chain) (s0 : State) : State :=
  let s := armClocks c s0
  match c with
  | .hf => if hfEmits s then s else s.onHf fun h => { h with radio := hfIdleRadio s }
  | .uhf => if uhfEmits s then s else s.onUhf fun u => { u with radio := uhfIdleRadio s }

def holdField : Chain → Nat
  | .hf => 0x800
  | .uhf => 0x801

/-- The eight bytes of a LEASE_ACQUIRE reply, with the maximum hold as configured at the grant (R260). -/
def acquireBody (s : State) (c : Chain) (flags : Nat) : List Byte :=
  le 1 flags ++ le 3 0 ++ le 4 (leaseOf s c).hold

/-- A grant (R245, R259, R260): source 24 or 55, and the reply of the LEASE_ACQUIRE that waited. -/
def grantTo (c : Chain) (w : Waiter) (s : State) : State :=
  let l := leaseOf s c
  let s1 := raise (match c with | .hf => 24 | .uhf => 55)
    (w.tenant + 8 * b2n l.afterReset + 16 * b2n l.live)
    (onLease c (fun l =>
      { l with holder := some w.tenant, handover := false, granting := none, grantAt := s.time
               afterReset := false, live := false, revoke := none, hold := cfg s (holdField c) }) s)
  let s2 := settleRadio c s1
  match w.exec with
  | none => s2
  | some e => replyExec e 0 (acquireBody s2 c (b2n l.afterReset + 2 * b2n l.live)) none s2

/-- A grant begins: it is raised at once where the PLL is locked, else when it locks (R260, R363, R418).
On a fenced chain no PLL runs, and the grant does not wait for one (R252). -/
def startGrant (c : Chain) (w : Waiter) (s : State) : State :=
  let s1 := onLease c (fun l => { l with granting := some w, handover := false }) s
  if pllOf s1 c = .locked ∨ fenced s1 (chainIndex c) = true then grantTo c w s1
  else settleRadio c (setPll c .starting s1)

/-- The PLL has locked while a grant is under way. A request past its deadline gets no grant, and an entry to a
low-power state makes none (R73, R247, R288). -/
def grantLocked (c : Chain) (s : State) : State :=
  let s1 := expireWaits c s
  match (leaseOf s1 c).granting with
  | none => s1
  | some w => if s1.pwr.entry.isSome then s1 else grantTo c w s1

/-- A grant under way whose chain is fenced waits for no PLL any more (R252, R260; log 50). -/
def fencedGrant (c : Chain) (s : State) : State :=
  if fenced s (chainIndex c) && (leaseOf s c).granting.isSome then grantLocked c s else s

/-- The lease becomes FREE: the chain returns to STANDBY (R361, R363). LEASE_AFTER_RESET stays for the next
grant (R254). -/
def freeLease (c : Chain) (s : State) : State :=
  settleRadio c (setPll c .off
    (onLease c (fun l => { l with holder := none, handover := false, live := false, revoke := none }) s))

/-- The grant step of R242, R243 and R244, without the requests that are past their deadline (R247). A chain kept lit
whose waiters have all left falls (log 214). -/
def grantStep (c : Chain) (s0 : State) : State :=
  let s := expireWaits c s0
  let l := leaseOf s c
  match l.queue with
  | [] => if l.live && chainLit s c then startHandover c l.afterReset s else freeLease c s
  | w :: ws => startGrant c w (onLease c (fun l => { l with queue := ws }) s)

/-- The grant step is due: the handover has run its fall, guard and grant step. -/
def grantReady (s : State) (c : Chain) : Bool :=
  let l := leaseOf s c
  l.handover && decide (l.dueAt ≤ s.time) && (l.live || !chainLit s c) && s.pwr.entry.isNone
    && s.pwr.state == .run

def execLeaseGrant (c : Chain) (s : State) : Host.Outcome State Fault Refusal :=
  .next (if grantReady s c then grantStep c s else s)

/-! ## LEASE_ACQUIRE (R250, R260) -/

/-- Where a tenant waits for a chain: in the queue or as the grant under way. -/
def waiterOf (l : Lease) (n : Nat) : Option Waiter :=
  (l.queue ++ l.granting.toList).find? fun w => w.tenant == n

/-- The Keeper's LEASE_ACQUIRE takes the place that PREEMPT_LEASE gave it. -/
def takePlace (c : Chain) (e : Exec) (s : State) : State :=
  let f := fun (w : Waiter) => if w.tenant = e.pkt.tenant then { w with exec := some e } else w
  onLease c (fun l => { l with queue := l.queue.map f, granting := l.granting.map f }) s

/-- FREE with no grant under way. -/
def leaseFree (s : State) (c : Chain) : Bool :=
  let l := leaseOf s c
  l.holder.isNone && !l.handover && l.granting.isNone && s.pwr.entry.isNone

/-- LEASE_ACQUIRE: R250 goes before the NO_WAIT of R260 (log 215). -/
def acquire (e : Exec) (s : State) : State :=
  let n := e.pkt.tenant
  if 1 < Packet8 e.pkt 0 then finish .house 0x11 [] none s
  else
    let c := chainOf (Packet8 e.pkt 0)
    let l := leaseOf s c
    let noWait := bit (Packet8 e.pkt 1) 0
    if l.holder = some n then finish .house 0 (acquireBody s c 4) none s
    else
      match waiterOf l n with
      | some w =>
        if w.exec.isSome then finish .house 0x23 [] none s
        else if noWait then finish .house 0x14 [] none s
        else takePlace c e (leaveLane .house s)
      | none =>
        if leaseFree s c then startGrant c ⟨n, some e⟩ (leaveLane .house s)
        else if noWait then finish .house 0x14 [] none s
        else onLease c (fun l => { l with queue := l.queue ++ [⟨n, some e⟩] }) (leaveLane .house s)

def execLeaseAcquire (s : State) : Host.Outcome State Fault Refusal :=
  .next (onFresh .house 0x0200 acquire s)

/-! ## LEASE_RELEASE (R242–R244, R261) -/

/-- A release without FIELD_KEEP, or without a waiter. The holder's packet on the chain's lane ends with
0x14 at its next yield point; the reply waits for a fall that the release starts. -/
def releaseNow (c : Chain) (s : State) : State :=
  let s1 := startHandover c false (stopLane (chainLane c) 0x14 s)
  let started := match c with
    | .hf => s1.hf.falling.isSome && s.hf.falling.isNone
    | .uhf => s1.uhf.falling.isSome && s.uhf.falling.isNone
  if started then setPhase .house (match c with | .hf => .fieldFall | .uhf => .carrierFall) s1
  else finish .house 0 [] none s1

/-- A release with FIELD_KEEP to a waiter, once no packet of the holder executes on the chain's lane: the
card handling of R589 on HF, S(DESELECT) first, then the grant step. -/
def releaseKeep (c : Chain) (s : State) : State :=
  match c with
  | .hf =>
    let iso := s.hf.cards.partition fun c => c.state == 3 || c.state == 4
    deselectGo .house ⟨(iso.1 ++ iso.2).map (·.handle), 0, 0, true⟩ s
  | .uhf => finish .house 0 [] none (passLive .uhf s)

def release (e : Exec) (s : State) : State :=
  if 1 < Packet8 e.pkt 0 then finish .house 0x11 [] none s
  else
    let c := chainOf (Packet8 e.pkt 0)
    if (leaseOf s c).holder ≠ some e.pkt.tenant then finish .house 0x14 [] none s
    else if bit (Packet8 e.pkt 1) 0 && (leaseOf s c).queue != [] then
      if holderExecuting c s then setPhase .house .leaseEnd (stopLane (chainLane c) 0x14 s)
      else releaseKeep c s
    else releaseNow c s

def execLeaseRelease (s : State) : Host.Outcome State Fault Refusal :=
  .next (onFresh .house 0x0201 release s)

/-! ## PREEMPT_LEASE (R251, R259) -/

/-- The Keeper takes the head of the queue, with the LEASE_ACQUIRE that waits if there is one. -/
def keeperFirst (c : Chain) (s : State) : State :=
  let l := leaseOf s c
  if l.holder = some 0 ∨ (l.granting.map (·.tenant)) = some 0 then s
  else
    let mine : Waiter := (l.queue.find? fun w => w.tenant == 0).getD ⟨0, none⟩
    onLease c (fun l => { l with queue := mine :: l.queue.filter fun w => w.tenant != 0 }) s

/-- A place at the head of a FREE lease's queue is granted at once. -/
def grantIfFree (c : Chain) (s : State) : State :=
  match (leaseOf s c).queue with
  | [] => s
  | w :: ws =>
    if leaseFree s c then startGrant c w (onLease c (fun l => { l with queue := ws }) s) else s

/-- PREEMPT_LEASE (R251, R259). During a grant under way there is no holder: only the queue changes (log 213). -/
def preempt (e : Exec) (s : State) : State :=
  if 1 < Packet8 e.pkt 0 then finish .house 0x11 [] none s
  else
    let c := chainOf (Packet8 e.pkt 0)
    let s1 := if bit (Packet8 e.pkt 1) 0 then keeperFirst c s else s
    match (leaseOf s1 c).holder with
    | none => finish .house 0 [] none (grantIfFree c s1)
    | some 0 => finish .house 0 [] none s1
    | some _ =>
      if holderExecuting c s1 then
        setPhase .house .leaseEnd (onLease c (fun l => { l with revoke := some 2 }) s1)
      else finish .house 0 [] none (revokeLease c 2 s1)

def execPreemptLease (s : State) : Host.Outcome State Fault Refusal :=
  .next (onFresh .house 0x0105 preempt s)

/-! ## The maximum hold (R246, R248) -/

/-- The maximum hold of the holder has passed and a tenant waits. -/
def holdOver (s : State) (c : Chain) : Bool :=
  let l := leaseOf s c
  l.holder.isSome && l.queue != [] && l.revoke.isNone
    && decide (l.grantAt + 1000 * cfg s (holdField c) ≤ s.time)

def execLeaseHoldExpiry (c : Chain) (s : State) : Host.Outcome State Fault Refusal :=
  .next <|
    if holdOver s c then
      if holderExecuting c s then onLease c (fun l => { l with revoke := some 1 }) s
      else revokeLease c 1 s
    else s

end Sys2Proof.Machine
end

