-- ==== Sys2Proof/Machine/HfChain.lean ====
section
/-! DEFINITION. The HF chain: HF_FIELD, the tuner and its retune, low-power card detection, the AGC
and the moments of the field (R361–R416). -/

namespace Sys2Proof.Machine

open Sys2Proof

/-! ## HF_FIELD (R368–R370, R408–R411) -/

/-- The power checked for a command that names a chain's power field: `v` 0 keeps the value in force, whose
budget check comes when the output is lit (R408, R457). -/
def powerCheck (s : State) (n : Nat) (lit : Bool) (id v : Nat) : Checked :=
  match fieldDef id with
  | none => ⟨cfgI s id, [], false, false⟩
  | some f =>
    if v = 0 then checkBudget s lit f (checkCharter s f ⟨cfgI s id, [], true, false⟩)
    else checkEntry s n lit f v

/-- The checked value goes into its field, and its clamp entry into the packet's reply. -/
def powerApply (l : LaneId) (id v : Nat) (c : Checked) (s : State) : State :=
  let req : Int := if v = 0 then cfgI s id else v
  let s1 := if c.apply then setField id c.value s else s
  onExec l (fun e =>
    { e with clamps := e.clamps ++ clampOf id req c, prior := if c.apply then some (cfgI s id, c.value) else e.prior }) s1

/-- Body of HF_FIELD (R410); a falling field is off. -/
def hfFieldBody (s : State) : List Byte :=
  (if hfUp s then le 4 (s.hf.step * 31250) ++ le 2 s.hf.iAnt else le 6 0)
    ++ le 1 s.cal.hf.series ++ le 1 s.cal.hf.parallel

/-- The field starts to rise at a step and has settled `wait` µs later (R369, R370); an LPCD run stops (R404). -/
def hfRise (k wait : Nat) (s : State) : State :=
  uhfYields <| (hfApplyStep k s).onHf fun h =>
    { h with
      rising := true, riseEnd := s.time + wait, loopUntil := s.time + wait, radio := .synth, cut := false, sof := false
      lpcd := { h.lpcd with run := false, hits := 0 }, cards := [] }

/-- An HF_FIELD that asks for it senses before it lights the field (R397, R409). -/
def extCheck (e : Exec) : Bool := bit (Packet8 e.pkt 1) 0

/-- Lights the field, or ends the command with 0x42 (R370): the grant is taken at once, sensing ends 100 µs after the
command, and without it START is 5 µs after it. -/
def hfLight (e : Exec) (s : State) : State :=
  let v := Packet32 e.pkt 4
  let c := powerCheck s e.pkt.tenant true 0x200 v
  let s1 := powerApply .hf 0x200 v c s
  let k := cfg s1 0x200 / 31250
  if c.noRoom then finish .hf 0x42 (hfFieldBody s1) none s1
  else if extCheck e then
    setPhase .hf (.sense (s1.time + 100)) (uhfYields (setHfGrant (hfDraw s1 k) (s1.onHf fun h => { h with nextStep := some k })))
  else setPhase .hf .fieldRise (hfRise k 65 s1)

/-- Sensing ends: the field rises, or the command ends with 0x23 for an external field (R370, R397). -/
def senseEnd (s : State) : State :=
  if s.hf.ext then
    finish .hf 0x23 (hfFieldBody s) none (hfIdle (setHfGrant 0 (s.onHf fun h => { h with nextStep := none })))
  else setPhase .hf .fieldRise (hfRise (s.hf.nextStep.getD 0) 60 s)

/-- What time does to an HF_FIELD that senses: LISTEN for the last 80 µs, then the end. -/
def hfSenseTick (s : State) : State :=
  match s.hfLane.exec with
  | none => s
  | some e =>
    match e.phase with
    | .sense t =>
      if (stopDue s e).isSome then s
      else if t ≤ s.time then senseEnd s
      else if t ≤ s.time + 80 ∧ (s.hf.radio ≠ .listen ∨ t = s.time + 80) then s.onHf fun h => { h with radio := .listen, ext := false }
      else s
    | _ => s

/-- Changes the power of a field that is on or rising, or the value in force with the field off (R411). Where nothing
changes, the reply shows the antenna current of the moment, `iAnt` (R410). -/
def hfChange (iAnt : Nat) (e : Exec) (s : State) : State :=
  let v := Packet32 e.pkt 4
  let c := powerCheck s e.pkt.tenant (hfUp s) 0x200 v
  let s1 := powerApply .hf 0x200 v c s
  if c.noRoom then
    let s2 := if hfLit s1 && !s1.hf.rising then s1.onHf fun h => { h with iAnt := iAnt } else s1
    finish .hf 0x42 (hfFieldBody s2) none s2
  else if hfUp s then setPhase .hf .settle (hfNewStep (cfg s1 0x200 / 31250) s1)
  else finish .hf 0 (hfFieldBody s1) none s1

/-- Action 0; a power that it names is checked and kept for the next field (R409). -/
def hfOff (e : Exec) (s : State) : State :=
  let v := Packet32 e.pkt 4
  let s1 := if v = 0 then s else powerApply .hf 0x200 v (powerCheck s e.pkt.tenant false 0x200 v) s
  if hfEmits s1 then setPhase .hf .fieldFall (hfFall 0 s1) else finish .hf 0 (hfFieldBody s1) none s1

/-- A falling field counts as off: action 1 waits for the end of the fall. -/
def hfField (iAnt : Nat) (e : Exec) (s : State) : State :=
  let a := Packet8 e.pkt 0
  if 2 < a then finish .hf 0x11 [] none s
  else if a = 0 then hfOff e s
  else if hfBusy s then finish .hf 0x23 [] none s
  else if (charter s).isNone then finish .hf 0x40 [] none s
  else if a = 2 ∨ hfUp s = true then hfChange iAnt e s
  else if !hfAllowed s then finish .hf 0x40 [] none s
  else if s.hf.falling.isSome then setPhase .hf .fieldFall s
  else hfLight e s

def execHfField (iAnt : Nat) (s : State) : Host.Outcome State Fault Refusal :=
  .next (onLeased .hf 0x0300 (hfField iAnt) s)

/-! ## PLL and drivers (R363, R371, R374) -/

def execHfPllLocked (s : State) : Host.Outcome State Fault Refusal :=
  .next <|
    if s.hf.pll = .starting then grantLocked .hf (settleRadio .hf (setPll .hf .locked s)) else s

def execHfPllUnlock (s : State) : Host.Outcome State Fault Refusal :=
  .next (if s.hf.pll = .locked then fenceUnit 0 5 0 s else s)

def execDriverCurrentLimit (s : State) : Host.Outcome State Fault Refusal :=
  .next (if hfEmits s ∧ s.hf.drive = 0 then fenceUnit 0 6 0 s else s)

/-- Measured field power over the step's power, as nW: I² · R_ANT against k · 31.25 mW (R365, R366). -/
def fieldNw (s : State) (iAnt : Nat) : Nat := iAnt * iAnt * s.cal.hf.rAnt
def setpointNw (s : State) : Nat := s.hf.step * 31250000

/-- I_ANT more than 0.5 dB below the setpoint (R371). -/
def currentLow (s : State) (iAnt : Nat) : Bool := decide (10 * fieldNw s iAnt ^ 20 < setpointNw s ^ 20)

/-- I_ANT within 0.25 dB below the setpoint or above it: the loop meets it (R366). -/
def setpointMet (s : State) (iAnt : Nat) : Bool := decide (setpointNw s ^ 40 ≤ 10 * fieldNw s iAnt ^ 40)

/-- I_ANT within 0.25 dB above the setpoint or below it (R366). -/
def setpointHeld (s : State) (iAnt : Nat) : Bool := decide (fieldNw s iAnt ^ 40 ≤ 10 * setpointNw s ^ 40)

/-- The loop stands within ±0.25 dB of its setpoint or at its limit (R366, R371). -/
def loopDone (iAnt drive : Nat) (s : State) : Bool :=
  (setpointMet s iAnt && (setpointHeld s iAnt || drive == 0)) || decide (1023 ≤ drive)

/-- The drive is held: in a frame and its reply window, and while a tuner step switches (R367, R380; log 244). -/
def driveHeld (s : State) : Bool := hfInFrame s || (towLane s .hf).step == some .tuner

/-- One µs of a loop that settles: the drive level moves, and on which path is not stated (R366; log 205). Off 1023 it
is at its limit no more (R371). -/
def loopTick (s : State) : State :=
  if hfUp s && !driveHeld s && decide (s.time < s.hf.loopUntil) then
    let d := freeBelow s 1024
    State.useFree (s.onHf fun h => { h with drive := d, lowSince := if d = 1023 then h.lowSince else none })
  else s

/-- Where the loop stands, with a drive level of 10 bits: it has settled, or its load has changed and it has 20 µs more
(R366, R371; log 244). -/
def loopSettled (iAnt drive : Nat) (s : State) : State :=
  let d := min 1023 drive
  let low := currentLow s iAnt && d == 1023
  let met := setpointMet s iAnt
  s.onHf fun h =>
    { h with
      iAnt := iAnt, drive := d, limited := h.limited && !met
      lowSince := if low then some (h.lowSince.getD s.time) else none
      loopUntil := if loopDone iAnt drive s then s.time else s.time + 20 }

/-- The drive has stayed at 1023 below the setpoint for the time of field 0x020B (R371, R395). -/
def loopLimited (s : State) : Bool :=
  s.hf.drive == 1023 && s.hf.lowSince.any fun t => decide (t + cfg s 0x20B ≤ s.time)

def execPowerLoopLimit (step : Nat) (s : State) : Host.Outcome State Fault Refusal :=
  .next <|
    if hfLit s ∧ s.hf.rising = false ∧ s.hf.limited = false ∧ loopLimited s = true then
      let s1 := raise 21 (min 64 step) (s.onHf fun h => { h with limited := true })
      if s.hf.wait.isSome then raise 39 3 s1 else s1
    else s

/-! ## Mismatch and tuner (R377–R385) -/

/-- |1 − m| in units of 1/1024. -/
def magOff (m : Nat) : Nat := max m 1024 - min m 1024

/-- Outside the alarm band (R378). -/
def mismatched (s : State) (phi : Int) (m : Nat) : Bool :=
  decide (cfg s 0x208 < phi.natAbs) || decide (cfg s 0x209 < magOff m)

/-- Inside the converged band, a quarter of the alarm band (R381). -/
def converged (s : State) (phi : Int) (m : Nat) : Bool :=
  decide (4 * phi.natAbs ≤ cfg s 0x208) && decide (4 * magOff m ≤ cfg s 0x209)

def clampInt (lo hi x : Int) : Int := max lo (min hi x)

/-- Payload of source 19 (R406). -/
def mismatchPayload (phi : Int) (m : Nat) : Nat :=
  ((clampInt (-2047) 2047 phi) % 4096).toNat + 2 ^ 12 * min 4095 m

def retuneStart : Retune := ⟨8, 8, 0, 0, 0, 0, 0, 0, 0⟩

/-- The better codes are kept: the lowest max(|φ|/PH_TH, |1−m|/MAG_TH) so far (R381). -/
def keepBest (s : State) (r : Retune) (cs cp : Nat) (phi : Int) (m : Nat) : Retune :=
  let cost := fun (p g : Nat) => max (p * cfg s 0x209) (g * cfg s 0x208)
  if r.n = 0 ∨ cost phi.natAbs (magOff m) < cost r.bestPhi r.bestMag then
    { r with bestS := cs, bestP := cp, bestPhi := phi.natAbs, bestMag := magOff m }
  else r

/-- An automatic retune starts from the measurement that alarmed, where the towpath can run it (R379, R383). -/
def autoRetune (s : State) : State :=
  if cfg s 0x207 = 1 ∧ s.hf.retune.isNone ∧ retuneRuns s = true then
    addDue .hf [.tuner]
      (s.onHf fun h =>
        { h with retune := some (keepBest s retuneStart s.cal.hf.series s.cal.hf.parallel s.hf.phi s.hf.mag) })
  else s

def mismatchMeasured (phi : Int) (m : Nat) (s : State) : State :=
  if mismatched s phi m then
    let s1 := s.onHf fun h => { h with phi := phi, mag := m, measAt := s.time + 100, bad := h.bad + 1 }
    if 3 ≤ s1.hf.bad ∧ s1.hf.alarm = false then
      autoRetune (raise 19 (mismatchPayload phi m) (s1.onHf fun h => { h with alarm := true }))
    else s1
  else s.onHf fun h => { h with phi := phi, mag := m, measAt := s.time + 100, bad := 0, alarm := false }

/-- A measurement is due in a carrier-only interval, once every 100 µs (R378). -/
def measureDue (s : State) : Bool :=
  hfLit s && s.hf.radio == .rx && !hfInFrame s && decide (s.hf.measAt ≤ s.time)

def execMismatchMeasurement (phi : Int) (m : Nat) (s : State) : Host.Outcome State Fault Refusal :=
  .next (if measureDue s then mismatchMeasured phi m s else s)

/-- One step of a bank: the step halves where the direction turns. -/
def bankStep (d last : Int) (step code : Nat) : Nat × Nat :=
  let st := if d = -last ∧ 1 < step then step / 2 else step
  (st, (clampInt 0 63 ((code : Int) + d * st)).toNat)

/-- One turn of the search on codes (cs, cp): whether it converged, the search after it, the new codes. -/
def tuneTurn (s : State) (r0 : Retune) (cs cp : Nat) (phi : Int) (m : Nat) : Bool × Retune × Nat × Nat :=
  let r := keepBest s r0 cs cp phi m
  if converged s phi m then (true, r, cs, cp)
  else if cfg s 0x208 < 4 * phi.natAbs then
    let d : Int := if 0 < phi then -1 else 1
    let b := bankStep d r.lastS r.ss cs
    (false, { r with ss := b.1, lastS := d, n := r.n + 1 }, b.2, cp)
  else
    let d : Int := if m < 1024 then 1 else -1
    let b := bankStep d r.lastP r.sp cp
    (false, { r with sp := b.1, lastP := d, n := r.n + 1 }, cs, b.2)

/-- The search of R381 over measurements taken one after another: converged, codes, steps, last
measurement. It ends at 24 turns, or where the measurements end. -/
def tuneSearch (s : State) : Nat → Retune → Nat → Nat → Int × Nat → List (Int × Nat) →
    Bool × Nat × Nat × Nat × (Int × Nat)
  | 0, r, _, _, last, _ => (false, r.bestS, r.bestP, r.n, last)
  | _ + 1, r, _, _, last, [] => (false, r.bestS, r.bestP, r.n, last)
  | k + 1, r, cs, cp, _, (phi, m) :: ms =>
    match tuneTurn s r cs cp phi m with
    | (true, r1, cs1, cp1) => (true, cs1, cp1, r1.n, (phi, m))
    | (false, r1, cs1, cp1) => tuneSearch s k r1 cs1 cp1 (phi, m) ms

/-- Result code of R414. -/
def tuneResult (s : State) (phi : Int) (m : Nat) : Nat :=
  if converged s phi m then 0 else if mismatched s phi m then 2 else 1

def tuneBody (s : State) (cs cp n : Nat) (last : Int × Nat) (iAnt : Nat) : List Byte :=
  le 1 cs ++ le 1 cp ++ le 1 n ++ le 1 (tuneResult s last.1 last.2) ++ leInt 2 last.1
    ++ le 2 (min 65535 last.2) ++ le 2 iAnt ++ le 2 0

/-- What a HF_TUNE does, as the body of its reply (R413, R414). -/
def tuneOutcome (e : Exec) (ms : List (Int × Nat)) (iAnt : Nat) (s : State) : List Byte :=
  let k := s.cal.hf
  let last := (ms.head?).getD (s.hf.phi, s.hf.mag)
  match Packet8 e.pkt 0 with
  | 0 => tuneBody s k.series k.parallel 0 last iAnt
  | 1 =>
    let r := tuneSearch s 24 { retuneStart with bestS := k.series, bestP := k.parallel } k.series k.parallel last ms
    tuneBody s r.2.1 r.2.2.1 r.2.2.2.1 r.2.2.2.2 iAnt
  | _ => tuneBody s (Packet8 e.pkt 1) (Packet8 e.pkt 2) 0 last iAnt

/-- Payload of source 20 (R406). -/
def retunedPayload (cs cp : Nat) (conv : Bool) (n : Nat) : Nat :=
  cs + 2 ^ 6 * cp + 2 ^ 12 * b2n conv + 2 ^ 13 * n

/-- The outcome takes effect: codes, measurement, and source 20 after a search. -/
def tuneApply (e : Exec) (body : List Byte) (s : State) : State :=
  let cs := fieldOf body 0 1
  let cp := fieldOf body 1 1
  let s1 := setCodes cs cp (s.onHf fun h =>
    { h with
      phi := signed 16 (fieldOf body 4 2), mag := fieldOf body 6 2
      iAnt := if hfUp s then fieldOf body 8 2 else h.iAnt })
  if Packet8 e.pkt 0 = 1 then
    raise 20 (retunedPayload cs cp (fieldOf body 3 1 == 0) (fieldOf body 2 1)) s1
  else s1

/-- The field is lit at step 1 for the measurement. -/
def tuneLight (body : List Byte) (s : State) : State :=
  if (charter s).isNone || !hfAllowed s then finish .hf 0x40 [] none s
  else if s.pwr.warn ∨ hfFit s (hfRoom s) 1 = 0 then finish .hf 0x42 [] none s
  else setPhase .hf (.runRise [] body) (hfRise 1 60 s)

/-- During a frame the tuner and its measurement wait for the frame's end (R377, R384); mode 2 knows its codes already.
-/
def tuneSet (e : Exec) (body : List Byte) (s : State) : State :=
  if hfFrameRuns s then
    setPhase .hf (.tuneWait body) (s.onHf fun h =>
      { h with nextCodes := if Packet8 e.pkt 0 = 2 then some (Packet8 e.pkt 1, Packet8 e.pkt 2) else h.nextCodes })
  else finish .hf 0 body none (tuneApply e body s)

/-- The frame that held back new codes has ended. -/
def tuneTick (s : State) : State :=
  match s.hfLane.exec with
  | none => s
  | some e =>
    match e.phase with
    | .tuneWait body =>
      if hfFrameRuns s || (stopDue s e).isSome then s
      else finish .hf 0 body none (tuneApply e body (s.onHf fun h => { h with nextCodes := none }))
    | _ => s

def hfTune (ms : List (Int × Nat)) (iAnt : Nat) (e : Exec) (s : State) : State :=
  let mode := Packet8 e.pkt 0
  let cs := Packet8 e.pkt 1
  let cp := Packet8 e.pkt 2
  if 2 < mode ∨ 63 < cs ∨ 63 < cp ∨ (mode ≠ 2 ∧ (cs ≠ 0 ∨ cp ≠ 0)) then finish .hf 0x11 [] none s
  else if mode ≠ 2 ∧ s.emu.armed = true then finish .hf 0x23 [] none s
  else
    let s0 := if mode = 0 then s else abandonRetune s
    let body := tuneOutcome e ms iAnt s0
    if mode = 2 then tuneSet e body s0
    else if s0.hf.falling.isSome then setPhase .hf (.runWait [] body) s0
    else if s0.hf.rising then setPhase .hf (.runOn [] body) s0
    else if hfLit s0 then tuneSet e body s0
    else tuneLight body s0

def execHfTune (ms : List (Int × Nat)) (iAnt : Nat) (s : State) : Host.Outcome State Fault Refusal :=
  .next (onLeased .hf 0x0306 (hfTune ms iAnt) s)

/-! ## Low-power card detection (R398–R405, R415, R416) -/

def lpcdBody (s : State) : List Byte := le 1 s.hf.lpcd.aBase ++ le 1 s.hf.lpcd.nBase ++ le 2 0

/-- The parameters are stored; with RUN_NOW a run begins, whose first measurement may come at once. A run that goes
on takes the new parameters (R404, R416; log 176). -/
def lpcdStore (p : Packet) (s : State) : State :=
  let fl := Packet8 p 5
  let starts := bit fl 0 || bit fl 2
  s.onHf fun h =>
    { h with lpcd :=
      { h.lpcd with
        period := Packet16 p 0, aThr := Packet8 p 2, nThr := Packet8 p 3, confirm := Packet8 p 4
        track := bit fl 1, run := bit fl 0 || h.lpcd.run, hits := if starts then 0 else h.lpcd.hits
        next := if starts then nowAon s else h.lpcd.next } }

def lpcdArm (e : Exec) (s : State) : State :=
  let p := e.pkt
  let fl := Packet8 p 5
  if (bit fl 0 || bit fl 2) && !holds s .hf p.tenant then finish .hf 0x14 [] none s
  else if Packet16 p 0 < 10 ∨ 1000 < Packet16 p 0 ∨ Packet8 p 2 = 0 ∨ Packet8 p 3 = 0 ∨ 63 < Packet8 p 3
      ∨ Packet8 p 4 = 0 ∨ 4 < Packet8 p 4 then finish .hf 0x11 [] none s
  else if bit fl 0 = false ∧ bit fl 2 = false then finish .hf 0 (lpcdBody s) none (lpcdStore p s)
  else if hfEmits s || hfBusy s then finish .hf 0x23 [] none s
  else
    let s1 := lpcdStore p s
    if bit fl 2 then setPhase .hf (.lpcdBase 8 0 0) s1 else finish .hf 0 (lpcdBody s1) none s1

def execHfLpcdArm (s : State) : Host.Outcome State Fault Refusal :=
  .next (onFresh .hf 0x0307 lpcdArm s)

/-- R403: FDET asserted, or within 20 ms after a field fall. -/
def lpcdDiscard (s : State) : Bool :=
  s.pins.fdet || (s.hf.fallEnd != 0 && decide (nowAon s < s.hf.fallEnd + 20000))

/-- A sixteenth of the difference towards the measurement, rounded towards it (R401). -/
def trackTo (base m : Nat) : Nat :=
  if base ≤ m then base + ceilDiv (m - base) 16 else base - ceilDiv (base - m) 16

/-- A hit is confirmed (R400): source 18; a run stops, and the LPCD state is left. -/
def lpcdHit (a n : Nat) (byA byN : Bool) (s : State) : State :=
  let s1 := raise 18 (a % 256 + 2 ^ 8 * (n % 64) + 2 ^ 14 * b2n byA + 2 ^ 15 * b2n byN)
    (s.onHf fun h => { h with lpcd := { h.lpcd with run := false, hits := 0 } })
  if s.pwr.state = .lpcd then s1.onPwr fun p => { p with wakes := p.wakes ++ [.lpcdHit] } else s1

/-- The next measurement comes no sooner than `us` from now (R398, R399, R402). -/
def lpcdNext (us : Nat) (s : State) : State := s.onHf fun h => { h with lpcd := { h.lpcd with next := nowAon s + us, lastAt := nowAon s } }

/-- A measurement compared with the baseline (R399, R401): a hit to be confirmed is measured again after 1 ms. -/
def lpcdCompare (a n : Nat) (s : State) : State :=
  let l := s.hf.lpcd
  let byA : Bool := decide (l.aThr ≤ absDiff a l.aBase)
  let byN : Bool := decide (l.nThr ≤ absDiff n l.nBase)
  if byA || byN then
    if l.confirm ≤ l.hits + 1 then lpcdHit a n byA byN (lpcdNext (1000 * l.period) s)
    else lpcdNext 1000 (s.onHf fun h => { h with lpcd := { h.lpcd with hits := h.lpcd.hits + 1 } })
  else
    lpcdNext (1000 * l.period) (s.onHf fun h =>
      { h with lpcd :=
        { h.lpcd with
          hits := 0
          aBase := if l.track then trackTo l.aBase a else l.aBase
          nBase := if l.track then trackTo l.nBase n else l.nBase } })

/-- One of the 8 measurements of a REBASE (R402), or of CAL_RUN type 3. -/
def lpcdRebase (left aSum nSum a n : Nat) (s : State) : State :=
  if 1 < left then setPhase .hf (.lpcdBase (left - 1) (aSum + a) (nSum + n)) s
  else
    let s1 := s.onHf fun h =>
      { h with lpcd := { h.lpcd with aBase := roundDiv (aSum + a) 8, nBase := roundDiv (nSum + n) 8, rebased := true } }
    finish .hf 0 (lpcdBody s1) none s1

/-- CAL_RUN's LPCD baseline goes into the values in force. -/
def lpcdCal (left aSum nSum a n : Nat) (s : State) : State :=
  if 1 < left then setPhase .hf (.lpcdBase (left - 1) (aSum + a) (nSum + n)) s
  else
    let s1 := s.onCal fun c => { c with hf := { c.hf with aBase := roundDiv (aSum + a) 8, nBase := roundDiv (nSum + n) 8 } }
    let s2 := lpcdFromBank s1.cal.hf s1
    finish .hf 0 (le 1 0 ++ le 1 3 ++ le 2 0 ++ le 1 s1.cal.hf.aBase ++ le 1 s1.cal.hf.nBase ++ le 10 0) none s2

/-- The packet that takes a baseline, if one does. -/
def baselining (s : State) : Option Phase :=
  match s.hfLane.exec with
  | none => none
  | some e => match e.phase with
    | .lpcdBase .. => some e.phase
    | _ => none

/-- A measurement at its moment: for a baseline, every 1 ms, or for the comparison, at each period. One that is
discarded leaves nothing, and a fenced chain makes none (R375, R398, R402, R403). -/
def lpcdMeasured (a n : Nat) (s : State) : State :=
  match baselining s with
  | some (.lpcdBase k x y) =>
    if lpcdDiscard s then lpcdNext 1000 s
    else
      let s1 := lpcdNext 1000 s
      if (s.hfLane.exec.map fun e => e.pkt.opcode) = some 0x0600 then lpcdCal k x y a n s1 else lpcdRebase k x y a n s1
  | _ =>
    if s.hf.lpcd.run ∨ s.pwr.state = .lpcd then
      (if lpcdDiscard s then lpcdNext (1000 * s.hf.lpcd.period) s else lpcdCompare a n s)
    else s

def execLpcdMeasurement (a n : Nat) (s : State) : Host.Outcome State Fault Refusal :=
  .next (if fenced s 0 = true ∨ nowAon s < s.hf.lpcd.next then s else lpcdMeasured a n s)

/-! ## AGC (R388–R392, R450–R452) -/

/-- round(8191 · 10^(−t/20)) for t = 0 … 80 (R389). -/
def peakCodes : List Nat := [
  8191, 7300, 6506, 5799, 5168, 4606, 4105, 3659, 3261, 2906, 2590, 2309, 2057, 1834, 1634, 1457,
  1298, 1157, 1031, 919, 819, 730, 651, 580, 517, 461, 411, 366, 326, 291, 259, 231,
  206, 183, 163, 146, 130, 116, 103, 92, 82, 73, 65, 58, 52, 46, 41, 37,
  33, 29, 26, 23, 21, 18, 16, 15, 13, 12, 10, 9, 8, 7, 7, 6,
  5, 5, 4, 4, 3, 3, 3, 2, 2, 2, 2, 1, 1, 1, 1, 1,
  1]

/-- The peak code of a threshold of −t dBFS. -/
def peakCode (t : Nat) : Nat := nth peakCodes t 0

structure AgcView where
  auto : Bool
  runs : Bool
  gain : Nat
  top : Nat
  high : Nat
  low : Nat
  quiet : Nat
  dwellDone : Bool
deriving DecidableEq, Repr

/-- The AGC of a chain as it stands: whether it runs, held from a start of frame to that frame's end (R390, R451), gain
and its top, the two thresholds as codes, quiet windows so far, and whether one more completes the dwell. -/
def agcView (s : State) : Chain → AgcView
  | .hf =>
    let hi := (cfgI s 0x203).natAbs
    { auto := cfg s 0x201 == 0, runs := (s.hf.radio == .listen || s.hf.radio == .rx) && !s.hf.sof
      gain := s.hf.gain, top := 15, high := peakCode hi, low := peakCode (hi + 3 + cfg s 0x204)
      quiet := s.hf.quiet, dwellDone := decide (1356 * cfg s 0x205 ≤ 1600 * (s.hf.quiet + 1)) }
  | .uhf =>
    let hi := (cfgI s 0x303).natAbs
    { auto := cfg s 0x301 == 0, runs := (s.uhf.radio == .listen || s.uhf.radio == .rx) && !s.uhf.sof
      gain := s.uhf.gain, top := 30, high := peakCode hi, low := peakCode (hi + 3 + cfg s 0x304)
      quiet := s.uhf.quiet, dwellDone := decide (cfg s 0x305 ≤ s.uhf.quiet + 1) }

def setQuiet (c : Chain) (q : Nat) (s : State) : State :=
  match c with
  | .hf => s.onHf fun h => { h with quiet := q }
  | .uhf => s.onUhf fun u => { u with quiet := q }

/-- A gain step (R392, R452): source 23 or 65 is raised where it is wanted. -/
def gainStep (c : Chain) (k : Nat) (clip : Bool) (s : State) : State :=
  let s1 := newGain c k s
  match c with
  | .hf => if cfg s 0x206 = 1 then raise 23 (k + 16 * b2n clip) s1 else s1
  | .uhf => if cfg s 0x306 = 1 then raise 65 (k + 32 * b2n clip) s1 else s1

/-- The demodulator has found a start of frame: the gain stands until that frame ends (R390, R451). -/
def sofSeen (c : Chain) (s : State) : State :=
  match c with
  | .hf => if s.hf.radio = .listen ∨ s.hf.radio = .rx then s.onHf fun h => { h with sof := true } else s
  | .uhf => if s.uhf.radio = .rx then s.onUhf fun u => { u with sof := true } else s

/-- One AGC window (R388, R450). -/
def agcWindow (c : Chain) (peak : Nat) (clip : Bool) (s : State) : State :=
  let v := agcView s c
  if !v.auto || !v.runs then s
  else if clip then (if v.gain = 0 then setQuiet c 0 s else gainStep c (v.gain - 2) true s)
  else if v.high ≤ peak then (if v.gain = 0 then setQuiet c 0 s else gainStep c (v.gain - 1) false s)
  else if v.low ≤ peak then setQuiet c 0 s
  else if v.dwellDone then (if v.gain < v.top then gainStep c (v.gain + 1) false s else setQuiet c 0 s)
  else setQuiet c (v.quiet + 1) s

end Sys2Proof.Machine
end

