-- ==== Sys2Proof/Machine/UhfChain.lean ====
section
/-! DEFINITION. The UHF chain: carrier, channels, hopping and dwell, listen-before-talk, reflected
power, UHF_CARRIER and UHF_SET_CHANNEL (R418–R464). -/

namespace Sys2Proof.Machine

open Sys2Proof

/-! ## Channels and occupancy (R427–R430, R432) -/

def rasterOf (s : State) : List Nat := (s.chr.inForce.map (·.raster)).getD []

/-- Frequency of a raster index in kHz. -/
def freqOf (s : State) (i : Nat) : Nat := nth (rasterOf s) i 0

/-- The whole megahertz above 860 MHz nearest a frequency, ties to the lower entry (R538). -/
def mhzIndex (f : Nat) : Nat := (f - 860000 + 499) / 1000

/-- Carrier-on time of a visit that lies in the window of `w` µs before now. -/
def overlap (s : State) (w from_ to_ : Nat) : Nat := min to_ s.time - max from_ (s.time - w)

/-- Occupancy of a channel by past visits within the window (R429). -/
def occupied (s : State) (c : Charter) (ch : Nat) : Nat :=
  (s.uhf.ledger.map fun v => if v.1 = ch then overlap s (1000 * c.window) v.2.1 v.2.2 else 0).sum

def unused (s : State) (c : Charter) (ch : Nat) : Nat := 1000 * c.occLimit - occupied s c ch

/-- The hop guard in µs. -/
def hopGuard (s : State) : Nat := 1000 * cfg s 0x309

/-- Time of the visit so far. -/
def visitTime (s : State) : Nat := (s.uhf.visitFrom.map fun t => s.time - t).getD 0

/-- Unused occupancy with the visit that runs counted in. -/
def unusedNow (s : State) (c : Charter) (ch : Nat) : Nat :=
  unused s c ch - (if ch = s.uhf.index then visitTime s else 0)

/-- A channel whose unused occupancy is not shorter than the hop guard (R432). -/
def qualifies (s : State) (ch : Nat) : Bool :=
  match s.chr.inForce with
  | none => false
  | some c => decide (hopGuard s ≤ unusedNow s c ch)

/-- Hard limit of the visit (R429). -/
def hardLimit (s : State) : Nat :=
  match s.chr.inForce with
  | none => 0
  | some c => min (1000 * c.dwell) (unused s c s.uhf.index)

/-! ## Permutations (R427, R428) -/

/-- Exchanges two entries. -/
def swapAt (l : List Nat) (i j : Nat) : List Nat :=
  let a := nth l i 0
  let b := nth l j 0
  modAt (modAt l i fun _ => b) j fun _ => a

/-- A permutation drawn from the LFSR: entries `k` down to 1 change places with an earlier one. -/
def shuffle : Nat → Word → List Nat → Word × List Nat
  | 0, r, l => (r, l)
  | k + 1, r, l =>
    let r1 := Config.lfsrNext r
    shuffle k r1 (swapAt l (k + 1) (r1.toNat % (k + 2)))

def newPerm (s : State) : State :=
  let n := (rasterOf s).length
  let r := shuffle (n - 1) s.uhf.lfsr (List.range n)
  s.onUhf fun u => { u with lfsr := r.1, perm := r.2 }

/-- The first channel of a list that qualifies, another one than `avoid`, which keeps its place for later. -/
def takeChannel (s : State) (avoid : Option Nat) (l : List Nat) : Option (Nat × List Nat) :=
  match l.dropWhile fun c => !qualifies s c || avoid == some c with
  | [] => none
  | c :: cs => some (c, (l.takeWhile fun d => d != c).filter (fun d => avoid == some d) ++ cs)

/-- The next channel of the permutation that qualifies; a new permutation follows a finished one. A hop goes to
another channel where the raster has one (R427, R432). -/
def pickNextFrom (avoid : Option Nat) (s : State) : Option Nat × State :=
  match takeChannel s avoid s.uhf.perm with
  | some (c, cs) => (some c, s.onUhf fun u => { u with perm := cs })
  | none =>
    let s1 := newPerm s
    match takeChannel s1 avoid s1.uhf.perm with
    | some (c, cs) => (some c, s1.onUhf fun u => { u with perm := cs })
    | none => (none, s1)

def otherChannel (s : State) : Option Nat := if (rasterOf s).length ≤ 1 then none else some s.uhf.index

def pickNext (s : State) : Option Nat × State := pickNextFrom (otherChannel s) s
def pickFirst (s : State) : Option Nat × State := pickNextFrom none s

/-- A channel comes into force; with the synthesiser locked the change takes 45 µs (R417, R421). -/
def setIndex (c : Nat) (s : State) : State :=
  setDivider (s.onUhf fun u =>
    { u with index := c, readyAt := if u.synth = .locked ∧ u.index ≠ c then s.time + 45 else u.readyAt })

/-- Payload of source 51 (R455). -/
def hopPayload (from_ to_ : Nat) (rest : Bool) : Nat := from_ + 2 ^ 6 * to_ + 2 ^ 12 * b2n rest

/-! ## Rising (R429, R432, R434, R483, R488) -/

def waitRise (w : RiseWait) (s : State) : State :=
  s.onUhf fun u => { u with riseWait := w, radio := if w = .lbt then .listen else .synth }

/-- Output asked for at a detector point (R575): +10 dBm, or +27 dBm and at most the charter limit. -/
def holdPower (s : State) (point : Nat) : Nat :=
  if point = 0 then 1000 else min 2700 (((s.chr.inForce.map uhfLimit).getD 500).toNat)

/-- The output of field 0x0300 after a detector point, as far as the budget gives it (R53, R54, R56, R57). -/
def uhfReturn (s : State) : State :=
  let want := cfg s 0x300
  let p := uhfFit s (uhfRoom s) want
  if p = want then uhfNewPower want s
  else if p = 0 then riseClamp want want s
  else riseClamp want p (uhfNewPower p (setField 0x300 p s))

/-- The carrier starts to rise with what the budget gives (R56, R57, R63); with nothing that fits the command ends
with 0x42. Rise and settle take 40 µs (R417, R419). -/
def uhfRise (s : State) : State :=
  let want := risePower s
  let p := if s.pwr.warn then 0 else uhfFit s (uhfRoom s) want
  if p = 0 then stopLane .uhf 0x42 (lightFails .uhf want ((giveUpRise s).onUhf fun u => { u with radio := .synth }))
  else
    let s1 := if p = want then s else riseClamp want p (if s.cal.holding.isSome then s else setField 0x300 p s)
    (uhfApplyPower p s1).onUhf fun u =>
      { u with
        rising := true, riseEnd := s.time + 40, riseWait := .none, visitFrom := some s.time, hopDue := false, hopQuiet := false
        sof := false, radio := .synth }

/-- Every rise passes the mask check first; none starts while the monitor is fenced (R747). -/
def uhfCheckRise (s : State) : State :=
  if fenced s 3 then waitRise .none s
  else if passed s .uhf then uhfRise s else requestCheck .uhf (waitRise .check s)

/-- The rise on the channel in force, once the change to it is over: listen-before-talk where the charter asks for
it, for the charter's listen time after 20 µs to LISTEN (R417, R434). -/
def uhfSense (s : State) : State :=
  if s.time < s.uhf.readyAt then waitRise .change s
  else
    match charter s with
    | none => s
    | some c =>
      if c.lbt then waitRise .lbt (s.onUhf fun u => { u with readyAt := s.time + 20 + c.lbtListen }) else uhfCheckRise s

/-- A recalibration refreshes one band entry, sets the reference temperature and is counted. -/
def synthRecal (ch band : Nat) (s : State) : State :=
  ctrAdd 0x2C 1 ((s.onCal fun k =>
    { k with uhf := { k.uhf with vco := modAt k.uhf.vco (mhzIndex (freqOf s ch)) fun _ => band
                                 refTemp := (min 255 (s.therm.temp + 64).toNat) } }).onTow
    fun t => { t with recalDue := false })

/-- The recalibration that is due runs in the channel change, with the carrier off (R424, R562); the band it finds is
not stated. -/
def hopRecal (ch : Nat) (s : State) : State :=
  if s.tow.recalDue then synthRecal ch (freeBelow s 256) s.useFree else s

/-- The change to a channel with the carrier off at a visit boundary. -/
def changeChannel (c : Nat) (s : State) : State := hopRecal c (setIndex c s)

/-- A hop whose channel was not known reports it once it is, where a hop is to be reported (R430, R432, R435). -/
def hopKnown (c : Nat) (s : State) : State :=
  let s1 := changeChannel c (s.onUhf fun u => { u with hopDue := false, hopQuiet := false })
  if s.uhf.hopDue && !s.uhf.hopQuiet then raise 51 (hopPayload s.uhf.index c false) s1 else s1

/-- A rest or a back-off that runs. -/
def resting (s : State) : Bool := s.uhf.riseWait == .rest || s.uhf.riseWait == .backoff

/-- In mode 0 a visit that has reached its soft point rests, after whatever fall; the rest counts from it (R427, R430;
log 246). -/
def restFrom (s : State) : State :=
  let rest := (s.chr.inForce.map (·.rest)).getD 0
  raise 51 (hopPayload s.uhf.index s.uhf.index true)
    (s.onUhf fun u => { u with hopDue := false, hopQuiet := false, restUntil := u.fallEnd + 1000 * rest })

/-- The carrier that the tenant wants on starts to rise, or waits for what it lacks. -/
def uhfTryRise (s0 : State) : State :=
  if !s0.uhf.wantOn || uhfEmits s0 || s0.uhf.synth != .locked || fenced s0 1 || (charter s0).isNone || resting s0 then s0
  else if s0.uhf.mode = 0 then
    let s := if s0.uhf.hopDue then restFrom s0 else s0
    if s0.uhf.hopDue ∧ s.time < s.uhf.restUntil then waitRise .rest s
    else if qualifies s s.uhf.index then uhfSense s
    else waitRise .channel s
  else if qualifies s0 s0.uhf.index && !s0.uhf.hopDue then uhfSense s0
  else
    match pickNext s0 with
    | (some c, s1) => uhfSense (hopKnown c s1)
    | (none, s1) => waitRise .channel s1

/-- A channel change is over. -/
def uhfChangeTick (s : State) : State :=
  if s.uhf.riseWait = .change ∧ s.uhf.readyAt ≤ s.time then uhfTryRise (s.onUhf fun u => { u with riseWait := .none }) else s

/-! ## UHF_CARRIER (R436, R439, R457–R460) -/

/-- Body of UHF_CARRIER (R460); a falling carrier is off. -/
def uhfCarrierBody (s : State) : List Byte :=
  (if uhfUp s then le 2 s.uhf.power ++ leInt 2 s.uhf.fwd ++ le 1 (min 255 s.uhf.rl) else le 5 0) ++ le 1 s.uhf.index ++ le 2 0
    ++ le 4 (freqOf s s.uhf.index)

/-- R436: the channel and mode that a charter permits. -/
def channelOk (s : State) (mode index : Nat) : Bool :=
  match charter s with
  | none => false
  | some c => decide (index < c.raster.length) && (mode == 1 || c.fixedOk)

/-- The tenant's carrier is on, or comes back by itself. -/
def carrierOn (s : State) : Bool := uhfLit s || s.uhf.wantOn

/-- Lights the carrier: budget and clamp, the grant at once (R53), then the rise. -/
def uhfLight (e : Exec) (s : State) : State :=
  let v := Packet32 e.pkt 4
  let c := powerCheck s e.pkt.tenant true 0x300 v
  let s1 := powerApply .uhf 0x300 v c s
  if c.noRoom then finish .uhf 0x42 (uhfCarrierBody s1) none s1
  else
    uhfTryRise (setPhase .uhf .carrierRise
      (setUhfGrant (uhfDraw s1 (cfg s1 0x300)) (s1.onUhf fun u => { u with wantOn := true })))

/-- Changes the output. -/
def uhfChange (e : Exec) (s : State) : State :=
  let v := Packet32 e.pkt 4
  let c := powerCheck s e.pkt.tenant (carrierOn s) 0x300 v
  let s1 := powerApply .uhf 0x300 v c s
  if c.noRoom then finish .uhf 0x42 (uhfCarrierBody s1) none s1
  else if uhfUp s1 then setPhase .uhf .settle (uhfNewPower (cfg s1 0x300) s1)
  else if s1.uhf.wantOn then setPhase .uhf .settle s1
  else finish .uhf 0 (uhfCarrierBody s1) none s1

/-- Action 0; an output that it names is checked and kept for the next carrier (R458). -/
def uhfOff (e : Exec) (s : State) : State :=
  let v := Packet32 e.pkt 4
  let s1 := if v = 0 then s else powerApply .uhf 0x300 v (powerCheck s e.pkt.tenant false 0x300 v) s
  let s2 := uhfFall .off s1
  if uhfEmits s2 then setPhase .uhf .carrierFall s2 else finish .uhf 0 (uhfCarrierBody s2) none s2

def uhfCarrier (e : Exec) (s : State) : State :=
  let a := Packet8 e.pkt 0
  if 2 < a then finish .uhf 0x11 [] none s
  else if a = 0 then uhfOff e s
  else if (charter s).isNone then finish .uhf 0x40 [] none s
  else if a = 2 then uhfChange e s
  else if s.uhf.blocked then finish .uhf 0x23 [] none s
  else if !channelOk s s.uhf.mode s.uhf.index then finish .uhf 0x40 [] none s
  else if carrierOn s then uhfChange e s
  else if !uhfAllowed s then finish .uhf 0x40 [] none s
  else if s.uhf.falling.isSome then setPhase .uhf .carrierFall s
  else uhfLight e s

def execUhfCarrier (s : State) : Host.Outcome State Fault Refusal :=
  .next (onLeased .uhf 0x0403 uhfCarrier s)

/-! ## UHF_SET_CHANNEL (R436, R461–R463) -/

def uhfChannelBody (s : State) : List Byte :=
  le 1 s.uhf.mode ++ le 1 s.uhf.index ++ le 2 0 ++ le 4 (freqOf s s.uhf.index)

/-- Mode and channel come into force: mode 1 starts a new permutation; a new visit follows. -/
def applyChannel (mode index : Nat) (s : State) : State :=
  let s1 := s.onUhf fun u => { u with mode := mode, nextChannel := none, hopDue := false, hopQuiet := false, restUntil := 0 }
  if mode = 0 then setIndex index s1
  else
    let s2 := newPerm s1
    match pickFirst s2 with
    | (some c, s3) => setIndex c s3
    | (none, s3) => setIndex (nth s3.uhf.perm 0 0) s3

def uhfSetChannel (e : Exec) (s : State) : State :=
  let mode := Packet8 e.pkt 0
  let index := Packet8 e.pkt 1
  if 1 < mode ∨ (mode = 1 ∧ index ≠ 0) then finish .uhf 0x11 [] none s
  else if !channelOk s mode index then finish .uhf 0x40 [] none s
  else if uhfEmits s then
    let s1 := setPhase .uhf .channel (s.onUhf fun u => { u with nextChannel := some (mode, index) })
    if uhfInFrame s1 || s1.uhf.rising then s1 else uhfBoundary s1
  else
    let s1 := applyChannel mode index (s.onUhf fun u => { u with riseWait := .none })
    finish .uhf 0 (uhfChannelBody s1) none (uhfTryRise s1)

def execUhfSetChannel (s : State) : Host.Outcome State Fault Refusal :=
  .next (onLeased .uhf 0x0404 uhfSetChannel s)

/-! ## Synthesiser (R423–R426, R562, R563) -/

def synthPayload (s : State) (flag : Bool) : Nat := s.uhf.index + 2 ^ 6 * b2n flag

/-- A second unlock within 1 s. -/
def secondUnlock (s : State) : Bool :=
  match s.uhf.unlockAt with
  | none => false
  | some t => decide (s.time < t + 1000000)

def execSynthUnlock (s : State) : Host.Outcome State Fault Refusal :=
  .next <|
    if s.uhf.synth ≠ .locked then s
    else if secondUnlock s then fenceUnit 1 5 0 (raise 49 (synthPayload s true) s)
    else
      let s1 := uhfFall .relock (s.onUhf fun u =>
        { u with
          unlockAt := some s.time, relock := true
          riseWait := if resting s || u.riseWait == .channel then u.riseWait else .none })
      settleRadio .uhf (setPll .uhf .starting (raise 49 (synthPayload s false) s1))

/-- The synthesiser has locked: source 48 (R423). A relock has recalibrated the channel's band, whose code is not
stated (R425; log 2). -/
def execSynthLocked (s : State) : Host.Outcome State Fault Refusal :=
  .next <|
    if s.uhf.synth = .starting then
      let s0 := if s.uhf.relock then synthRecal s.uhf.index (freeBelow s 256) s.useFree else s
      let s1 := settleRadio .uhf (setPll .uhf .locked (s0.onUhf fun u => { u with relock := false }))
      uhfTryRise (grantLocked .uhf (raise 48 (synthPayload s1 (s.uhf.mode == 1)) s1))
    else s

/-- A recalibration that is due may run: SYNTH, no frame due and no rise asked for (R563). -/
def recalMayRun (s : State) : Bool :=
  s.tow.recalDue && s.uhf.radio == .synth && s.uhf.synth == .locked && !uhfEmits s && s.uhf.held.isNone
    && s.uhf.riseWait != .check && s.uhf.riseWait != .change

/-- A recalibration starts at once where it may run, and a rise asked for ends it within 1 µs; it stays due (R563). -/
def recalTick (s : State) : State := s.onTow fun t => { t with recalRun := recalMayRun s }

/-- A recalibration that has run to its end. -/
def execSynthRecal (band : Nat) (s : State) : Host.Outcome State Fault Refusal :=
  .next (if s.tow.recalRun && recalMayRun s then recalTick (synthRecal s.uhf.index (band % 256) s) else s)

/-! ## Dwell, hop and rest (R430–R435) -/

def execDwellSoftPoint (s : State) : Host.Outcome State Fault Refusal :=
  .next <|
    if uhfLit s ∧ s.uhf.visitFrom.isSome ∧ s.uhf.hopDue = false ∧ s.cal.holding.isNone ∧
        hardLimit s - hopGuard s ≤ visitTime s then
      s.onUhf fun u => { u with hopDue := true }
    else s

/-- The carrier falls and moves on: to the next channel of the permutation in mode 1, to a rest in mode 0.
`loud` raises source 51, at once where the next channel is known. -/
def moveOn (loud : Bool) (s : State) : State :=
  let say := fun (pay : Nat) (s : State) => if loud then raise 51 pay s else s
  if s.uhf.mode = 0 then
    say (hopPayload s.uhf.index s.uhf.index true) (uhfFall .rest (s.onUhf fun u => { u with hopDue := false }))
  else
    match pickNext s with
    | (some c, s1) =>
      say (hopPayload s.uhf.index c false)
        (uhfFall .hop (s1.onUhf fun u => { u with hopDue := false, nextChannel := some (2, c) }))
    | (none, s1) =>
      uhfFall .hop (s1.onUhf fun u => { u with hopDue := true, hopQuiet := !loud, nextChannel := some (3, 0) })

/-- A hop or rest is due and no frame is in flight. -/
def hopReady (s : State) : Bool := s.uhf.hopDue && uhfLit s && !uhfInFrame s && !s.uhf.rising

/-- The visit has reached its hard limit; a detector hold ends with it in its own row (R575). -/
def limitReached (s : State) : Bool :=
  uhfLit s && s.cal.holding.isNone && s.uhf.visitFrom.isSome && decide (hardLimit s ≤ visitTime s)

/-- R435: the fall comes at once, inside the frame. -/
def dwellLimit (s : State) : State := moveOn false (raise 52 s.uhf.index s)

def execRestEnd (s : State) : Host.Outcome State Fault Refusal :=
  .next <|
    if s.uhf.riseWait = .rest ∧ s.uhf.restUntil ≤ s.time then
      uhfTryRise (s.onUhf fun u => { u with riseWait := .none, restUntil := 0 })
    else s

def execChannelAvailable (s : State) : Host.Outcome State Fault Refusal :=
  .next <|
    if s.uhf.riseWait = .channel then uhfTryRise (s.onUhf fun u => { u with riseWait := .none }) else s

/-- R434, R520: the listen time is over; at or above the charter's threshold, in 0.1 dBm, the channel is busy. -/
def execLbtSenseDone (level : Int) (s : State) : Host.Outcome State Fault Refusal :=
  .next <|
    match charter s with
    | none => s
    | some c =>
      if s.uhf.riseWait ≠ .lbt then s
      else if s.time < s.uhf.readyAt then s
      else if level < c.lbtThr then uhfCheckRise s
      else if s.uhf.mode = 0 then waitRise .backoff (s.onUhf fun u => { u with restUntil := s.time + 1000 * c.lbtBackoff })
      else match pickNext s with
        | (some ch, s1) => uhfSense (setIndex ch s1)
        | (none, s1) => waitRise .channel s1

def execLbtBackoffEnd (s : State) : Host.Outcome State Fault Refusal :=
  .next <|
    if s.uhf.riseWait = .backoff ∧ s.uhf.restUntil ≤ s.time then
      uhfTryRise (s.onUhf fun u => { u with riseWait := .none, restUntil := 0 })
    else s

/-- A channel that waited for the boundary comes into force with the carrier off. -/
def channelAtFall (s : State) : State :=
  match s.uhf.nextChannel with
  | some (2, c) => changeChannel c (s.onUhf fun u => { u with nextChannel := none })
  | some (3, _) => s.onUhf fun u => { u with nextChannel := none }
  | some (m, i) => let s1 := applyChannel m i s; hopRecal s1.uhf.index s1
  | none => s

/-- What follows a fall that ends on the way to another channel, a rest or a relock. -/
def afterMove (why : FallFor) (s : State) : State :=
  let s1 := channelAtFall s
  match why, s.chr.inForce with
  | .rest, some c =>
    if s1.uhf.wantOn then waitRise .rest (s1.onUhf fun u => { u with restUntil := s.time + 1000 * c.rest }) else s1
  | _, _ => uhfTryRise s1

/-! ## Reflected power and limits (R442–R444, R453) -/

def reflectedPayload (s : State) (rl : Nat) (hard : Bool) : Nat :=
  min 255 rl + 2 ^ 8 * cfg s 0x308 + 2 ^ 10 * b2n hard

/-- The action of field 0x0308. A detector point keeps its drive, and the output is lowered for after it (R575). -/
def reflectedAction (s : State) : State :=
  match cfg s 0x308 with
  | 1 =>
    let was := if s.cal.holding.isSome then cfg s 0x300 else s.uhf.power
    let p := max 500 (was - 300)
    if p < was then clampEvent 0x300 (uhfNewOutput (setField 0x300 p s)) else s
  | 2 =>
    let s1 := s.onUhf fun u => { u with blocked := true, nextPower := some 0 }
    if uhfInFrame s1 then s1 else uhfBoundary s1
  | _ => s

/-- One measurement (R442, R443). -/
def rlMeasured (rl : Nat) (s : State) : State :=
  if cfg s 0x307 ≤ rl then s.onUhf fun u => { u with rl := rl, measAt := s.time + 100, low := 0, alarm := false, blocked := false }
  else
    let s1 := s.onUhf fun u => { u with rl := rl, measAt := s.time + 100, low := u.low + 1 }
    if 3 ≤ s1.uhf.low ∧ s1.uhf.alarm = false then
      reflectedAction (raise 50 (reflectedPayload s rl false) (s1.onUhf fun u => { u with alarm := true }))
    else s1

/-- The detector runs in RX, once every 100 µs; the refusal of action 2 ends when the aerial's return loss is back. -/
def execRlMeasurement (rl : Nat) (s : State) : Host.Outcome State Fault Refusal :=
  .next <|
    if s.time < s.uhf.measAt then s
    else if uhfLit s ∧ s.uhf.radio = .rx ∧ uhfInFrame s = false then rlMeasured rl s
    else if s.uhf.blocked ∧ cfg s 0x307 ≤ rl ∧ uhfEmits s = false then
      s.onUhf fun u => { u with low := 0, alarm := false, blocked := false }
    else s

def execHardReflection (rl : Nat) (s : State) : Host.Outcome State Fault Refusal :=
  .next (if uhfEmits s ∧ rl < 10 then fenceUnit 1 7 0 (raise 50 (reflectedPayload s rl true) s) else s)

def execPaCurrentLimit (s : State) : Host.Outcome State Fault Refusal :=
  .next (if uhfEmits s then fenceUnit 1 6 0 s else s)

end Sys2Proof.Machine
end

