-- ==== Sys2Proof/Machine/UhfReader.lean ====
section
/-! DEFINITION. The UHF reader: UHF_SELECT, UHF_INVENTORY with its Q-algorithm, UHF_ACCESS, and the
rows that a hop or a dwell limit makes of a round (R613–R623, R634–R639). A window of 0 µs is one whose
length the manual does not give. -/

namespace Sys2Proof.Machine

open Sys2Proof

/-! ## Selects (R619, R634) -/

def selectSlots (s : State) : List Nat := s.uhf.selects.map (·.slot)

def insertSelect (c : SelectCmd) : List SelectCmd → List SelectCmd
  | [] => [c]
  | d :: ds => if c.slot < d.slot then c :: d :: ds else if c.slot = d.slot then c :: ds else d :: insertSelect c ds

/-- The frame of a stored Select. -/
def selectFrame (s : State) (slot : Nat) : Option UhfFrame :=
  (s.uhf.selects.find? fun c => c.slot == slot).map fun c =>
    .select c.target c.action c.bank c.trunc c.ptr c.len c.mask

def selectBody (s : State) : List Byte := le 1 ((selectSlots s).map (2 ^ ·)).sum ++ le 3 0

/-- The Selects of UHF_SELECT with SEND_NOW, one after another. -/
def selectGo (left : List Nat) (s : State) : State :=
  match left with
  | [] => finish .uhf 0 (selectBody s) none s
  | k :: ks =>
    match selectFrame s k with
    | some f => uhfSend f 0 (setPhase .uhf (.select ⟨ks⟩) s)
    | none => finish .uhf 0 (selectBody s) none s

def uhfSelect (e : Exec) (s : State) : State :=
  let p := e.pkt
  let b := Packet8 p
  let len := Packet16 p 6
  if 3 < b 0 ∨ 1 < b 1 ∨ 4 < b 2 ∨ 7 < b 3 ∨ 3 < b 4 ∨ 255 < len then finish .uhf 0x11 [] none s
  else
    let cmd : SelectCmd :=
      { slot := b 0, target := b 2, action := b 3, bank := b 4, trunc := bit (b 5) 0, ptr := Packet32 p 8
        len := len, mask := poundRead s p.tenant (Packet32 p 12) ((len + 7) / 8) }
    let put := fun (l : List SelectCmd) =>
      if b 1 = 1 then insertSelect cmd l else l.filter fun c => c.slot != b 0
    let s1 := s.onUhf fun u => { u with selects := put u.selects }
    if (bit (b 5) 1 && carrierOn s1) = true then selectGo (selectSlots s1) s1
    else finish .uhf 0 (selectBody s1) none s1

def execUhfSelect (s : State) : Host.Outcome State Fault Refusal :=
  .next (onLeased .uhf 0x0402 uhfSelect s)

/-! ## UHF_INVENTORY (R613–R617, R635–R637) -/

/-- The Query of a round. The link that it asks for is that of the fields in force when it is sent (R473, R474, R503).
-/
def openQuery (sel session : Nat) (targetB : Bool) (q : Nat) (s : State) : UhfFrame :=
  .query sel session targetB q (linkOf s)

def qLo (s : State) : Nat := min (cfg s 0x341) (cfg s 0x342)
def qHi (s : State) : Nat := max (cfg s 0x341) (cfg s 0x342)
def clampNat (lo hi x : Nat) : Nat := max lo (min hi x)

/-- Record of a tag (R636). -/
def tagBytes (r : TagRec) : List Byte :=
  le 2 r.pc.toNat ++ le 1 r.epc.length ++ le 1 r.lq ++ le 2 r.evm ++ le 1 r.channel ++ le 1 (b2n r.fromB)
    ++ le 4 r.stamp ++ le 2 r.count ++ le 2 0 ++ padTo 62 r.epc ++ le 2 0

def invBody (op : InvOp) (cause : Nat) : List Byte :=
  le 2 op.recs.length ++ le 2 (min 65535 op.reads) ++ le 2 op.rounds ++ le 1 cause ++ le 1 op.q
    ++ le 4 op.collided ++ le 4 op.empty

def invFinish (op : InvOp) (cause : Nat) (s : State) : State := finish .uhf 0 (invBody op cause) none s

def setInv (op : InvOp) (s : State) : State := setPhase .uhf (.inventory op) s

/-- A command of the inventory; the time limit is judged before it (R616). -/
def invSend (op : InvOp) (f : UhfFrame) (s : State) : State :=
  if op.limitAt ≤ s.time then invFinish op 2 s else uhfSend f 0 (setInv op s)

/-- The Selects still to send, then Query. -/
def invOpen (op : InvOp) : List Nat → State → State
  | [], s => invSend { op with stage := .slot } (openQuery op.sel op.session op.targetB op.q s) s
  | k :: ks, s =>
    match selectFrame s k with
    | some f => invSend { op with stage := .selects ks } f s
    | none => invSend { op with stage := .slot } (openQuery op.sel op.session op.targetB op.q s) s

/-- A round begins. Qfp starts at Q_INIT in the first round and is kept across rounds. -/
def beginRound (op : InvOp) (s : State) : State :=
  if op.limitAt ≤ s.time then invFinish op 2 s else
  let q0 := clampNat (qLo s) (qHi s) (cfg s 0x340)
  let first := op.rounds = 0
  let op1 : InvOp :=
    { op with
      rounds := op.rounds + 1, newInRound := 0, slots := 0, draw := none, lo := qLo s, hi := qHi s
      q := if first then q0 else op.q
      qfp := if first then 100 * q0 else op.qfp
      targetB := if op.target = 2 then (if first then false else !op.targetB) else op.target == 1 }
  invOpen op1 (selectSlots s) s

/-- Source 53 (R625). -/
def roundEvent (op : InvOp) (s : State) : State :=
  if op.roundEvents then raise 53 (op.rounds % 4096 + 2 ^ 12 * op.q + 2 ^ 16 * min 255 op.newInRound) s else s

/-- A round of 2^Q slots ends. -/
def endRound (op : InvOp) (s : State) : State :=
  let op1 := { op with emptyRun := if op.newInRound = 0 then op.emptyRun + 1 else 0 }
  let s1 := roundEvent op s
  if op.emptyRounds ≤ op1.emptyRun then invFinish op1 0 s1 else beginRound op1 s1

/-- QueryRep after a slot. That of the last slot ends the round, once its own window is over (R614; log 41). -/
def slotRep (op : InvOp) (s : State) : State :=
  invSend { op with slots := op.slots + 1, stage := if 2 ^ op.q ≤ op.slots + 1 then .last else .slot } .queryRep s

/-- The Q-algorithm with its draw u, in units of 2^−16 (R614). -/
def slotDecide (op : InvOp) (u : Nat) (s : State) : State :=
  let target := clampNat op.lo op.hi ((65536 * op.qfp + 100 * u) / 6553600)
  if target = op.q then slotRep op s
  else
    let q := if op.q < target then op.q + 1 else op.q - 1
    invSend { op with q := q, slots := 0, stage := .slot } (.queryAdjust q) s

/-- The draw after a slot, which may have to wait for entropy (R695, R698). -/
def slotDraw (op : InvOp) (s : State) : State :=
  match rngDraw1 1 s with
  | some (ws, s1) => slotDecide { op with draw := none } ((nth ws 0 0).toNat) s1
  | none => rngWait (setInv { op with draw := some (op.draw.getD s.time) } s)

/-- After a slot; `input` 0 empty, 1 single, 2 collision. -/
def afterSlot (op : InvOp) (input : Nat) (s : State) : State :=
  let c := cfg s 0x343
  let qfp :=
    if input = 0 then max (100 * op.lo) (op.qfp - c)
    else if input = 2 then min (100 * op.hi) (op.qfp + c)
    else op.qfp
  slotDraw
    { op with
      qfp := qfp, stage := .between
      empty := op.empty + (if input = 0 then 1 else 0)
      collided := op.collided + (if input = 2 then 1 else 0) } s

/-- A tag read: a new record, or one read again (R617). -/
def recordTag (op : InvOp) (pc : Half) (epc : List Byte) (lq evm tenant : Nat) (s : State) : InvOp × State :=
  let upd := fun (r : TagRec) =>
    { r with lq := lq, evm := evm, channel := s.uhf.index, stamp := stamp s, fromB := op.targetB
             count := min 65535 (r.count + 1) }
  let same := fun (r : TagRec) => r.pc == pc && r.epc == epc
  let op1 := { op with reads := op.reads + 1 }
  match op.recs.findIdx? same with
  | some i =>
    let recs := modAt op.recs i upd
    ({ op1 with recs := recs },
      poundWrite tenant (op.off + 80 * i) (((recs[i]?).map tagBytes).getD []) s)
  | none =>
    let r : TagRec := ⟨pc, epc, lq, evm, s.uhf.index, op.targetB, stamp s, 1⟩
    let s1 := poundWrite tenant (op.off + 80 * op.recs.length) (tagBytes r) s
    ({ op1 with recs := op.recs ++ [r], newInRound := op.newInRound + 1 },
      if op.tagEvents then raise 54 (op.recs.length % 4096 + 2 ^ 12 * lq) s1 else s1)

/-- What a round makes of an answer, or of none. A PC and EPC that fail twice are followed by QueryRep, whatever Q is to
become (R613; log 42). -/
def invNext (op : InvOp) (tenant : Nat) (res : FrameResult) (ans : Option UhfAnswer) (lq evm : Nat) (s : State) :
    State :=
  match op.stage with
  | .selects left => invOpen op left s
  | .slot =>
    match res, ans with
    | .noSof, _ => afterSlot op 0 s
    | .ok, some (.rn16 v) => invSend { op with stage := .acked v false } (.ack v) s
    | _, _ => afterSlot op 2 s
  | .acked rn again =>
    match res, ans with
    | .ok, some (.epc pc epc) =>
      let r := recordTag op pc epc lq evm tenant s
      if op.maxRecs ≤ r.1.recs.length then invFinish r.1 1 r.2 else afterSlot r.1 1 r.2
    | _, _ =>
      if again then slotRep op s else invSend { op with stage := .acked rn true } (.ack rn) s
  | .last => endRound op s
  | .between => s

def inventory (e : Exec) (s : State) : State :=
  let p := e.pkt
  let b := Packet8 p
  let n := Packet16 p 4
  let lim := Packet32 p 8
  if 3 < b 0 ∨ 2 < b 1 ∨ 3 < b 2 ∨ n = 0 ∨ 4096 < n ∨ b 6 = 0 ∨ lim = 0 ∨ 60000 < lim then
    finish .uhf 0x11 [] none s
  else if !carrierOn s then finish .uhf 0x23 [] none s
  else
    beginRound
      { session := b 0, target := b 1, sel := b 2, tagEvents := bit (b 3) 0, roundEvents := bit (b 3) 1
        maxRecs := n, emptyRounds := b 6, limitAt := e.admitted + 1000 * lim, off := Packet32 p 12, recs := []
        reads := 0, rounds := 0, emptyRun := 0, newInRound := 0, q := 0, qfp := 0, slots := 0, collided := 0
        empty := 0, targetB := false, stage := .between, draw := none } s

def execUhfInventory (s : State) : Host.Outcome State Fault Refusal :=
  .next (onLeased .uhf 0x0400 inventory s)

/-- The time limit has passed while a command of the inventory waits to be sent (R616). -/
def limitTick (s : State) : State :=
  match execOf s .uhf with
  | none => s
  | some e =>
    match e.phase with
    | .inventory op =>
      if op.limitAt ≤ s.time ∧ s.uhf.tx.isNone ∧ s.uhf.wait.isNone ∧ s.uhf.held.isSome then
        invFinish op 2 (s.onUhf fun u => { u with held := none })
      else s
    | _ => s

/-! ## UHF_ACCESS (R620–R623, R638, R639) -/

def accessEntry (bs : List Byte) (k : Nat) : AccessEntry :=
  let f := fun i n => fieldOf bs (16 * k + i) n
  ⟨f 0 1, f 1 1, f 2 2, f 4 4, f 8 4⟩

/-- The rules of one entry (R638). -/
def entryOk (s : State) (n : Nat) (bs : List Byte) (k : Nat) : Bool :=
  let a := accessEntry bs k
  decide (a.bank ≤ 3) && fieldOf bs (16 * k + 12) 4 == 0
    && (match a.kind with
      | 0 => decide (1 ≤ a.words) && decide (a.words ≤ 255) && a.data == 0
      | 1 => decide (1 ≤ a.words) && decide (a.words ≤ 255) && inPound s n a.data (2 * a.words)
      | 2 => decide (1 ≤ a.words) && decide (a.words ≤ 16) && inPound s n a.data (2 * a.words)
      | 3 => a.words == 0 && decide (a.data < 2 ^ 20)
      | _ => false)

/-- Bytes that the results and the words read take. -/
def accessSize (ops : List AccessEntry) : Nat :=
  8 * ops.length + (ops.map fun a => if a.kind = 0 then 2 * a.words else 0).sum

def accessBody (op : AccessOp) : List Byte :=
  le 1 op.idx ++ le 1 op.attempts ++ le 1 op.lq ++ le 1 0 ++ le 2 op.evm ++ le 2 0

def accessSend (op : AccessOp) (f : UhfFrame) (win : Nat) (s : State) : State :=
  uhfSend f win (setPhase .uhf (.access op) s)

/-- Select over the EPC, on membank 1 from bit pointer 0x20. -/
def epcSelect (op : AccessOp) (target : Nat) : UhfFrame :=
  .select target 0 1 false 0x20 (8 * op.epc.length) op.epc

/-- One singulation attempt (R620). -/
def accessAttempt (op : AccessOp) (s : State) : State :=
  accessSend { op with attempts := op.attempts + 1, stage := .selectSl } (epcSelect op 4) 0 s

def accessRetry (op : AccessOp) (s : State) : State :=
  if op.attempts < cfg s 0x344 then accessAttempt op s else finish .uhf 0x20 (accessBody op) none s

/-- One result at the result offset. -/
def accessResult (op : AccessOp) (tenant status code words : Nat) (s : State) : State :=
  poundWrite tenant (op.resOff + 8 * op.idx) (le 1 status ++ le 1 code ++ le 2 words ++ le 4 0) s

/-- Starts the operation at `idx`, or ends the list. -/
def accessOp (op : AccessOp) (s : State) : State :=
  match op.ops[op.idx]? with
  | none => finish .uhf 0 (accessBody op) none s
  | some a =>
    match a.kind with
    | 0 => accessSend { op with stage := .op 0 false } (.read a.bank a.ptr a.words op.handle) 0 s
    | 1 => accessSend { op with stage := .op 0 true } (.reqRn op.handle) 0 s
    | 2 =>
      match execOf s .uhf with
      | none => s
      | some e =>
        accessSend { op with stage := .op 0 false }
          (.blockWrite a.bank a.ptr (poundRead s e.pkt.tenant a.data (2 * a.words)) op.handle) 20000 s
    | _ => accessSend { op with stage := .op 0 false } (.lock a.data op.handle) 20000 s

def accessFail (op : AccessOp) (tenant status code words : Nat) (s : State) : State :=
  finish .uhf status (accessBody op) none (accessResult op tenant status code words s)

/-- The operation at `idx` has succeeded. -/
def accessDone (op : AccessOp) (tenant words : Nat) (s : State) : State :=
  accessOp { op with idx := op.idx + 1 } (accessResult op tenant 0 0xFF words s)

/-- A word of data from the pound in air order, most significant byte first. -/
def airWord (bs : List Byte) : Half := BitVec.ofNat 16 (256 * (nth bs 0 0).toNat + (nth bs 1 0).toNat)

/-- One word of a Write, covered with the RN16 received. -/
def accessWrite (op : AccessOp) (a : AccessEntry) (tenant w : Nat) (rn : Half) (s : State) : State :=
  let v := airWord (poundRead s tenant (a.data + 2 * w) 2)
  accessSend { op with stage := .op w false } (.write a.bank (a.ptr + w) (v ^^^ rn) op.handle) 20000 s

/-- The answer to a command of the operation list (R621, R622). -/
def opNext (op : AccessOp) (a : AccessEntry) (tenant w : Nat) (cover : Bool) (res : FrameResult)
    (ans : Option UhfAnswer) (s : State) : State :=
  match res, ans with
  | .ok, some (.error code) =>
    accessFail op tenant 0x23 code.toNat w (raise 62 (code.toNat + 2 ^ 8 * op.idx) s)
  | .ok, some (.rn16 v) => if cover then accessWrite op a tenant w v s else accessFail op tenant 0x23 0xFF w s
  | .ok, some (.handle v) => if cover then accessWrite op a tenant w v s else accessFail op tenant 0x23 0xFF w s
  | .ok, some (.words bs) =>
    if a.kind = 0 ∧ bs.length = 2 * a.words then
      accessDone { op with readOff := op.readOff + bs.length } tenant a.words (poundWrite tenant op.readOff bs s)
    else accessFail op tenant 0x23 0xFF w s
  | .ok, some .done =>
    if cover ∨ a.kind = 0 then accessFail op tenant 0x23 0xFF w s
    else if a.kind = 1 ∧ w + 1 < a.words then
      accessSend { op with stage := .op (w + 1) true } (.reqRn op.handle) 0 s
    else accessDone op tenant a.words s
  | .ok, _ => accessFail op tenant 0x23 0xFF w s
  | r, _ => accessFail op tenant (resultStatus r) 0xFF w s

def accessNext (op0 : AccessOp) (tenant : Nat) (res : FrameResult) (ans : Option UhfAnswer) (lq evm : Nat)
    (s : State) : State :=
  let op := if op0.stage = .selectSl ∨ op0.stage = .selectS2 then op0 else { op0 with lq := lq, evm := evm }
  match op.stage with
  | .selectSl => accessSend { op with stage := .selectS2 } (epcSelect op 2) 0 s
  | .selectS2 => accessSend { op with stage := .query } (openQuery 3 2 false 0 s) 0 s
  | .query =>
    match res, ans with
    | .ok, some (.rn16 v) => accessSend { op with stage := .acked, rn := v } (.ack v) 0 s
    | _, _ => accessRetry op s
  | .acked =>
    match res, ans with
    | .ok, some (.epc _ epc) =>
      if epc = op.epc then accessSend { op with stage := .handle } (.reqRn op.rn) 0 s else accessRetry op s
    | _, _ => accessRetry op s
  | .handle =>
    match res, ans with
    | .ok, some (.handle v) => accessOp { op with handle := v } s
    | _, _ => accessRetry op s
  | .op w cover =>
    match op.ops[op.idx]? with
    | none => s
    | some a => opNext op a tenant w cover res ans s

/-- Pound data of Write and BlockWrite lies in a fenced word (R770). -/
def accessFenced (s : State) (n : Nat) (ops : List AccessEntry) : Bool :=
  ops.any fun a => (a.kind == 1 || a.kind == 2) && poundFenced s n a.data (2 * a.words)

def access (e : Exec) (s : State) : State :=
  let p := e.pkt
  let len := Packet8 p 0
  let n := Packet8 p 1
  let bs := poundRead s p.tenant (Packet32 p 8) (16 * n)
  let ops := (List.range n).map (accessEntry bs)
  if len < 2 ∨ 62 < len ∨ len % 2 ≠ 0 ∨ n = 0 ∨ 8 < n ∨ (List.range n).all (entryOk s p.tenant bs) = false
      ∨ inPound s p.tenant (Packet32 p 12) (accessSize ops) = false then finish .uhf 0x11 [] none s
  else if !carrierOn s then finish .uhf 0x23 [] none s
  else if accessFenced s p.tenant ops then finish .uhf 0x13 [] none s
  else
    accessAttempt
      { epc := poundRead s p.tenant (Packet32 p 4) len, ops := ops, idx := 0, attempts := 0, stage := .selectSl
        rn := 0, handle := 0, resOff := Packet32 p 12, readOff := Packet32 p 12 + 8 * n, lq := 0, evm := 1000 } s

def execUhfAccess (s : State) : Host.Outcome State Fault Refusal :=
  .next (onLeased .uhf 0x0401 access s)

/-! ## Received frames -/

/-- What the executing packet does with the answer to its last frame, or with none. -/
def uhfContinue (res : FrameResult) (ans : Option UhfAnswer) (lq evm : Nat) (s : State) : State :=
  match execOf s .uhf with
  | none => s
  | some e =>
    match e.phase with
    | .inventory op => invNext op e.pkt.tenant res ans lq evm s
    | .access op => accessNext op e.pkt.tenant res ans lq evm s
    | .select op => selectGo op.left s
    | _ => s

def countUhf (res : FrameResult) (s : State) : State :=
  let s1 := ctrAdd 0x2A 1 s
  if res = .ok then s1 else ctrAdd 0x2B 1 s1

/-- A qualifying tag reply feeds the image-rejection estimate, complete after 4 (R545, R546). -/
def gatherUhf (res : FrameResult) (lq : Nat) (s : State) : State :=
  if res = .ok ∧ 60 ≤ lq then
    let n := s.tow.uhf.gatherI + 1
    let s1 := onTowLane .uhf (fun t => { t with gatherI := n % 4 }) s
    if n = 4 then addDue .uhf [.irr] s1 else s1
  else s

def uhfRx (res : FrameResult) (ans : UhfAnswer) (m : RxMeas) (s : State) : State :=
  if s.uhf.wait.isNone || s.uhf.tx.isSome || !uhfLit s then s
  else
    let q := linkQuality s res m (uhfNoise s)
    let s1 := gatherUhf res q.1 (countUhf res s.useFree)
    let s2 := uhfBoundary (s1.onUhf fun u =>
      { u with wait := none, sof := false, gapNs := 1000 * s.time + uhfGap s })
    uhfContinue res (some ans) q.1 q.2 s2

def execUhfRxFrame (res : FrameResult) (ans : UhfAnswer) (m : RxMeas) (s : State) :
    Host.Outcome State Fault Refusal :=
  .next (if res = .noSof then s else uhfRx res ans m s)

/-! ## Hop, rest and dwell limit in a round (R430, R435, R615) -/

/-- The packet whose inventory is under way, executing or suspended. -/
def roundWaiter (e : Exec) : Bool :=
  match e.phase with
  | .inventory _ => true
  | _ => false

/-- The round in progress ends with the visit; a new tag resets the run of empty rounds, and the next round
begins with a new Query once the carrier is back. -/
def breakRound (s : State) : State :=
  s |> withWaiting .uhf roundWaiter fun s =>
  match execOf s .uhf with
  | none => s
  | some e =>
    match e.phase with
    | .inventory op =>
      let op1 := { op with emptyRun := if op.newInRound = 0 then op.emptyRun else 0 }
      beginRound op1 ((roundEvent op s).onUhf fun u => { u with held := none, wait := none })
    | _ => s

def execHop (s : State) : Host.Outcome State Fault Refusal :=
  .next (if hopReady s then breakRound (moveOn true s) else s)

def execDwellLimit (s : State) : Host.Outcome State Fault Refusal :=
  .next (if limitReached s then breakRound (dwellLimit s) else s)

end Sys2Proof.Machine
end

