-- ==== Sys2Proof/Machine/Spectrum.lean ====
section
/-! DEFINITION. The spectrum monitor and captures: MASK_CHECK_DONE, SPECTRUM_CHECK, CAPTURE_SAMPLES and
the moments of a capture (R480–R490, R495–R508). -/

namespace Sys2Proof.Machine

open Sys2Proof

/-! ## Mask checks (R482–R489) -/

/-- Body of a packet that ends before its exchange is complete: what its chapter lets a reply carry then. -/
def endBody (s : State) (e : Exec) : List Byte :=
  match e.phase with
  | .poll op => pollBody s op
  | .activate op => activateBody s op false 0
  | .raw _ => rawBody 0 .noSof 0 1000 [0, 0]
  | .iso op => isoBody op false
  | .deselect op => if op.drop then [] else deselectBody op
  | .inventory op => invBody op 3
  | .access op => accessBody op
  | .select _ => selectBody s
  | .carrierRise | .carrierFall | .settle =>
    if e.pkt.opcode = 0x0403 then uhfCarrierBody s else if e.pkt.opcode = 0x0300 then hfFieldBody s else e.partialBody
  | .channel => uhfChannelBody s
  | .fieldRise | .fieldFall => if e.pkt.opcode = 0x0300 then hfFieldBody s else []
  | _ => e.partialBody

/-- Phases whose packet may have a reader frame or a rise waiting for its check, suspended or not (R488). -/
def hfChecked (e : Exec) : Bool :=
  hfWaiter e || match e.phase with
  | .poll _ | .activate _ | .raw _ | .iso _ | .deselect _ => true
  | _ => false

def uhfChecked (e : Exec) : Bool :=
  uhfWaiter e || match e.phase with
  | .inventory _ | .access _ | .select _ | .carrierFall | .runOn _ _ => true
  | _ => false

/-- The packet that a refused frame or rise belongs to ends with 0x41 (R488). -/
def refuseOn (l : LaneId) (s : State) : State :=
  match execOf s l with
  | none => s
  | some e => if (if l = .uhf then uhfChecked e else hfChecked e) then finish l 0x41 (endBody s e) none s else s

/-- Payload of source 58 (R501). -/
def maskPayload (c : Chain) (reason : Nat) (margin : Int) : Nat :=
  chainIndex c + 2 * reason + 2 ^ 8 * (if reason = 1 then min 65535 (-margin).toNat else 0)

def onPeerRun (f : PeerRun → PeerRun) (s : State) : State := s.onPeer (Option.map f)

/-- Peer mode is given up: its frame is not sent, an own field falls, and a chain without one leaves LISTEN (R361). -/
def peerQuit (s : State) : State := hfFall 0 (hfIdle ((peerOff s).onHf fun h => { h with held := none }))

/-- Peer mode without the packet that drove it. -/
def peerAlone (s : State) : State :=
  onPeerRun (fun p =>
    { p with
      want := false, accepted := false, answer := false, rest := [], buf := []
      drawAt := if p.stage = .swapBackoff then none else p.drawAt
      stage := if p.stage = .reqSent ∨ p.stage = .swapBackoff then .open else p.stage }) s

/-- What a refused frame of peer mode leaves: a link that was being started or activated anew ends, the latter with code
2, and an open one goes on without the packet (R661, R669, R677; log 247). -/
def peerRefused (s : State) : State :=
  if (s.hfLane.exec.map fun e => e.phase) = some .peerStart then peerOff s
  else if (s.peer.map (·.stage)) = some .atrWait then peerQuit (raise 45 2 s)
  else peerAlone s

/-- A failed check: source 58, and the frame or rise that waited for it does not take place. -/
def maskFail (c : Chain) (reason : Nat) (margin : Int) (s : State) : State :=
  let s1 := raise 58 (maskPayload c reason margin) s
  match c with
  | .hf =>
    if s.hf.held.isNone then s1
    else
      let s2 := s1.onHf fun h => { h with held := none }
      let s3 := if s.peer.isSome then peerRefused s2 else s2
      match hfOwner s with
      | some l => refuseOn l s3
      | none => s3
  | .uhf =>
    if s.uhf.riseWait = .check then
      refuseOn .uhf (s1.onUhf fun u => { u with riseWait := .none, wantOn := false, held := none, radio := .synth })
    else if s.uhf.held.isSome then refuseOn .uhf (s1.onUhf fun u => { u with held := none })
    else s1

/-- A passed check: what waited for it starts. -/
def maskPass (c : Chain) (s : State) : State :=
  match c with
  | .hf => hfRelease (notSooner .hf s)
  | .uhf => if s.uhf.riseWait = .check then uhfRise s else uhfRelease (notSooner .uhf s)

/-! ## SPECTRUM_CHECK (R485, R506–R508) -/

/-- Twelve bytes of R507; a check without a mask or without a bin states no margin, negative where it fails, and no
offset. -/
def spectrumBody (s : State) (r : Nat × Option (Int × Int)) : List Byte :=
  let m : Int := if r.1 = 0 then (freeBelow s 32768 : Nat) else -1 - (freeBelow s 32768 : Nat)
  let w := r.2.getD (m, (freeNth s 1 (2 ^ 32) : Nat))
  le 1 r.1 ++ le 1 0 ++ leInt 2 w.1 ++ leInt 4 w.2 ++ le 4 0

/-- The check of the packet on a lane is made: verdict, levels in the order of the bins, reply. -/
def spectrumDone (l : LaneId) (bins : List (Int × Int)) (s : State) : State :=
  match execOf s l with
  | none => s
  | some e =>
    let p := e.pkt
    let c := chainOf (Packet8 p 0)
    let r := checkKey s c bins
    let s1 := if r.1 = 0 then keepVerdict c 0 s else s
    let s2 :=
      if bit (Packet8 p 1) 0 then
        poundWrite p.tenant (Packet32 p 4) (padTo 2048 (bins.map fun b => leInt 2 b.2).flatten) s1
      else s1
    finish l 0 (spectrumBody s r) none (if r.2.isNone then s2.useFree else s2)

/-- A SPECTRUM_CHECK that waits for the monitor, with its levels. -/
def specWaiter (e : Exec) : Bool :=
  match e.phase with
  | .specWait _ => true
  | _ => false

/-- SPECTRUM_CHECKs at the head of the monitor's queue have their turn, at most one per lane (R485). -/
def specTurns : Nat → State → State
  | 0, s => s
  | k + 1, s =>
    match s.spec.queue with
    | (_, some l) :: cs =>
      let go := fun (s : State) =>
        match (execOf s l).map (·.phase) with
        | some (.specWait bins) => spectrumDone l bins s
        | _ => s
      specTurns k (withWaiting l specWaiter go (s.onSpec fun m => { m with queue := cs }))
    | _ => s

/-! ## MASK_CHECK_DONE -/

/-- The card handling before a lease passes, which sends frames from the house lane. -/
def deselects (e : Exec) : Bool :=
  match e.phase with
  | .deselect _ => true
  | _ => false

/-- What a check of a transmission does for the packet that waits for it, suspended or not. -/
def checkEnds (c : Chain) (go : State → State) (s : State) : State :=
  match c with
  | .hf => if s.houseLane.all.any deselects then withWaiting .house deselects go s else withWaiting .hf hfChecked go s
  | .uhf => withWaiting .uhf uhfChecked go s

/-- The check at the head of the monitor's queue is done. -/
def execMaskCheckDone (bins : List (Int × Int)) (s : State) : Host.Outcome State Fault Refusal :=
  .next <|
    match s.spec.queue with
    | (c, none) :: cs =>
      let r := checkKey s c bins
      let s1 := keepVerdict c r.1 (s.onSpec fun m => { m with queue := cs })
      specTurns 3 (checkEnds c (if r.1 = 0 then maskPass c else maskFail c r.1 ((r.2.map (·.1)).getD 0)) s1)
    | _ => specTurns 3 s

/-- The check takes its place in the monitor's queue, and is made once the checks before it are (R485). -/
def spectrumCheck (l : LaneId) (bins : List (Int × Int)) (e : Exec) (s : State) : State :=
  let p := e.pkt
  let psd := bit (Packet8 p 1) 0
  if 1 < Packet8 p 0 ∨ (psd = false ∧ Packet32 p 4 ≠ 0) then finish l 0x11 [] none s
  else
    let c := chainOf (Packet8 p 0)
    specTurns 3 (setPhase l (.specWait bins) (s.onSpec fun m => { m with queue := m.queue ++ [(c, some l)] }))

/-- The lane that a packet of an opcode with a chain operand has been admitted on. -/
def laneOfFresh (s : State) (op : Nat) : LaneId :=
  if (freshOn s .hf op).isSome then .hf else if (freshOn s .uhf op).isSome then .uhf else .house

def execSpectrumCheck (bins : List (Int × Int)) (s : State) : Host.Outcome State Fault Refusal :=
  let l := laneOfFresh s 0x0A01
  .next (onFresh l 0x0A01 (spectrumCheck l bins) s)

/-! ## Captures (R495–R500, R504, R505) -/

def capOf (s : State) : Chain → Option Capture
  | .hf => s.capHf
  | .uhf => s.capUhf

def onCap (c : Chain) (f : Option Capture → Option Capture) (s : State) : State :=
  match c with
  | .hf => s.onCapHf f
  | .uhf => s.onCapUhf f

def radioOf (s : State) : Chain → Radio
  | .hf => s.hf.radio
  | .uhf => s.uhf.radio

def setRadio (c : Chain) (r : Radio) (s : State) : State :=
  match c with
  | .hf => s.onHf fun h => { h with radio := r }
  | .uhf => s.onUhf fun u => { u with radio := r }

def gainOf (s : State) : Chain → Nat
  | .hf => s.hf.gain
  | .uhf => s.uhf.gain

def litOf (s : State) : Chain → Bool
  | .hf => s.hf.on
  | .uhf => s.uhf.on

/-- Sampling starts: what the header says of the first sample. A towpath step in progress is abandoned (R560; log 245).
-/
def captureStart (c : Chain) (s0 : State) : State :=
  let s := towStop c s0
  onCap c (Option.map fun k =>
    { k with armed := false, stamp := stamp s, gain := gainOf s c, gainChanged := false, carrierOn := litOf s c }) s

/-- The rules of R504 on the parameters. -/
def captureOk (p : Packet) : Bool :=
  let b := Packet8 p
  let n := Packet16 p 4
  let t := Packet16 p 6
  decide (b 0 ≤ 1) && decide (b 1 ≤ 1 + b 0) && decide (b 2 ≤ 2) && decide (64 ≤ n) && decide (n ≤ 32768)
    && n % 64 == 0 && (if b 2 = 0 then t == 0 else decide (1 ≤ t) && decide (t ≤ 60000)) && Packet32 p 8 % 4 == 0

def captureSamples (l : LaneId) (e : Exec) (s : State) : State :=
  let p := e.pkt
  if 1 < Packet8 p 0 then finish l 0x11 [] none s
  else
    let c := chainOf (Packet8 p 0)
    if !holds s c p.tenant then finish l 0x14 [] none s
    else if !captureOk p then finish l 0x11 [] none s
    else if (capOf s c).isSome then finish l 0x23 [] none s
    else
      let k : Capture :=
        { tenant := p.tenant, tap := Packet8 p 1, trigger := Packet8 p 2, count := Packet16 p 4, off := Packet32 p 8
          timeoutAt := s.time + 1000 * Packet16 p 6, armed := Packet8 p 2 != 0, cut := false, stamp := 0, gain := 0
          gainChanged := false, carrierOn := litOf s c, wasSynth := radioOf s c == .synth }
      let s1 := onCap c (fun _ => some k) s
      let s2 := if k.wasSynth then setRadio c .listen s1 else s1
      finish l 0 [] none (if k.armed then s2 else captureStart c s2)

def execCaptureSamples (s : State) : Host.Outcome State Fault Refusal :=
  let l := laneOfFresh s 0x0A00
  .next (onFresh l 0x0A00 (captureSamples l) s)

/-! ## The digital taps (R447, R496) -/

/-- sin and cos of a coefficient of 2^−15 rad in units of 2^−60, by their series (R447; log 207). -/
def series (x2 : Int) : Nat → Int → Nat → Int
  | 0, _, _ => 0
  | k + 1, t, n => t + series x2 k (-(t * x2 / 2 ^ 120) / ((n + 1) * (n + 2) : Nat)) (n + 2)

def sin60 (phi : Int) : Int := let x := phi * 2 ^ 45; series (x * x) 8 x 1
def cos60 (phi : Int) : Int := let x := phi * 2 ^ 45; series (x * x) 8 (2 ^ 60) 0

/-- The corrector of R447: I' = I, Q' = (1 + ε)·Q·cos φ − I·sin φ, whose rounding is not stated. -/
def corrected (up : Nat) (c x : Int × Int) : Int × Int :=
  (x.1, ((2 ^ 15 + c.1) * x.2 * cos60 c.2 - 2 ^ 15 * x.1 * sin60 c.2) / 2 ^ 75 + up)

/-- A sample at the tap of a capture: taps 1 follow from what the ADC gives (R447, R496; log 207). -/
def atTap (s : State) (c : Chain) (k : Capture) (x : Int × Int) : Int × Int :=
  match c with
  | .hf => if k.tap = 1 then (x.1 - nth s.cal.hf.offsets k.gain 0, x.2) else x
  | .uhf => if k.tap = 1 then corrected (freeBelow s 2) (nth s.cal.uhf.irr s.uhf.bw (0, 0)) x else x

/-- A sample as R495 stores it. -/
def sampleBytes (c : Chain) (x : Int × Int) : List Byte :=
  let w := fun (v : Int) => leInt 2 (signed 14 (v % 16384).toNat)
  match c with
  | .hf => w x.1
  | .uhf => w x.1 ++ w x.2

/-- The header of R500. Without a sample, the timestamp and the gain of the first one are not stated. -/
def captureHeader (s : State) (c : Chain) (k : Capture) (n state : Nat) (clipped : Bool) : List Byte :=
  le 2 n ++ le 1 state ++ le 1 (b2n k.gainChanged + 2 * b2n clipped + 4 * b2n k.carrierOn)
    ++ le 4 (if k.armed then freeBelow s (2 ^ 32) else k.stamp)
    ++ le 1 (if k.armed then freeNth s 1 256 else k.gain) ++ le 1 k.tap ++ le 1 (chainIndex c) ++ le 21 0

/-- A capture ends (R499): samples and header in the pound, then source 46; a chain taken from SYNTH returns
to it. -/
def captureEnd (c : Chain) (k : Capture) (samples : List (Int × Int)) (state : Nat) (clipped : Bool) (s : State) :
    State :=
  let bytes := captureHeader s c k samples.length state clipped
    ++ (samples.map fun x => sampleBytes c (atTap s c k x)).flatten
  let s1 := onCap c (fun _ => none) (poundWrite k.tenant k.off bytes s)
  let heard := match c with
    | .hf => s.emu.armed || s.peer.isSome || s.hfLane.all.any fun e => match e.phase with
      | .sense t => decide (t ≤ s.time + 80)
      | _ => false
    | .uhf => s.uhf.riseWait == .lbt
  let s2 := if k.wasSynth && radioOf s c == .listen && !heard then setRadio c .synth s1 else s1
  raise 46 (chainIndex c + 2 * state + 8 * min 65535 samples.length) s2.useFree

/-- A start of frame or preamble, which is trigger 1 (R504). -/
def captureSof (c : Chain) (s : State) : State :=
  match capOf s c with
  | some k => if k.armed && !k.cut && k.trigger == 1 then captureStart c s else s
  | none => s

/-- The row of trigger 1; trigger 2 is the end of a reader frame, which has its own. -/
def execCaptureTriggered (c : Chain) (s : State) : Host.Outcome State Fault Refusal := .next (captureSof c s)

/-- A reader frame of the chain has ended, which is trigger 2 (R504). -/
def captureFrameEnd (c : Chain) (s : State) : State :=
  match capOf s c with
  | some k => if k.armed && !k.cut && k.trigger == 2 then captureStart c s else s
  | none => s

def execCaptureDone (c : Chain) (samples : List (Int × Int)) (clipped : Bool) (s : State) :
    Host.Outcome State Fault Refusal :=
  .next <|
    match capOf s c with
    | none => s
    | some k =>
      if k.cut then captureEnd c k (if k.armed then [] else samples.take k.count) 2 clipped s
      else if !k.armed && decide (k.count ≤ samples.length) then
        captureEnd c k (samples.take k.count) 0 clipped s
      else s

def execCaptureTimeout (c : Chain) (s : State) : Host.Outcome State Fault Refusal :=
  .next <|
    match capOf s c with
    | some k => if k.armed && !k.cut && decide (k.timeoutAt ≤ s.time) then captureEnd c k [] 1 false s else s
    | none => s

end Sys2Proof.Machine
end

