-- ==== Sys2Proof/Machine/NvOps.lean ====
section
/-! DEFINITION. The NV controller: the commit gate, the job queue, background erases, CRC-32, and
what a firmware bank holds (R126–R142). -/

namespace Sys2Proof.Machine

open Sys2Proof

/-! ## CRC-32 (R130) -/

/-- One bit of the reflected polynomial 0x04C1_1DB7. -/
def crcBit (c : Word) : Word := if c.getLsbD 0 then (c >>> 1) ^^^ 0xEDB88320 else c >>> 1

def crcByte (c : Word) (b : Byte) : Word :=
  (List.range 8).foldl (fun c _ => crcBit c) (c ^^^ b.zeroExtend 32)

def crc32 (bs : List Byte) : Word := (bs.foldl crcByte 0xFFFFFFFF) ^^^ 0xFFFFFFFF

/-! ## Gate and jobs (R47, R128, R129, R132) -/

/-! ## Key log entries and key records as they lie in NV (R715, R716) -/

/-- Bytes with their CRC-32 behind them (R130). -/
def withCrc (bs : List Byte) : List Byte := bs ++ le 4 (crc32 bs).toNat

/-- The last program of a record of the key store: its commit word (R129). -/
def commitHalf : List Byte := le 2 0x5AC3 ++ le 14 0

def keyEntryBytes (kind slot page flags version value : Nat) : List Byte :=
  withCrc (le 1 kind ++ le 1 slot ++ le 1 page ++ le 1 flags ++ le 2 version ++ le 4 value ++ le 2 0)

/-- State code of a CHECKPOINT entry. -/
def checkpointState (x : KeySlot) : Nat := if x.state = 3 then 2 else min 1 x.state

/-- Bytes 0–15 of the entry that a job writes. -/
def keyEntryOf (n : Nv) : JobKind → List Byte
  | .keyMove slot _ dst => keyEntryBytes 1 slot dst 0x80 (nth n.slots slot KeySlot.empty).version 0
  | .keyActivate slot sh => keyEntryBytes 1 slot sh.page 0 sh.version 0
  | .keyUse slot version ceiling => keyEntryBytes 2 slot 0xFF 0 version ceiling
  | .keyDestroy slot => keyEntryBytes 3 slot 0xFF 0 (nth n.slots slot KeySlot.empty).version 0
  | .keyRoll 0 => keyEntryBytes 4 0 0xFF 0 0 ((n.keyGen + 1) % 2 ^ 32)
  | .keyRoll (i + 1) =>
    let x := nth n.slots i KeySlot.empty
    keyEntryBytes 5 i (if x.state = 1 then x.page else 0xFF) (checkpointState x) x.version x.ceiling
  | _ => []

/-- The key field of a record, encrypted block by block under the device-unique key (log 240). -/
def wrapKey (key : List Byte) : List Byte :=
  let k := padTo 32 key
  aesEncrypt Config.deviceKey (k.take 16) ++ aesEncrypt Config.deviceKey (k.drop 16)

/-- Bytes 0–239 of a key record. -/
def keyRecordBody (slot : Nat) (sh : Shadow) : List Byte :=
  withCrc (padTo 224 (le 4 0x72144B53 ++ le 1 slot ++ le 1 sh.kind ++ le 1 sh.owner ++ le 1 sh.usage ++ le 2 sh.version
    ++ le 6 0 ++ wrapKey sh.key ++ padTo 3 sh.kcv)) ++ le 12 0

/-- A valid log entry (R131, R715). -/
def entryValid (b : List Byte) : Bool :=
  b.length == 32 && fieldOf b 16 2 == 0x5AC3 && fieldOf b 12 4 == (crc32 (b.take 12)).toNat

/-- A valid record of a slot (R131, R716). -/
def recordValid (b : List Byte) (slot version : Nat) : Bool :=
  b.length == 256 && fieldOf b 240 2 == 0x5AC3 && fieldOf b 224 4 == (crc32 (b.take 224)).toNat
    && fieldOf b 0 4 == 0x72144B53 && fieldOf b 4 1 == slot && fieldOf b 8 2 == version

/-- Worst-case commit time in µs (R132). -/
def commitTime : JobKind → Nat
  | .calStore .. => 3100
  | .charter _ => 800
  | .sealCharter _ => 100
  | .keyRecord .. | .keyCopy .. | .keyMove .. | .keyActivate .. | .keyDestroy _ | .keyUse .. | .keyRoll _ => 200
  | .defaults _ => 800
  | .fwBlock .. | .breakCharter | .keySector _ | .counter .. => 0
  | .fwAct .. => 100
  | .fwConfirm .. => 200
  | .log _ => 100

/-- The commit gate (R47). Staging a block and erasing are no commits; the counter advance has met the gate with its
confirmation, whose time in R132 covers both (log 177). -/
def gateOk (s : State) (k : JobKind) : Bool :=
  match k with
  | .fwBlock .. | .breakCharter | .keySector _ | .counter .. => true
  | k => decide (commitTime k + cfg s 0x104 ≤ s.pwr.tHold)

/-- Page programs of the body, read-back after the last. -/
def bodyPages : JobKind → Nat
  | .calStore .. => 64
  | .charter _ => 15
  | .defaults _ => 16
  | .fwBlock _ _ bs => bs.length / 256
  | .breakCharter | .keySector _ => 0
  | _ => 1

/-- A record ends with a commit word; a staged block and an erase do not (R129). -/
def hasCommit : JobKind → Bool
  | .fwBlock .. | .breakCharter | .keySector _ => false
  | _ => true

/-- The kinds that take an entry of the key log (R715). -/
def takesEntry : JobKind → Bool
  | .keyMove .. | .keyActivate .. | .keyDestroy _ | .keyUse .. => true
  | _ => false

/-- A job's body may start: the gate is open, and the key log has an entry left where it needs one. -/
def mayBegin (s : State) (k : JobKind) : Bool := gateOk s k && (!takesEntry k || decide (0 < s.nv.keyLogFree))

/-- How a job starts: erases first, else its body. -/
def firstStage (erases : Nat) (k : JobKind) : JobStage :=
  if 0 < erases then .erase erases else .body (bodyPages k)

def nvJob (k : JobKind) (lane : Option LaneId) (page erases : Nat) : NvJob :=
  ⟨k, firstStage erases k, lane, page, false, 0⟩

/-- A staged key record takes its page, torn until its commit word; an earlier shadow stands till then (R136). -/
def placeRecord (slot page : Nat) (n : Nv) : Nv :=
  { n with
    pool := modAt n.pool page fun _ => .shadow slot
    slots := modAt n.slots slot fun k => { k with torn := some page } }

/-- The sector of the key log that an entry's page lies in. -/
def entrySector (j : NvJob) : Nat := (j.page - 0xCD0) / 16

/-- Puts an item at an index, past the end too. -/
def putAt {α : Type} (d : α) (l : List α) (i : Nat) (v : α) : List α :=
  if i < l.length then modAt l i fun _ => v else l ++ List.replicate (i - l.length) d ++ [v]

/-- The bytes of an entry of the key log as far as they are programmed. -/
def putEntry (j : NvJob) (bs : List Byte) (n : Nv) : Nv :=
  { n with keyEntries := modAt n.keyEntries (entrySector j) fun l => putAt [] l j.entry bs }

/-- A started entry takes its area, torn until its commit word (R864). -/
def takeEntry (j : NvJob) (n : Nv) : Nv := putEntry j [] { n with keyLogFree := n.keyLogFree - 1 }

/-- The first program of a record: its area holds no valid record until the commit word (R131, R136). -/
def jobBegin (j : NvJob) (s : State) : State :=
  s.onNv fun n =>
    match j.kind with
    | .calStore b _ => if b then { n with calB := .torn } else { n with calA := .torn }
    | .charter _ => { n with charter := .torn, charterBytes := [] }
    | .sealCharter _ => { n with sealPage := .torn, sealBytes := [] }
    | .keyRecord slot sh => placeRecord slot sh.page n
    | .keyCopy _ _ dst _ => { n with pool := modAt n.pool dst fun _ => .dead }
    | .keyActivate slot sh =>
      { takeEntry j n with
        slots := modAt n.slots slot fun k =>
          { k with shadow := k.shadow.map fun h => { h with entryTorn := h.entryTorn || h.page == sh.page } } }
    | .keyMove .. | .keyDestroy _ | .keyUse .. => takeEntry j n
    | .keyRoll i => putEntry j [] { n with keyRollAt := i + 1, keyRollTo := entrySector j }
    | .counter area _ => { n with arcs := modAt n.arcs area fun _ => .torn }
    | .defaults _ => if j.page = 0xE10 then { n with defB := .torn } else { n with defA := .torn }
    | .fwAct b _ => if b then { n with fwB := { n.fwB with act := .torn } } else { n with fwA := { n.fwA with act := .torn } }
    | .log _ => { n with log := n.log ++ [none], logPos := (n.logPos + 1) % 1024 }
    | .fwConfirm b _ => if b then { n with fwB := { n.fwB with conf := .torn } } else { n with fwA := { n.fwA with conf := .torn } }
    | _ => n

/-- NV offset of the next key log entry, divided by 256 (R715). -/
def keyLogPage (s : State) : Nat := 0xCD0 + 16 * s.nv.keySector + (128 - s.nv.keyLogFree) / 8

/-- A key log entry takes its page when it is started. -/
def placeEntry (s : State) (j : NvJob) : NvJob :=
  if takesEntry j.kind then { j with page := keyLogPage s, entry := 128 - s.nv.keyLogFree } else j

/-- A job becomes the one that the controller runs. -/
def takeJob (j : NvJob) (s : State) : State :=
  match j.stage with
  | .erase _ => s.onNv fun n => { n with job := some j }
  | _ =>
    let run := fun (j : NvJob) => s.onNv fun n => { n with job := some { j with begun := true } }
    if j.begun then run j else jobBegin (placeEntry s j) (run (placeEntry s j))

/-- What an NV command meets: the gate refuses it, or its job is taken. A job behind another meets the
gate when its turn comes (R128). -/
def nvSubmit (j : NvJob) (s : State) : Option State :=
  if s.nv.job.isSome then some (s.onNv fun n => { n with jobs := n.jobs ++ [j] })
  else
    match j.stage with
    | .erase _ => some (takeJob j s)
    | _ => if mayBegin s j.kind then some (takeJob j s) else none

/-- Several jobs of one command, one after the other: the first meets the gate now. -/
def nvSubmitAll (js : List NvJob) (s : State) : Option State :=
  match js with
  | [] => some s
  | j :: rest => (nvSubmit j s).map fun t => t.onNv fun n => { n with jobs := n.jobs ++ rest }

/-- A job that goes ahead of those that wait: it belongs to a command that was admitted earlier. -/
def nvAhead (j : NvJob) (s : State) : State := s.onNv fun n => { n with jobs := j :: n.jobs }

/-- NV offset of a record divided by 256 (R126, R137). -/
def pageOf : JobKind → Nat
  | .calStore b _ => if b then 0xC90 else 0xC50
  | .charter _ | .breakCharter => 0xC00
  | .sealCharter _ => 0xC0F
  | .keyRecord _ sh => 0xD30 + sh.page
  | .keyCopy _ _ dst _ => 0xD30 + dst
  | .keySector k => 0xD30 + 16 * k
  | .keyMove .. | .keyActivate .. | .keyDestroy _ | .keyUse .. | .keyRoll _ => 0xCD0
  | .defaults _ => 0xDD0
  | .fwBlock b off _ => (if b then 0x600 else 0) + off / 256
  | .fwAct b _ => if b then 0xBFE else 0x5FE
  | .fwConfirm b _ => if b then 0xBFF else 0x5FF
  | .counter area _ => 0xE50 + area
  | .log _ => 0xE90

/-- A commit is in progress (R41, R44). -/
def commitRunning (s : State) : Bool :=
  match s.nv.job with
  | some j => match j.stage with
    | .erase _ => false
    | _ => hasCommit j.kind
  | none => false

/-! ## Firmware banks (R139–R142) -/

def bankOf (s : State) (b : Bool) : FwBank := if b then s.nv.fwB else s.nv.fwA

def onBank (b : Bool) (f : FwBank → FwBank) (s : State) : State :=
  s.onNv fun n => if b then { n with fwB := f n.fwB } else { n with fwA := f n.fwA }

/-- A byte of a bank; one never programmed reads as the manual leaves open (log 5), and so does one of a chunk that
reads uncorrectable (R772). -/
def bankByte (k : FwBank) (off : Nat) : Byte :=
  if k.bad.contains (off / 16) then Config.badByte off
  else
    match k.mem.find? fun c => c.1 == off with
    | some c => c.2
    | none => Config.erasedByte off

def bankBytes (k : FwBank) (off n : Nat) : List Byte := (List.range n).map fun i => bankByte k (off + i)

/-- A 4 KiB sector of a bank is not blank (R150). The last sector also holds the state pages. -/
def sectorDirty (k : FwBank) (sector : Nat) : Bool :=
  k.dirty.contains sector || (sector == 95 && (k.act != .erased || k.conf != .erased))

def eraseSector (sector : Nat) (k : FwBank) : FwBank :=
  { mem := k.mem.filter fun c => c.1 / 4096 != sector
    shipped := false
    bad := k.bad.filter fun c => c / 256 != sector
    dirty := k.dirty.filter (· != sector)
    act := if sector = 95 then .erased else k.act
    conf := if sector = 95 then .erased else k.conf }

/-- One byte programmed, addresses rising. -/
def bankPut : List Host.Cell → Nat → Byte → List Host.Cell
  | [], a, v => [(a, v)]
  | (k, b) :: m, a, v =>
    if a < k then (a, v) :: (k, b) :: m
    else if a = k then (a, v) :: m
    else (k, b) :: bankPut m a v

def bankPutAll : List Host.Cell → Nat → List Byte → List Host.Cell
  | m, _, [] => m
  | m, a, v :: vs => bankPutAll (bankPut m a v) (a + 1) vs

/-- A bank's header fields (R139). -/
def bankField (k : FwBank) (i n : Nat) : Nat := leNat (bankBytes k i n)

/-- The anti-rollback counter (R144): the greatest value of its records. -/
def Nv.arc (n : Nv) : Nat :=
  n.arcs.foldl (fun m p => match p with
    | .valid v => max m v
    | _ => m) 0

/-- The first area of the counter that reads erased (R864). -/
def arcArea (n : Nv) : Option Nat :=
  (List.range 64).find? fun i => nth n.arcs i .torn == .erased

/-- The verdict on the release image, whose bytes are not held: a chunk of its body that reads uncorrectable spoils the
hash, and one of its header leaves open which of the checks fails (R157, R772). -/
def shippedVerdict (s : State) (k : FwBank) : Nat :=
  if k.bad.any (fun c => decide (c < 8)) then 1 + (Config.badByte 0).toNat % 5
  else if k.bad.any (fun c => decide (16 ≤ c)) then 3
  else if bankField k 12 4 < s.nv.arc then 5
  else 0

/-- The verdict of R157 on a bank's image; the release image passes all but the counter's check. A body length within
the limit that is no multiple of 256 gets verdict 2 as well, the one that R157 has for a length (log 178). -/
def fwVerdict (s : State) (k : FwBank) : Nat :=
  let len := bankField k 16 4
  if k.shipped then shippedVerdict s k
  else if bankField k 0 4 ≠ 0x7214F1A5 ∨ bankField k 4 2 ≠ 1 then 1
  else if 392448 < len ∨ len % 256 ≠ 0 then 2
  else if sha256 (bankBytes k 0x100 len) ≠ bankBytes k 20 32 then 3
  else if !Config.ecdsaOk (bankBytes k 0 52) (bankBytes k 52 64) then 4
  else if bankField k 12 4 < s.nv.arc then 5
  else 0

/-- The body of FW_VERIFY (R157). -/
def fwVerifyBody (s : State) (k : FwBank) : List Byte :=
  le 1 (fwVerdict s k) ++ le 3 0 ++ bankBytes k 8 8

/-- The rules of FW_STAGE_BLOCK on offset and length (R156). -/
def stageRangeOk (off len : Nat) : Bool :=
  off % 256 == 0 && decide (off ≤ 0x5FD00) && len % 256 == 0 && decide (256 ≤ len)
    && decide (len ≤ 4096) && off / 4096 == (off + len - 1) / 4096 && decide (off + len ≤ 0x5FE00)

/-- A sector that the pre-erase of its bank has not reached yet. -/
def sectorAwaits (s : State) (b : Bool) (k : Nat) : Bool :=
  s.nv.bg.any fun e => match e with
    | .fwBank x l => x == b && l.contains k
    | _ => false

/-- The job of staging a block: an erase first where the block starts a sector that is not blank (R150), or where the
bank's pre-erase has not reached its sector. -/
def stageJob (s : State) (b : Bool) (off : Nat) (bs : List Byte) (lane : Option LaneId) : NvJob :=
  let k : JobKind := .fwBlock b off bs
  let starts : Bool := off % 4096 == 0 && sectorDirty (bankOf s b) (off / 4096)
  nvJob k lane (pageOf k) (if starts || sectorAwaits s b (off / 4096) then 1 else 0)

/-- A staged sector leaves the bank's pre-erase: its block has erased it. -/
def dropAwaited (b : Bool) (k : Nat) (s : State) : State :=
  s.onNv fun n => { n with bg := n.bg.map fun e => match e with
    | .fwBank x l => if x = b then .fwBank x (l.filter (· != k)) else .fwBank x l
    | e => e }

/-! ## The charter record as bytes (R129, R509–R511) -/

def maskBytes (pts : List (Nat × Int)) : List Byte :=
  padTo 64 (pts.map fun p => le 2 p.1 ++ leInt 2 p.2).flatten

/-- Bytes 0x000–0xEF7 of a record. -/
def charterImage (c : Charter) : List Byte :=
  le 4 0x7214CA47 ++ le 2 1 ++ le 1 c.profile ++ le 1 0 ++ le 4 c.gen ++ le 4 0 ++ padTo 32 c.label ++ le 16 0
    ++ le 4 c.hfMax ++ le 1 c.hfMask.length ++ le 3 0 ++ maskBytes c.hfMask ++ le 56 0
    ++ le 1 (b2n c.uhfEnable + 2 * b2n c.fixedOk + 4 * b2n c.lbt) ++ le 1 c.raster.length
    ++ le 1 c.uhfMask.length ++ le 1 0 ++ le 2 c.maxEirp ++ leInt 2 c.antGain ++ le 2 c.cableLoss
    ++ leInt 2 c.lbtThr ++ le 4 c.dwell ++ le 4 c.window ++ le 4 c.occLimit ++ le 2 c.rest
    ++ le 2 c.lbtListen ++ le 2 c.lbtBackoff ++ le 2 0 ++ maskBytes c.uhfMask
    ++ padTo 256 (c.raster.map (le 4)).flatten ++ List.replicate 3288 0

/-- What a commit programs before the commit word: the record, or the seal, with its CRC (R129). -/
def charterBody (c : Charter) : List Byte := charterImage c ++ le 4 (crc32 (charterImage c)).toNat

def sealBody (g : Nat) : List Byte := le 4 g ++ le 8 0 ++ le 4 (crc32 (le 4 g ++ le 8 0)).toNat

/-! ## Chunks that read corrected or uncorrectable (R771, R772) -/

/-- The fault log without the record of one area of its ring (R779). -/
def spoilLog (area : Nat) (n : Nv) : Nv :=
  { n with log := n.log.mapIdx fun i r => if (n.logPos + 1024 - n.log.length + i) % 1024 = area then none else r }

/-- Bytes of which one chunk at an offset of the whole reads uncorrectable. -/
def spoilBytes (base off : Nat) (bs : List Byte) : List Byte :=
  bs.mapIdx fun i b => if i / 16 = off / 16 then Config.badByte (base + i) else b

/-- The charter region with a chunk that reads uncorrectable: what is programmed beside it reads on. -/
def spoilCharter (off : Nat) (n : Nv) : Nv :=
  if off < 0xF00 then
    { n with
      charter := .torn
      charterBytes := spoilBytes 0xC0000 off (match n.charter with
        | .valid c => charterBody c ++ le 2 0x5AC3 ++ le 2 0
        | _ => n.charterBytes) }
  else
    { n with
      sealPage := .torn
      sealBytes := spoilBytes 0xC0F00 (off - 0xF00) (match n.sealPage with
        | .valid g => sealBody g ++ commitHalf
        | _ => n.sealBytes) }

/-- An uncorrectable chunk makes its record invalid: the bank, the charter or its seal, the calibration bank, the entry
or record of the key store, the default set, the counter, the log record that it lies in (R126, R772). -/
def spoilChunk (a : Nat) (n : Nv) : Nv :=
  let bank := fun (off : Nat) (k : FwBank) =>
    if 0x5FF00 ≤ off then { k with conf := .torn }
    else if 0x5FE00 ≤ off then { k with act := .torn }
    else { k with bad := off / 16 :: k.bad.filter (· != off / 16) }
  if a < 0x60000 then { n with fwA := bank a n.fwA }
  else if a < 0xC0000 then { n with fwB := bank (a - 0x60000) n.fwB }
  else if a < 0xC1000 then spoilCharter (a - 0xC0000) n
  else if a < 0xC5000 then { n with calF := .torn }
  else if a < 0xC9000 then { n with calA := .torn }
  else if a < 0xCD000 then { n with calB := .torn }
  else if a < 0xD3000 then
    { n with keyEntries := modAt n.keyEntries ((a - 0xCD000) / 4096) fun l => putAt [] l ((a - 0xCD000) % 4096 / 32) [] }
  else if a < 0xDD000 then { n with poolBytes := modAt n.poolBytes ((a - 0xD3000) / 256) fun _ => [] }
  else if a < 0xE1000 then { n with defA := .torn }
  else if a < 0xE5000 then { n with defB := .torn }
  else if a < 0xE9000 then { n with arcs := modAt n.arcs ((a - 0xE5000) / 256) fun _ => .torn }
  else if a < 0xF9000 then spoilLog ((a - 0xE9000) / 64) n
  else n

/-- NV_UE and a record of kind 7 that names the chunk (R772). -/
def nvBadChunk (a : Nat) (s : State) : State := logRecord 7 0xFF 0xFF 0 (a / 16 * 16) (ctrAdd 4 1 (s.onNv (spoilChunk a)))

/-- What a command reads between two offsets: the corrected chunks count in NV_CE, and each uncorrectable one makes its
record invalid before the command goes on (R771, R772). -/
def eccRead (lo hi : Nat) (r : EccRead) (s : State) : State :=
  (r.bad.filter fun a => decide (lo ≤ a) && decide (a < hi)).foldl (fun s a => nvBadChunk a s) (ctrAdd 3 r.corrected s)

end Sys2Proof.Machine
end

