-- ==== Sys2Proof/Machine/System.lean ====
section
/-! DEFINITION. The system opcodes: NOP, GET_INFO, GET_STATUS, SET_CONFIG, GET_CONFIG,
READ_COUNTERS, GET_FENCES, GET_LOG, STAGE_PROTECTION, SET_WEIGHTS, LEASE_QUERY. -/

namespace Sys2Proof.Machine

open Sys2Proof

/-! ## Status words -/

/-- A temperature byte (R60). -/
def tempByte (t : Int) : Nat := min 255 (t + 64).toNat

def radioCode : Radio → Nat
  | .sleep => 0 | .standby => 1 | .synth => 2 | .listen => 3 | .rx => 4 | .tx => 5

/-- A SAM has its supply; between two classes it has none (R816). -/
def samSupplied (m : Sam) : Bool := m.stage != .off && m.stage != .offWait

/-- ACTIVE (R68): a chain, a SAM, or the cipher unit from the start to the reply of its opcode (log 217). -/
def active (s : State) : Bool :=
  decide (2 ≤ radioCode s.hf.radio) || decide (2 ≤ radioCode s.uhf.radio)
    || samSupplied s.sam0 || samSupplied s.sam1
    || s.houseLane.all.any fun e => e.pkt.opcode == 0x0720 || e.pkt.opcode == 0x0721

/-- Charter state of R302. -/
def charterState (s : State) : Nat :=
  match s.chr.inForce with
  | none => 0
  | some _ => if s.chr.sealed then 2 else 1

/-- Who a lease belongs to, for LEASE_QUERY: the tenant being granted counts as holder (R260). -/
def shownHolder (l : Lease) : Option Nat :=
  match l.holder with
  | some h => some h
  | none => l.granting.map (·.tenant)

/-- Byte 0 of R262. -/
def holderByte (l : Lease) (caller : Nat) : Nat :=
  match shownHolder l with
  | none => 0xFF
  | some h => if caller = 0 ∨ h = caller then h else 0xFE

/-- The caller's place in a lease queue, 1 = next, 0 when it does not wait. -/
def placeIn (q : List Waiter) (n : Nat) : Nat :=
  match q.findIdx? fun w => w.tenant == n with
  | some i => i + 1
  | none => 0

/-- The eight bytes of one chain (R262); the time held is cut to its low 32 bits (log 252). -/
def leaseBytes (s : State) (l : Lease) (caller : Nat) : List Byte :=
  let state := if (shownHolder l).isSome then 1 else if l.handover then 2 else 0
  let held := if l.holder.isSome ∧ (caller = 0 ∨ l.holder = some caller) then s.time - l.grantAt else 0
  le 1 (holderByte l caller) ++ le 1 state ++ le 1 (placeIn l.queue caller) ++ le 1 l.queue.length
    ++ le 4 held

def infoBody (s : State) (caller : Nat) : List Byte :=
  le 2 0x7214 ++ le 1 0x11 ++ le 1 0 ++ le 4 s.fw.version.toNat ++ le 4 s.fw.secver ++ le 4 s.nv.arc
    ++ le 1 (b2n s.fw.bankB) ++ le 1 s.cal.bankHf ++ le 1 s.cal.bankUhf ++ le 1 (charterState s)
    ++ le 8 s.nv.serial ++ le 1 caller ++ le 1 s.nv.grade ++ le 2 0

/-- The body of GET_STATUS (R303). A VIN above 65 535 mV is shown as 65 535 (log 256), and a fenced thermal sensor with
its last reading before the fence (log 257). -/
def statusBody (s : State) (caller : Nat) : List Byte :=
  le 4 (fenceMap s) ++ le 1 s.aon.startCause ++ le 1 (b2n (active s)) ++ le 1 (tempByte s.therm.temp)
    ++ le 1 0 ++ le 4 s.pwr.eHold ++ le 4 s.pwr.tHold ++ le 2 (min 65535 s.pwr.vin) ++ le 2 (budget s)
    ++ le 2 s.pwr.hfGrant ++ le 2 s.pwr.uhfGrant ++ le 1 (radioCode s.hf.radio)
    ++ le 1 (radioCode s.uhf.radio) ++ le 1 (holderByte s.hfLease caller)
    ++ le 1 (holderByte s.uhfLease caller) ++ le 4 s.pt.gen.toNat ++ le 2 (s.aon.cHold.getD 0) ++ le 6 0

/-! ## Rows without parameters -/

def execNop (s : State) : Host.Outcome State Fault Refusal :=
  .next (onFresh .house 0x0000 (fun _ s => finish .house 0 [] none s) s)

def execGetInfo (s : State) : Host.Outcome State Fault Refusal :=
  .next (onFresh .house 0x0001 (fun e s => finish .house 0 (infoBody s e.pkt.tenant) none s) s)

def execGetStatus (s : State) : Host.Outcome State Fault Refusal :=
  .next (onFresh .house 0x0002 (fun e s => finish .house 0 (statusBody s e.pkt.tenant) none s) s)

/-- R785. -/
def fencesBody (s : State) : List Byte :=
  le 4 (fenceMap s) ++ (s.fence.causes.map (le 1)).flatten ++ (s.fence.attempts.map (le 1)).flatten

def execGetFences (s : State) : Host.Outcome State Fault Refusal :=
  .next (onFresh .house 0x0008 (fun _ s => finish .house 0 (fencesBody s) none s) s)

def execLeaseQuery (s : State) : Host.Outcome State Fault Refusal :=
  .next (onFresh .house 0x0202 (fun e s =>
    finish .house 0 (leaseBytes s s.hfLease e.pkt.tenant ++ leaseBytes s s.uhfLease e.pkt.tenant) none s) s)

/-! ## Configuration opcodes (R290–R297, R304–R310) -/

/-- The newest valid stored default set (R296). -/
def storedSet (s : State) : Option (Nat × List (Nat × Int)) :=
  match s.nv.defA, s.nv.defB with
  | .valid a, .valid b => some (if a.1 < b.1 then b else a)
  | .valid a, _ => some a
  | _, .valid b => some b
  | _, _ => none

/-- The older half is B: A holds the newest valid set. With no valid set the first half is taken (log 254). -/
def olderIsB (s : State) : Bool :=
  match s.nv.defA, s.nv.defB with
  | .valid a, .valid b => decide (b.1 ≤ a.1)
  | .valid _, _ => true
  | _, _ => false

/-- A stored value in a list of (ID, value) pairs. -/
def storedGet (vs : List (Nat × Int)) (id : Nat) : Option Int :=
  (vs.find? fun e => e.1 == id).map (·.2)

/-- Applied values laid over the stored ones. -/
def mergeStored (old : List (Nat × Int)) (new : List (Nat × Int)) : List (Nat × Int) :=
  (old.filter fun e => (storedGet new e.1).isNone) ++ new

/-- The commit of STORE_DEFAULT: the older half is erased first where it is not erased (R864). -/
def defaultsJob (s : State) (applied : List (Nat × Int)) : NvJob :=
  let b := olderIsB s
  let erased : Bool := match if b then s.nv.defB else s.nv.defA with
    | .erased => true
    | _ => false
  nvJob (.defaults (mergeStored ((storedSet s).map (·.2) |>.getD []) applied)) (some .house)
    (if b then 0xE10 else 0xDD0) (if erased then 0 else 4)

/-- Ends a SET_CONFIG whose entries have been applied: clamp space, reply, stored set. -/
def setConfigEnd (e : Exec) (a : Applied) : State :=
  let p := e.pkt
  let inP := bit (Packet8 p 2) 0
  let validate := bit (Packet8 p 2) 2
  let s1 :=
    if inP then
      poundWrite p.tenant (Packet32 p 4 + 8 * Packet16 p 0) (a.clamps.map clampBytes).flatten a.s
    else a.s
  let s2 := onExec .house (fun x => { x with clamps := a.clamps }) s1
  let body := le 2 (if validate then 0 else a.count) ++ le 2 0
  let status := if a.noRoom then 0x42 else 0
  if bit (Packet8 p 2) 1 && !validate then
    match nvSubmit (defaultsJob s2 (a.ids.map fun i => (i, cfgI s2 i))) s2 with
    | none => finish .house 0x60 body none s2
    | some s3 => onExec .house (fun x => { x with phase := .nv status, partialBody := body }) s3
  else finish .house status body none s2

/-- The entries of a SET_CONFIG packet, as bytes. -/
def entryBytes (s : State) (p : Packet) : List Byte :=
  if bit (Packet8 p 2) 0 then poundRead s p.tenant (Packet32 p 4) (8 * Packet16 p 0) else p.params.drop 8

/-- SET_CONFIG (R290, R304). VALIDATE_ONLY works out the clamps with the values that the entries would get (log 216). -/
def setConfig (e : Exec) (s : State) : State :=
  let p := e.pkt
  let n := Packet16 p 0
  let bs := entryBytes s p
  if !entriesOk bs n then finish .house 0x11 [] none s
  else
    let a := applyEntries p.tenant (entriesOf bs n) s
    setConfigEnd e (if bit (Packet8 p 2) 2 then { a with s := s } else a)

def execSetConfig (s : State) : Host.Outcome State Fault Refusal :=
  .next (onFresh .house 0x0003 setConfig s)

/-- One result of GET_CONFIG (R308); a result without a value has zeros there (log 255). -/
def getOne (s : State) (stored : Bool) (id : Nat) : List Byte :=
  match fieldDef id with
  | none => le 2 id ++ le 1 1 ++ le 1 0 ++ le 4 0
  | some _ =>
    if stored then
      match storedGet ((storedSet s).map (·.2) |>.getD []) id with
      | none => le 2 id ++ le 1 2 ++ le 1 0 ++ le 4 0
      | some v => le 2 id ++ le 1 0 ++ le 1 0 ++ leInt 4 v
    else le 2 id ++ le 1 0 ++ le 1 0 ++ leInt 4 (cfgI s id)

def getConfig (ecc : EccRead) (e : Exec) (s0 : State) : State :=
  let p := e.pkt
  let n := Packet16 p 0
  let inP := bit (Packet8 p 2) 0
  let s := if bit (Packet8 p 2) 1 then eccRead 0xDD000 0xE5000 ecc s0 else s0
  let bs := if inP then poundRead s p.tenant (Packet32 p 4) (2 * n) else p.params.drop 8
  let res := ((List.range n).map fun k => getOne s (bit (Packet8 p 2) 1) (fieldOf bs (2 * k) 2)).flatten
  if n = 0 ∨ 255 < n then finish .house 0x11 [] none s
  else if inP then
    finish .house 0 [] none (poundWrite p.tenant (align8 (Packet32 p 4 + 2 * n)) res s)
  else finish .house 0 res none s

def execGetConfig (s : State) (ecc : EccRead := {}) : Host.Outcome State Fault Refusal :=
  .next (onFresh .house 0x0004 (getConfig ecc) s)

/-- SET_WEIGHTS sets fields 0x0810–0x0817 as one SET_CONFIG would (R310). -/
def setWeights (e : Exec) (s : State) : State :=
  let a := applyEntries e.pkt.tenant ((List.range 8).map fun n => (0x810 + n, Packet8 e.pkt n)) s
  finish .house 0 (le 2 a.count ++ le 2 0) none (onExec .house (fun x => { x with clamps := a.clamps }) a.s)

def execSetWeights (s : State) : Host.Outcome State Fault Refusal :=
  .next (onFresh .house 0x0104 setWeights s)

/-! ## Counters (R775–R778, R783, R784) -/

/-- IDs of R777. -/
def ctrListed (id : Nat) : Bool :=
  (1 ≤ id && id ≤ 0xB) || (0x10 ≤ id && id ≤ 0x2C) || (0x30 ≤ id && id ≤ 0x39)

/-- A per-tenant counter is its own tenant's and the Keeper's (R778). -/
def ctrReadable (id n : Nat) : Bool := n == 0 || !(0x10 ≤ id && id < 0x28) || id % 8 == n

def ctrClearable (id n : Nat) : Bool := n == 0 || (0x10 ≤ id && id < 0x28 && id % 8 == n)

/-- WDT_RESETS is kept in AON. -/
def ctrValue (s : State) (id : Nat) : Nat := if id = 5 then s.aon.wdtResets else ctrGet s id

def ctrReset (id : Nat) (s : State) : State :=
  if id = 5 then (ctrClear 5 s).onAon fun a => { a with wdtResets := 0 } else ctrClear id s

/-- One entry of READ_COUNTERS, and the state after its clear. -/
def readOne (n : Nat) (clear : Bool) (id : Nat) (s : State) : List Byte × State :=
  if !ctrListed id then (le 2 id ++ le 1 2 ++ le 1 0 ++ le 4 0, s)
  else
    let may := ctrReadable id n
    let clr := clear && ctrClearable id n
    let flags := b2n (may && ctrSat s id) + 4 * b2n (!may) + 8 * b2n (clear && !clr)
    (le 2 id ++ le 1 flags ++ le 1 0 ++ le 4 (if may then ctrValue s id else 0),
      if clr then ctrReset id s else s)

/-- Entries from `id` on, read one after another. -/
def readMany (n : Nat) (clear : Bool) : Nat → Nat → State → List Byte × State
  | 0, _, s => ([], s)
  | k + 1, id, s =>
    let a := readOne n clear (id % 65536) s
    let r := readMany n clear k (id + 1) a.2
    (a.1 ++ r.1, r.2)

def readCounters (e : Exec) (s : State) : State :=
  let p := e.pkt
  let count := Packet16 p 2
  if count = 0 ∨ 64 < count ∨ Packet32 p 8 % 4 ≠ 0 then finish .house 0x11 [] none s
  else
    let r := readMany p.tenant (bit (Packet8 p 4) 0) count (Packet16 p 0) s
    finish .house 0 (le 2 count ++ le 2 0) none (poundWrite p.tenant (Packet32 p 8) r.1 r.2)

def execReadCounters (s : State) : Host.Outcome State Fault Refusal :=
  .next (onFresh .house 0x0007 readCounters s)

/-! ## Fault log (R779, R786, R787) -/

/-- Bytes 0–15 and 16–43 of a record. -/
def logHead (r : LogRec) : List Byte :=
  le 1 r.kind ++ le 1 (b2n r.lost) ++ le 1 r.src ++ le 1 r.tenant ++ le 4 r.seq ++ le 8 r.time

def logMid (r : LogRec) : List Byte :=
  le 3 r.pay.toNat ++ le 1 r.cause ++ le 4 r.location ++ le 4 r.version.toNat
    ++ padTo 16 (r.detail.map fun w => le 4 w.toNat).flatten

/-- A record of 64 bytes as a tenant may see it: another tenant's bytes 16–43 read 0 (R787). -/
def logBytes (caller : Nat) (r : LogRec) : List Byte :=
  let hide := caller != 0 && r.tenant != 0xFF && r.tenant != caller
  logHead r ++ (if hide then List.replicate 28 0 else logMid r)
    ++ le 4 (crc32 (logHead r ++ logMid r)).toNat ++ le 2 0x5AC3 ++ List.replicate 14 0

/-- Records held, in NV and waiting, in sequence order. -/
def logHeld (s : State) : List LogRec := s.nv.log.filterMap id ++ s.contain.queue

/-- A sequence is not earlier than another (R774). -/
def seqFrom (a first : Nat) : Bool := decide ((a + 2 ^ 32 - first % 2 ^ 32) % 2 ^ 32 < 2 ^ 31)

/-- Oldest and newest sequence held; a free value when nothing is held. -/
def logEnds (s : State) : Nat × Nat × State :=
  match (logHeld s).head?, (logHeld s).getLast? with
  | some a, some b => (a.seq, b.seq, s)
  | _, _ => (Config.freeNat s.free, Config.freeNat s.free, s.useFree)

def getLog (ecc : EccRead) (e : Exec) (s0 : State) : State :=
  let s := eccRead 0xE9000 0xF9000 ecc s0
  let p := e.pkt
  let n := Packet16 p 4
  let off := Packet32 p 8
  let first := Packet32 p 0
  let recs := ((logHeld s).filter fun r => first == 0xFFFFFFFF || seqFrom r.seq first).take n
  if n = 0 ∨ 1024 < n ∨ off % 4 ≠ 0 ∨ inPound s p.tenant off (64 * recs.length) = false then
    finish .house 0x11 [] none s
  else
    let w := logEnds s
    finish .house 0
      (le 2 recs.length ++ le 2 0 ++ le 4 w.1 ++ le 4 w.2.1 ++ le 4 (ctrGet s 0xB)) none
      (poundWrite p.tenant off (recs.map (logBytes p.tenant)).flatten w.2.2)

def execGetLog (s : State) (ecc : EccRead := {}) : Host.Outcome State Fault Refusal :=
  .next (onFresh .house 0x0009 (getLog ecc) s)

/-! ## STAGE_PROTECTION (R256) -/

/-- 128 words of a 512-byte image. -/
def imageWords (bs : List Byte) : List Word :=
  (List.range 128).map fun k => BitVec.ofNat 32 (fieldOf bs (4 * k) 4)

def stageProtection (e : Exec) (s : State) : State :=
  let off := Packet32 e.pkt 0
  if off % 4 ≠ 0 then finish .house 0x11 [] none s
  else
    finish .house 0 [] none
      (s.onPt fun t => { t with staging := imageWords (poundRead s e.pkt.tenant off 512) })

def execStageProtection (s : State) : Host.Outcome State Fault Refusal :=
  .next (onFresh .house 0x0100 stageProtection s)

end Sys2Proof.Machine
end

