-- ==== Sys2Proof/Machine/CharterRows.lean ====
section
/-! DEFINITION. The regulatory charter: content checks, CHARTER_READ, CHARTER_WRITE, CHARTER_SEAL,
CHARTER_BREAK, and what a charter change does (R509–R534). -/

namespace Sys2Proof.Machine

open Sys2Proof

/-! ## The record as bytes (R509–R511) -/

def maskPoints (bs : List Byte) (off n : Nat) : List (Nat × Int) :=
  (List.range n).map fun k => (fieldOf bs (off + 4 * k) 2, signed 16 (fieldOf bs (off + 4 * k + 2) 2))

/-- The content of an image. -/
def charterOf (bs : List Byte) : Charter where
  profile := fieldOf bs 6 1
  gen := fieldOf bs 8 4
  label := (bs.drop 0x10).take 32
  hfMax := fieldOf bs 0x40 4
  hfMask := maskPoints bs 0x48 (fieldOf bs 0x44 1)
  uhfEnable := bit (fieldOf bs 0xC0 1) 0
  fixedOk := bit (fieldOf bs 0xC0 1) 1
  lbt := bit (fieldOf bs 0xC0 1) 2
  raster := (List.range (fieldOf bs 0xC1 1)).map fun k => fieldOf bs (0x120 + 4 * k) 4
  uhfMask := maskPoints bs 0xE0 (fieldOf bs 0xC2 1)
  maxEirp := fieldOf bs 0xC4 2
  antGain := signed 16 (fieldOf bs 0xC6 2)
  cableLoss := fieldOf bs 0xC8 2
  lbtThr := signed 16 (fieldOf bs 0xCA 2)
  dwell := fieldOf bs 0xCC 4
  window := fieldOf bs 0xD0 4
  occLimit := fieldOf bs 0xD4 4
  rest := fieldOf bs 0xD8 2
  lbtListen := fieldOf bs 0xDA 2
  lbtBackoff := fieldOf bs 0xDC 2

/-! ## Content checks (R513) -/

def zeroRange (bs : List Byte) (off n : Nat) : Bool := ((bs.drop off).take n).all (· == 0)

/-- Reserved bytes (R509); in an image supplied for writing, the generation and the end of the record too. -/
def charterZeros (bs : List Byte) (image : Bool) : Bool :=
  ([(0x07, 1), (0x0C, 4), (0x30, 16), (0x45, 3), (0x88, 56), (0xC3, 1), (0xDE, 2), (0x220, 3288)] : List (Nat × Nat)).all
      (fun r => zeroRange bs r.1 r.2)
    && fieldOf bs 0xC0 1 / 8 == 0
    && (!image || (zeroRange bs 8 4 && zeroRange bs 0xEF8 8))

def powerValueOk (p : Nat) : Bool := p == 0 || (p % 31250 == 0 && decide (31250 ≤ p) && decide (p ≤ 2000000))

def rasterOk (bs : List Byte) (c : Charter) : Bool :=
  decide (1 ≤ c.raster.length) && decide (c.raster.length ≤ 64)
    && c.raster.all (fun f => decide (860000 ≤ f) && decide (f ≤ 960000)) && decide c.raster.Nodup
    && zeroRange bs (0x120 + 4 * c.raster.length) (256 - 4 * c.raster.length)

def rising : List (Nat × Int) → Bool
  | a :: b :: rest => decide (a.1 < b.1) && rising (b :: rest)
  | _ => true

/-- R510; `bin` is the least first offset in kHz. -/
def maskOk (bs : List Byte) (off : Nat) (pts : List (Nat × Int)) (bin : Nat) : Bool :=
  decide (2 ≤ pts.length) && decide (pts.length ≤ 16) && rising pts && decide (bin ≤ (nth pts 0 (0, 0)).1)
    && zeroRange bs (off + 4 * pts.length) (64 - 4 * pts.length)

/-- The UHF figures with their ranges; no other code names those of EIRP, gain, loss and threshold. -/
def timingOk (c : Charter) : Bool :=
  decide (1 ≤ c.dwell) && decide (c.dwell ≤ c.window) && decide (1000 ≤ c.window) && decide (c.window ≤ 3600000)
    && decide (c.dwell ≤ c.occLimit) && decide (c.occLimit ≤ c.window) && decide (c.rest ≤ 10000)
    && decide (c.lbtListen ≤ 10000) && decide (c.lbtBackoff ≤ 1000) && decide (c.maxEirp ≤ 4000)
    && decide (-1000 ≤ c.antGain) && decide (c.antGain ≤ 2000) && decide (c.cableLoss ≤ 2000)
    && decide (-1000 ≤ c.lbtThr) && decide (c.lbtThr ≤ -400)

/-- The first failing code from 2 on, 0 for none. -/
def charterCode (bs : List Byte) (image : Bool) : Nat :=
  let c := charterOf bs
  if fieldOf bs 0 4 ≠ 0x7214CA47 ∨ fieldOf bs 4 2 ≠ 1 then 2
  else if !charterZeros bs image then 3
  else if !powerValueOk c.hfMax then 4
  else if !rasterOk bs c then 5
  else if !maskOk bs 0x48 c.hfMask 14 || !maskOk bs 0xE0 c.uhfMask 32 then 6
  else if !timingOk c then 7
  else if c.lbt ∧ c.lbtListen < 100 then 8
  else if 2 < c.profile then 9
  else 0

/-! ## Built-in profiles (R522) -/

def hfMaskBuiltIn : List (Nat × Int) := [(150, -200), (1000, -300), (3000, -400), (6780, -450)]

def profileEu (hfMax cableLoss : Nat) (antGain : Int) : Charter where
  profile := 1
  gen := 0
  label := List.replicate 32 0
  hfMax := hfMax
  hfMask := hfMaskBuiltIn
  uhfEnable := true
  fixedOk := true
  lbt := false
  raster := [865700, 866300, 866900, 867500]
  uhfMask := [(100, -100), (200, -300), (600, -450), (1200, -600)]
  maxEirp := 3515
  antGain := antGain
  cableLoss := cableLoss
  lbtThr := -700
  dwell := 4000
  window := 60000
  occLimit := 60000
  rest := 100
  lbtListen := 0
  lbtBackoff := 0

def profileUs (hfMax cableLoss : Nat) (antGain : Int) : Charter :=
  { profileEu hfMax cableLoss antGain with
    profile := 2, fixedOk := false, raster := (List.range 50).map fun i => 902750 + 500 * i, maxEirp := 3600
    uhfMask := [(250, -200), (500, -300), (1000, -500)], dwell := 400, window := 20000, occLimit := 400, rest := 0 }

/-! ## A change of the charter in force (R464, R521, R527) -/

/-- One power field above its new limit is lowered, with source 13. -/
def recheckField (id : Nat) (s : State) : State :=
  match charterLimit s id with
  | none => s
  | some m => if m < cfgI s id then clampEvent id (setField id m s) else s

/-- The channel mode and index of a reset (R464). -/
def resetChannel (s : State) : State :=
  let s1 := s.onUhf fun u =>
    { u with mode := 1, index := 0, perm := [], nextChannel := none, hopDue := false, restUntil := 0, visitFrom := none }
  match s.chr.inForce with
  | none => s1
  | some c =>
    if c.fixedOk then setDivider (s1.onUhf fun u => { u with mode := 0 })
    else match pickFirst s1 with
      | (some i, s2) => setIndex i s2
      | (none, s2) => setIndex (nth s2.uhf.perm 0 0) s2

/-- A charter comes into force, or none does. -/
def setCharter (c : Option Charter) (isSealed : Bool) (s : State) : State :=
  let s1 := s.onChr fun k => { k with inForce := c, sealed := isSealed }
  let s2 := recheckField 0x300 (recheckField 0x200 s1)
  resetChannel (s2.onUhf fun u => { u with ledger := [] })

/-- Every cached verdict is discarded (R486, R527). -/
def dropAllVerdicts (s : State) : State := dropVerdicts .uhf (dropVerdicts .hf s)

/-! ## Transmission stops (R526) -/

/-- Packets that transmit or wait to: those that wait for a fall to light the output anew, and for the draw of
PEER_START, among them. A passive target of peer mode only modulates its load (R515, R661). -/
def transmits (s : State) (e : Exec) : Bool :=
  match e.phase with
  | .poll _ | .activate _ | .raw _ | .iso _ | .deselect _ | .fieldRise | .settle | .carrierRise | .channel
  | .inventory _ | .access _ | .select _ | .calHold _ | .runWait _ _ | .runRise _ _ | .runOn _ _ | .sense _ | .tuneWait _
  | .peerStart => true
  | .peerXchg | .peerSwap => s.peer.any fun r => !r.target || r.activeMode
  | .fieldFall | .carrierFall => (e.pkt.opcode == 0x0300 || e.pkt.opcode == 0x0403) && Packet8 e.pkt 0 == 1
  | .draw _ => sendsHfFrame s e.pkt
  | _ => false

/-- The packets of a lane that transmit end with a status at their next yield point. -/
def stopTransmit (s : State) (st : Nat) (x : Lane) : Lane :=
  let f := fun (e : Exec) => if transmits s e ∧ e.stop = none then { e with stop := some st } else e
  { x with exec := x.exec.map f, susp := x.susp.map f }

/-- Peer mode cannot go on without a field of its own (R661, R670). -/
def peerFieldLost (s : State) : State :=
  match s.peer with
  | some p => if !p.target || p.activeMode then raise 45 3 (peerOff s) else s
  | none => s

/-- Every lit field and carrier falls at its next frame boundary, and nothing relights by itself. -/
def stopTransmission (s : State) : State :=
  let s1 := ((s.onChr fun k => { k with stopped := true }).onHfLane (stopTransmit s 0x40)).onUhfLane (stopTransmit s 0x40)
  let s2 := peerFieldLost s1
  let s3 := if hfEmits s2 then
      (if hfInFrame s2 then s2.onHf fun h => { h with nextStep := some 0 } else hfFall 0 s2)
    else s2
  if uhfEmits s3 ∧ uhfInFrame s3 = true then s3.onUhf fun u => { u with nextPower := some 0, wantOn := false }
  else uhfFall .stop s3

/-- The charter command has ended: outputs may be lit, and what is left of the key store used, again. -/
def resumeTransmission (s : State) : State := s.onChr fun k => { k with stopped := false, keysDead := false }

/-! ## CHARTER_READ (R531) -/

/-- The 4096 bytes of the region: the record and the seal, or as much of them as a commit that was cut off has
programmed; bytes not programmed read as the manual leaves open (log 5). -/
def charterRegion (s : State) : List Byte :=
  let blank := fun (off n : Nat) => (List.range n).map fun i => Config.erasedByte (0xC0000 + off + i)
  let part := fun (off n : Nat) (bs : List Byte) => bs ++ blank (off + bs.length) (n - bs.length)
  let rec_ := match s.nv.charter with
    | .valid c => charterBody c ++ le 2 0x5AC3 ++ le 2 0
    | .torn => part 0 0xF00 s.nv.charterBytes
    | .erased => blank 0 0xF00
  let seal_ := match s.nv.sealPage with
    | .valid g => sealBody g ++ le 2 0x5AC3 ++ le 14 0 ++ blank 0xF20 224
    | .torn => part 0xF00 256 s.nv.sealBytes
    | .erased => blank 0xF00 256
  rec_ ++ seal_

/-- The check code of the stored record: that of its bytes, and 2 for one that is absent or has no commit word though
its bytes pass (R512, R513, R531; log 62). -/
def storedCode (s : State) : Nat :=
  match s.nv.charter with
  | .valid c => charterCode (charterImage c) false
  | .torn => let code := charterCode ((charterRegion s).take 3840) false; if code = 0 then 2 else code
  | .erased => 2

def charterRead (ecc : EccRead) (e : Exec) (s0 : State) : State :=
  let s := eccRead 0xC0000 0xC1000 ecc s0
  let off := Packet32 e.pkt 0
  if off % 4 ≠ 0 then finish .house 0x11 [] none s
  else
    finish .house 0
      (le 1 (charterState s) ++ le 1 ((s.chr.inForce.map (·.profile)).getD 0xFF) ++ le 1 (storedCode s) ++ le 1 0
        ++ le 4 ((s.chr.inForce.map (·.gen)).getD 0)) none
      (poundWrite e.pkt.tenant off (charterRegion s) s)

def execCharterRead (s : State) (ecc : EccRead := {}) : Host.Outcome State Fault Refusal :=
  .next (onFresh .house 0x0106 (charterRead ecc) s)

/-! ## CHARTER_WRITE (R523, R532, R533) -/

def charterWriteBody (code gen : Nat) : List Byte := le 1 code ++ le 3 0 ++ le 4 gen

/-- The rules of R532. -/
def charterParamsOk (p : Packet) : Bool :=
  let gain := signed 16 (Packet16 p 12)
  match Packet8 p 0 with
  | 0 => Packet8 p 1 == 0 && Packet32 p 4 % 4 == 0 && Packet32 p 8 == 0 && Packet16 p 12 == 0 && Packet16 p 14 == 0
  | 1 =>
    (Packet8 p 1 == 1 || Packet8 p 1 == 2) && Packet32 p 4 == 0 && powerValueOk (Packet32 p 8)
      && decide (-1000 ≤ gain) && decide (gain ≤ 2000) && decide (Packet16 p 14 ≤ 2000)
  | _ => false

/-- The image to check and write. -/
def charterSource (s : State) (p : Packet) : List Byte :=
  if Packet8 p 0 = 0 then poundRead s p.tenant (Packet32 p 4) 3840
  else
    let mk := if Packet8 p 1 = 1 then profileEu else profileUs
    charterImage (mk (Packet32 p 8) (Packet16 p 14) (signed 16 (Packet16 p 12))) ++ le 8 0

def nextGeneration (s : State) : Nat := ((s.chr.inForce.map (·.gen + 1)).getD 1) % 2 ^ 32

/-- The checks, the gate, the stop, then the erase and the commit. -/
def charterWrite (e : Exec) (s : State) : State :=
  let p := e.pkt
  let bs := charterSource s p
  let code := if s.chr.sealed then 1 else charterCode bs true
  let c := { charterOf bs with gen := nextGeneration s }
  if !charterParamsOk p then finish .house 0x11 [] none s
  else if code ≠ 0 then finish .house 0x40 (charterWriteBody code 0) none s
  else if !gateOk s (.charter c) then finish .house 0x60 (charterWriteBody 0 0) none s
  else
    match nvSubmit (nvJob (.charter c) (some .house) (pageOf (.charter c)) 1) (stopTransmission s) with
    | none => finish .house 0x60 (charterWriteBody 0 0) none s
    | some s1 => onExec .house (fun x => { x with phase := .nv 0, partialBody := charterWriteBody 0 c.gen }) s1

def execCharterWrite (s : State) : Host.Outcome State Fault Refusal :=
  .next (onFresh .house 0x0107 charterWrite s)

/-- The erase of the sector begins: neither record nor seal is left. -/
def charterErased (s : State) : State := s.onNv fun n =>
  { n with charter := .erased, sealPage := .erased, charterBytes := [], sealBytes := [] }

/-- The new record has its commit word. -/
def charterCommitted (c : Charter) (s : State) : State :=
  dropAllVerdicts (setCharter (some c) false
    (s.onNv fun n => { n with charter := .valid c, sealPage := .erased, charterBytes := [] }))

/-- Nothing valid is left where the commit failed or the gate closed after the erase (R528). -/
def charterLost (torn : Bool) (s : State) : State :=
  dropAllVerdicts (setCharter none false
    (s.onNv fun n => { n with charter := if torn then .torn else .erased, sealPage := .erased }))

/-! ## CHARTER_SEAL (R524) -/

/-- A seal page that holds neither nothing nor a seal of this record cannot be written without erasing the
charter beside it: 0x61. -/
def charterSeal (_ : Exec) (s : State) : State :=
  match s.chr.inForce with
  | none => finish .house 0x40 [] none s
  | some c =>
    if s.chr.sealed then finish .house 0 [] none (dropAllVerdicts s)
    else if s.nv.sealPage ≠ .erased then finish .house 0x61 [] none (raise 9 (pageOf (.sealCharter c.gen)) s)
    else
      match nvSubmit (nvJob (.sealCharter c.gen) (some .house) (pageOf (.sealCharter c.gen)) 0) s with
      | none => finish .house 0x60 [] none s
      | some s1 => setPhase .house (.nv 0) s1

def execCharterSeal (s : State) : Host.Outcome State Fault Refusal :=
  .next (onFresh .house 0x0108 charterSeal s)

def sealCommitted (gen : Nat) (s : State) : State :=
  dropAllVerdicts ((s.onNv fun n => { n with sealPage := .valid gen, sealBytes := [] }).onChr fun k => { k with sealed := true })

/-! ## CHARTER_BREAK (R525, R530) -/

/-- Commands of the key store and the cipher (R525). -/
def usesKeys (op : Nat) : Bool := (0x0710 ≤ op && op ≤ 0x0713) || op == 0x0720 || op == 0x0721

/-- The suspended key store and cipher commands end with 0x32 when they go on (R525). -/
def stopKeys (x : Lane) : Lane :=
  { x with susp := x.susp.map fun e => if usesKeys e.pkt.opcode ∧ e.stop = none then { e with stop := some 0x32 } else e }

def charterBreak (_ : Exec) (s : State) : State :=
  if !(s.pins.testEn && s.pwr.testEn1) then finish .house 0x40 [] none s
  else
    let s1 := ((stopTransmission s).onHouseLane stopKeys).onChr fun k => { k with keysDead := true }
    match nvSubmit (nvJob .breakCharter (some .house) (pageOf .breakCharter) 17) s1 with
    | none => finish .house 0x60 [] none s
    | some s2 => setPhase .house (.breaking 17) s2

def execCharterBreak (s : State) : Host.Outcome State Fault Refusal :=
  .next (onFresh .house 0x0109 charterBreak s)

/-- A pool sector holds 16 pages; sector 6 is the first (R714). -/
def erasePoolSector (k : Nat) (s : State) : State :=
  s.onNv fun n =>
    { n with
      pool := n.pool.mapIdx fun i p => if i / 16 = k then .erased else p
      poolBytes := n.poolBytes.mapIdx fun i b => if i / 16 = k then [] else b }

/-- A sector of the key log reads erased. -/
def eraseLogSector (k : Nat) (n : Nv) : Nv :=
  { n with keyEntries := modAt n.keyEntries k fun _ => [], keyDirty := n.keyDirty.filter (· != k) }

/-- The key log sector that a break erases with `left` erases still to come, 7 to 2: from the oldest sector to the
newest (R530). -/
def breakTarget (n : Nv) (left : Nat) : Nat := (n.keySector + 8 - left) % 6

/-- What the sector erased when `left` erases were still to come held: pool sectors 6–15 first, then the log
from the oldest sector to the newest, the charter last. -/
def breakErased (left : Nat) (s : State) : State :=
  if 7 < left then erasePoolSector (17 - left) s
  else if left = 2 then
    s.onNv fun n =>
      { n with slots := List.replicate 64 KeySlot.empty, keyLog := .erased, keyLogFree := 0, keySector := 0, keyGen := 0
               keyRollAt := 0, keyDirty := [], keyEntries := List.replicate 6 [] }
  else if left = 1 then
    resumeTransmission (dropAllVerdicts (setCharter none false (charterErased s)))
  else s.onNv fun n => eraseLogSector (breakTarget n left) n

end Sys2Proof.Machine
end

