-- ==== Sys2Proof/Machine/CalStore.lean ====
section
/-! DEFINITION. Calibration banks: which is valid, which is older, CAL_STORE, CAL_LOAD, CAL_STATUS and
TOWPATH_CONFIG (R535–R543, R567–R571, R578–R582). -/

namespace Sys2Proof.Machine

open Sys2Proof

/-! ## Banks -/

def calRec (s : State) (b : Bool) : NvRec CalData := if b then s.nv.calB else s.nv.calA

/-- A valid user bank (R83, R540). -/
def calValid (s : State) (b : Bool) : Option CalData :=
  match calRec s b with
  | .valid d => if d.kind = 1 ∧ d.serial = s.nv.serial then some d else none
  | _ => none

/-- CAL-F where it is valid (R83). -/
def calFactory (s : State) : Option CalData := calF s

/-- Sequence `a` is earlier than `b` by serial-number arithmetic (R543, R774). -/
def seqEarlier (a b : Nat) : Bool := a != b && decide ((b + 2 ^ 32 - a % 2 ^ 32) % 2 ^ 32 < 2 ^ 31)

/-- The older user bank (R543): true for CAL-B. -/
def olderBank (s : State) : Bool :=
  match calValid s false, calValid s true with
  | some a, some b => !seqEarlier a.seq b.seq
  | some _, none => true
  | none, _ => false

/-- The newer valid user bank. -/
def newerData (s : State) : Option CalData :=
  match calValid s (!olderBank s) with
  | some d => some d
  | none => calValid s (olderBank s)

/-- Sectors of a bank's pre-erase still to erase, if one runs (R133). -/
def bankErase (s : State) (b : Bool) : Option Nat :=
  s.nv.bg.findSome? fun e => match e with
    | .calBank k left => if k = b then some left else none
    | _ => none

def bankErased (s : State) (b : Bool) : Bool :=
  match calRec s b with
  | .erased => (bankErase s b).isNone
  | _ => false

/-! ## CAL_STORE (R543, R567, R568, R578) -/

/-! ## A user bank as bytes (R535–R537) -/

def pairBytes (l : List (Int × Int)) : List Byte := (l.map fun p => leInt 2 p.1 ++ leInt 2 p.2).flatten

/-- The HF section (R536). -/
def hfCalBytes (h : HfCal) : List Byte :=
  le 1 h.series ++ le 1 h.parallel ++ le 1 h.phase ++ le 1 0 ++ le 2 h.rAnt ++ le 2 h.null ++ le 1 h.aBase
    ++ le 1 h.nBase ++ le 6 0 ++ padTo 32 (h.offsets.map (leInt 2)).flatten ++ padTo 128 (h.eff.map (le 2)).flatten
    ++ List.replicate 336 0

/-- The UHF section (R537). -/
def uhfCalBytes (u : UhfCal) : List Byte :=
  padTo 8 (u.law.map (leInt 2)).flatten ++ padTo 5 (u.trims.map (le 1)).flatten ++ le 3 0
    ++ padTo 20 (pairBytes u.irr) ++ List.replicate 28 0 ++ padTo 124 (pairBytes u.offsets) ++ le 4 0
    ++ padTo 101 (u.vco.map (le 1)).flatten ++ List.replicate 11 0 ++ padTo 404 (pairBytes u.leak) ++ List.replicate 12 0
    ++ padTo 202 (u.eff.map (le 2)).flatten ++ le 1 u.refTemp ++ List.replicate 101 0

/-- Bytes 0x0000–0x3FF7 of a user bank (R535). -/
def calImage (d : CalData) : List Byte :=
  le 4 0x7214CA1B ++ le 2 1 ++ le 1 d.kind ++ le 1 0 ++ le 4 d.seq ++ le 4 0 ++ le 8 d.serial ++ le 1 d.temp
    ++ List.replicate 231 0 ++ le 1 d.xoTrim ++ List.replicate 255 0 ++ hfCalBytes d.hf ++ uhfCalBytes d.uhf
    ++ List.replicate 14328 0

/-- A user bank's 16 KiB: the image, its CRC and the commit word. -/
def calBytes (d : CalData) : List Byte := calImage d ++ le 4 (crc32 (calImage d)).toNat ++ le 2 0x5AC3 ++ le 2 0

/-- The values in force as a user bank (R535); the efficiency tables are copied from CAL-F, the trims are not (R539). -/
def calSnapshot (s : State) : CalData :=
  let f := calF s
  { kind := 1, seq := ((newerData s).map (·.seq + 1)).getD 1 % 2 ^ 32, serial := s.nv.serial
    temp := tempByte s.therm.temp, xoTrim := s.cal.xoTrim, uvlof := 0, ckPwr := 0
    hf := { s.cal.hf with eff := (f.map (·.hf.eff)).getD s.cal.hf.eff }
    uhf := { s.cal.uhf with eff := (f.map (·.uhf.eff)).getD s.cal.uhf.eff } }

/-- Sectors to erase before the store (R135, R864). -/
def storeErases (s : State) (b : Bool) : Nat := if bankErased s b then 0 else (bankErase s b).getD 4

def calStoreBody (b : Bool) (seq : Nat) : List Byte := le 1 (1 + b2n b) ++ le 3 0 ++ le 4 seq

/-- A towpath step runs on a chain (R560). -/
def stepRuns (s : State) : Bool := s.tow.hf.step.isSome || s.tow.uhf.step.isSome

/-- The snapshot, and its commit to the older user bank. -/
def calStoreGo (s : State) : State :=
  let b := olderBank s
  let d := calSnapshot s
  let k : JobKind := .calStore b d
  let s1 := s.onNv fun n => { n with bg := n.bg.filter fun e => match e with
    | .calBank x _ => x != b
    | _ => true }
  match nvSubmit (nvJob k (some .house) (pageOf k) (storeErases s b)) s1 with
  | none => finish .house 0x60 [] none s
  | some s2 => onExec .house (fun x => { x with phase := .nv 0, partialBody := calStoreBody b d.seq }) s2

def calStore (_ : Exec) (s : State) : State :=
  if stepRuns s then setPhase .house .towWait s else calStoreGo s

def execCalStore (s : State) : Host.Outcome State Fault Refusal :=
  .next (onFresh .house 0x0601 calStore s)

/-! ## CAL_LOAD (R569, R579) -/

/-- The bank that a load names. -/
def namedBank (s : State) (n : Nat) : Option CalData :=
  if n = 0 then calFactory s else calValid s (n == 2)

/-- Estimates of a chain that have not taken effect are discarded (R560, R569, R581). -/
def discardGather (c : Chain) (s : State) : State :=
  let k : StepKind := match c with
    | .hf => .offset
    | .uhf => .irr
  onTowLane c (fun t => { t with gather := 0, sum := 0, gatherI := 0, due := t.due.filter (· != k) }) s

/-- HF values take effect at the next frame boundary. -/
def loadHf (d : CalData) (bank : Nat) (s : State) : State :=
  let s1 := discardGather .hf (s.onCal fun c => { c with nextHf := some (d.hf, bank) })
  if hfFrameRuns s1 then s1 else hfBoundary s1

def loadUhf (d : CalData) (bank : Nat) (s : State) : State :=
  let s1 := discardGather .uhf (s.onCal fun c => { c with nextUhf := some (d.uhf, bank) })
  if uhfInFrame s1 then s1 else uhfBoundary s1

def loadCommon (d : CalData) (bank : Nat) (s : State) : State :=
  s.onCal fun c =>
    { c with
      xoTrim := d.xoTrim, bankCommon := bank
      osc := c.osc.map fun o => { o with target := d.xoTrim, trim0 := d.xoTrim, gateFrom := s.time } }

def calLoadGo (e : Exec) (s : State) : State :=
  let parts := Packet8 e.pkt 0
  let bank := Packet8 e.pkt 1
  match namedBank s bank with
  | none => finish .house 0x23 [] none s
  | some d =>
    let s1 := if bit parts 0 then loadHf d bank s else s
    let s2 := if bit parts 1 then loadUhf d bank s1 else s1
    let s3 := if bit parts 2 then loadCommon d bank s2 else s2
    finish .house 0 [] none (dropAllVerdicts s3)

/-- CAL_LOAD reads the bank that it names; its values take effect after a step that runs (R560, R579). -/
def calLoad (ecc : EccRead) (e : Exec) (s0 : State) : State :=
  let lo := 0xC1000 + 0x4000 * Packet8 e.pkt 1
  if Packet8 e.pkt 0 = 0 ∨ 2 < Packet8 e.pkt 1 then finish .house 0x11 [] none s0
  else
    let s := eccRead lo (lo + 0x4000) ecc s0
    if stepRuns s then setPhase .house .towWait s else calLoadGo e s

def execCalLoad (s : State) (ecc : EccRead := {}) : Host.Outcome State Fault Refusal :=
  .next (onFresh .house 0x0602 (calLoad ecc) s)

/-- A CAL_STORE or CAL_LOAD that waited for the towpath's steps goes on, or ends where it is to stop or a chain that it
loads is fenced by now (R560, R579). -/
def towWaiter (s : State) : State :=
  match s.houseLane.exec with
  | none => s
  | some e =>
    if e.phase = .towWait ∧ stepRuns s = false then
      match stopDue s e with
      | some st => finish .house st [] none s
      | none =>
        if needsFenced s e.pkt then finish .house 0x13 [] none s
        else if e.pkt.opcode = 0x0601 then calStoreGo s
        else calLoadGo e s
    else s

/-! ## CAL_STATUS (R580) -/

/-- A CAL_STORE erases the bank (R135). -/
def storeErasing (s : State) (b : Bool) : Bool :=
  (s.nv.job.toList ++ s.nv.held.map (·.2)).any fun j => match j.kind, j.stage with
    | .calStore k _, .erase _ => k == b
    | _, _ => false

def bankState (s : State) (b : Bool) : Nat :=
  if (bankErase s b).isSome || storeErasing s b then 3
  else if (calValid s b).isSome then 1
  else match calRec s b with
    | .erased => 2
    | _ => 0

def calStatusBody (s : State) : List Byte :=
  let seq := fun b => ((calValid s b).map (·.seq)).getD 0
  le 1 s.cal.bankHf ++ le 1 s.cal.bankUhf ++ le 1 s.cal.bankCommon
    ++ le 1 (b2n (calFactory s).isSome + 2 * bankState s false + 8 * bankState s true)
    ++ le 1 (1 + b2n (olderBank s)) ++ le 1 s.cal.xoTrim ++ le 1 s.cal.uhf.refTemp
    ++ le 1 (tempByte s.therm.temp) ++ le 4 (seq false) ++ le 4 (seq true) ++ le 4 (ctrGet s 0x2C)
    ++ le 1 (b2n (fenced s 2) + 2 * b2n (towSpent s .hf) + 4 * b2n (towSpent s .uhf) + 8 * b2n s.tow.recalDue)
    ++ le 3 0

def execCalStatus (s : State) : Host.Outcome State Fault Refusal :=
  .next (onFresh .house 0x0603 (fun _ s => finish .house 0 (calStatusBody s) none s) s)

/-! ## TOWPATH_CONFIG (R581, R582) -/

/-- The ten counters of R581, HF first. -/
def towCounters : List Nat := (List.range 10).map (0x30 + ·)

def towConfig (e : Exec) (s : State) : State :=
  let body := (towCounters.map fun i => le 4 (ctrGet s i)).flatten
  match Packet8 e.pkt 0 with
  | 0 => finish .house 0 body none s
  | 1 => finish .house 0 body none (towCounters.foldl (fun s i => ctrClear i s) s)
  | 2 => finish .house 0 body none (discardGather .uhf (discardGather .hf s))
  | _ => finish .house 0x11 [] none s

def execTowpathConfig (s : State) : Host.Outcome State Fault Refusal :=
  .next (onFresh .house 0x0604 towConfig s)

end Sys2Proof.Machine
end

