-- ==== Sys2Proof/Machine/Towpath.lean ====
section
/-! DEFINITION. The towpath's steps: start, end and overrun (R545–R547, R551–R565). -/

namespace Sys2Proof.Machine

open Sys2Proof

/-! ## Values -/

def clamp16 (x : Int) : Int := clampInt (-32768) 32767 x

/-- A code of the leakage canceller: 10 bits, whose sign the leakage table keeps (R445, R538). -/
def clampCode (x : Int) : Int := clampInt (-512) 511 x

/-- A list entry set. -/
def setAt {α : Type} (l : List α) (i : Nat) (v : α) : List α := modAt l i fun _ => v

/-- The leakage entry of the channel in force. -/
def leakIndex (s : State) : Nat := mhzIndex (freqOf s s.uhf.index)

/-- An estimate that would move a value half way by more than `lim` is discarded (R546, R547). -/
def halfTooFar (v est : Int) (lim : Nat) : Bool := decide (2 * lim < (est - v).natAbs)

def tooFar (v meas : Int) (lim : Nat) : Bool := decide (lim < (meas - v).natAbs)

/-- Half of the difference, whose odd half is rounded either way. -/
def halfStep (v est : Int) (up : Nat) : Int := clamp16 (v + (est - v + up) / 2)

/-- A pair moves half way to its estimate, or not at all where either part would move too far (R546, R547; log 192). -/
def movePair (s : State) (lim : Nat) (v est : Int × Int) : Int × Int :=
  if halfTooFar v.1 est.1 lim || halfTooFar v.2 est.2 lim then v
  else (halfStep v.1 est.1 (freeBelow s 2), halfStep v.2 est.2 (freeNth s 1 2))

/-- Moves a table entry half way to the mean of the 4 levels whose sum is `sum`, in one rounding (R546, R547). -/
def moveMean (s : State) (lim : Nat) (v sum : Int) : Int :=
  let d := sum - 4 * v
  if 8 * lim < d.natAbs then v else clamp16 (v + (d + (freeBelow s 8 : Nat)) / 8)

/-- A carrier-only measurement of a pair is taken as it is, within the same limit (R547). -/
def takePair (lim : Nat) (v m : Int × Int) : Int × Int :=
  if tooFar v.1 m.1 lim || tooFar v.2 m.2 lim then v else (clamp16 m.1, clamp16 m.2)

/-! ## Effects -/

/-- The start of a tuner step: one bank changes by what the last measurement asks for (R380, R381). -/
def tunerMove (s : State) : State :=
  match s.hf.retune with
  | none => s
  | some r =>
    let t := tuneTurn s r s.cal.hf.series s.cal.hf.parallel s.hf.phi s.hf.mag
    setCodes t.2.2.1 t.2.2.2
      (s.onHf fun h => { h with retune := some t.2.1, stepFrom := some (s.cal.hf.series, s.cal.hf.parallel, r) })

/-- The end of a tuner step, with its measurement and the antenna current to which the loop has settled: the search has
converged, has used its 24 measurements with the one that alarmed, or goes on (R379–R382). -/
def tunerStep (phi : Int) (m iAnt : Nat) (s : State) : State :=
  match s.hf.retune with
  | none => s
  | some r =>
    let cs := s.cal.hf.series
    let cp := s.cal.hf.parallel
    let s1 := s.onHf fun h => { h with phi := phi, mag := m, iAnt := if hfLit s then iAnt else h.iAnt }
    if converged s phi m then
      raise 20 (retunedPayload cs cp true r.n) (s1.onHf fun h => { h with retune := none })
    else
      let b := keepBest s r cs cp phi m
      if 24 ≤ r.n + 1 then
        raise 20 (retunedPayload b.bestS b.bestP false 24) (setCodes b.bestS b.bestP (s1.onHf fun h => { h with retune := none }))
      else addDue .hf [.tuner] (s1.onHf fun h => { h with retune := some b })

/-- What an HF step writes. -/
def hfStepEffect (k : StepKind) (x y : Int) (iAnt : Nat) (s : State) : State :=
  match k with
  | .tuner => tunerStep x y.toNat iAnt s
  | .null => s.onCal fun c => { c with hf := { c.hf with null := (clampInt 0 1023 x).toNat } }
  | .offset =>
    let g := s.hf.gain
    State.useFree (s.onCal fun c =>
      { c with hf := { c.hf with offsets := modAt c.hf.offsets g fun v => moveMean s 64 v s.tow.hf.est } })
  | .noise => onTowLane .hf (fun t => { t with noise := assocSet t.noise s.hf.gain x.toNat }) s
  | .irr => s

/-- What a UHF step writes. -/
def uhfStepEffect (k : StepKind) (x y : Int) (s : State) : State :=
  match k with
  | .null =>
    s.onCal fun c => { c with uhf := { c.uhf with leak := setAt c.uhf.leak (leakIndex s) (clampCode x, clampCode y) } }
  | .offset =>
    let g := s.uhf.gain
    s.onCal fun c =>
      { c with uhf := { c.uhf with offsets := modAt c.uhf.offsets g fun v => takePair 64 v (x, y) } }
  | .irr =>
    let b := s.uhf.bw
    State.useFree (s.onCal fun c =>
      { c with uhf := { c.uhf with irr := modAt c.uhf.irr b fun v => movePair s 128 v (x, y) } })
  | .noise => onTowLane .uhf (fun t => { t with noise := assocSet t.noise s.uhf.gain x.toNat }) s
  | .tuner => s

def stepEffect (c : Chain) (k : StepKind) (x y : Int) (iAnt : Nat) (s : State) : State :=
  match c with
  | .hf => hfStepEffect k x y iAnt s
  | .uhf => uhfStepEffect k x y s

/-! ## Start -/

/-- A step starts; a tuner step takes the slot it starts in. -/
def startStep (c : Chain) (k : StepKind) (s : State) : State :=
  let s1 := onTowLane c (fun t =>
    { t with
      step := some k, void := false, stepAt := s.time, due := t.due.filter (· != k)
      tunerAt := if k = .tuner then s.time + cfg s 0x400 else t.tunerAt }) s
  if k = .tuner then tunerMove s1 else s1

def execTowpathStepStart (c : Chain) (s : State) : Host.Outcome State Fault Refusal :=
  .next <|
    match towNext s c with
    | none => s
    | some k => startStep c k s

/-! ## End -/

/-- The counters of R581 for a chain: delay charged, steps run, delaying frames. -/
def towCtr (c : Chain) (k : Nat) : Nat := (match c with | .hf => 0x30 | .uhf => 0x35) + k

/-- The delay that a step imposed on the packet's frame (R553–R556). -/
def chargeDelay (c : Chain) (l : LaneId) (id ns : Nat) (s : State) : State :=
  let t := towLane s c
  let fresh := t.pkt ≠ some id ∨ t.pktDelay = 0
  let us := (t.frac + ns) / 1000
  let s1 := onTowLane c (fun t =>
    { t with
      credit := t.credit - ns, frac := (t.frac + ns) % 1000, pkt := some id
      pktDelay := (if t.pkt = some id then t.pktDelay else 0) + ns, pktDone := t.pkt == some id && t.pktDone }) s
  let s2 := onExec l (fun e => { e with towpath := true }) (ctrAdd (towCtr c 1) us s1)
  if fresh then ctrAdd (towCtr c 3) 1 s2 else s2

/-- A step that ends after the moment at which the waiting frame would have started is delaying. -/
def imposeDelay (c : Chain) (s : State) : State :=
  let ns := delayOf s c (towLane s c).stepAt s.time
  if ns = 0 then s
  else
    match frameOwner s c with
    | none => s
    | some l =>
      match execOf s l with
      | none => s
      | some e => chargeDelay c l e.pkt.id ns s

/-- The frame that waited starts. -/
def startHeld (c : Chain) (s : State) : State :=
  match c with
  | .hf => hfStart s
  | .uhf => uhfStart s

def stepEnd (c : Chain) (k : StepKind) (x y : Int) (iAnt : Nat) (s : State) : State :=
  let s0 := (onTowLane c (fun t => { t with step := none, void := false }) s).onHf fun h =>
    { h with stepFrom := if c = .hf then none else h.stepFrom }
  let s1 := if (towLane s c).void then s0 else stepEffect c k x y iAnt s0
  let s2 := towWaiter (ctrAdd (towCtr c 2) 1 (imposeDelay c s1))
  match towNext s2 c with
  | some k' => startStep c k' s2
  | none => startHeld c s2

/-- The step has overrun its duration by 2 µs (R564). -/
def overran (s : State) (c : Chain) (k : StepKind) : Bool :=
  decide ((towLane s c).stepAt + stepLen c k + 2 ≤ s.time)

/-- The measurement of a step that ends in time. -/
def execTowpathStepEnd (c : Chain) (x y : Int) (iAnt : Nat) (s : State) : Host.Outcome State Fault Refusal :=
  .next <|
    match (towLane s c).step with
    | none => s
    | some k => if overran s c k then s else stepEnd c k x y iAnt s

/-- R564: a step 2 µs over its duration is abandoned, and the calibrator is fenced; the delay it has imposed counts
(R555, R556). -/
def execTowpathStepOverrun (c : Chain) (s : State) : Host.Outcome State Fault Refusal :=
  .next <|
    match (towLane s c).step with
    | none => s
    | some k =>
      if overran s c k then
        startHeld .uhf (startHeld .hf (towWaiter (fenceUnit 2 11 0 (imposeDelay c s))))
      else s

end Sys2Proof.Machine
end

