-- ==== Sys2Proof/Machine/CalRuns.lean ====
section
/-! DEFINITION. CAL_RUN and the moments of its runs: receivers, antenna resistance, LPCD baseline,
synthesiser table, leakage null, power detectors, oscillator (R544, R548–R550, R573–R577). -/

namespace Sys2Proof.Machine

open Sys2Proof

/-! ## Results -/

/-- The k-th result of a run; a value that is not there leaves the one in force. -/
def resultOr (rs : List Int) (k : Nat) (old : Int) : Int := (rs[k]?).getD old

/-- A value held at the end of its range, and whether it had to be. -/
def held (lo hi v : Int) : Int × Bool := (clampInt lo hi v, decide (clampInt lo hi v ≠ v))

/-- A 16-byte body (R576). -/
def calBody (result type_ : Nat) (values : List Byte) : List Byte :=
  le 1 result ++ le 1 type_ ++ le 2 0 ++ padTo 12 values

/-- HF receiver: sample phase, carrier null, then the 16 offsets. -/
def hfReceiver (rs : List Int) (s : State) : List Byte × State :=
  let h := s.cal.hf
  let ph := held 0 3 (resultOr rs 0 h.phase)
  let nl := held 0 1023 (resultOr rs 1 h.null)
  let offs := h.offsets.mapIdx fun i v => held (-32768) 32767 (resultOr rs (2 + i) v)
  let s1 := s.onCal fun c =>
    { c with hf := { c.hf with phase := ph.1.toNat, null := nl.1.toNat, offsets := offs.map (·.1) } }
  (calBody (b2n (ph.2 || nl.2 || offs.any (·.2))) 1
    (le 1 ph.1.toNat ++ le 2 nl.1.toNat ++ leInt 2 (nth s1.cal.hf.offsets s.hf.gain 0)), s1)

/-- Antenna resistance in mΩ. -/
def hfAntenna (rs : List Int) (s : State) : List Byte × State :=
  let r := held 0 65535 (resultOr rs 0 s.cal.hf.rAnt)
  (calBody (b2n r.2) 2 (le 2 r.1.toNat), s.onCal fun c => { c with hf := { c.hf with rAnt := r.1.toNat } })

/-- UHF receiver: worst image rejection, 31 offset pairs, 5 trims, 5 pairs of corrector coefficients. -/
def uhfReceiver (rs : List Int) (s : State) : List Byte × State :=
  let u := s.cal.uhf
  let h16 := held (-32768) 32767
  let offs := u.offsets.mapIdx fun i v => (h16 (resultOr rs (1 + 2 * i) v.1), h16 (resultOr rs (2 + 2 * i) v.2))
  let trims := u.trims.mapIdx fun i v => held 0 255 (resultOr rs (63 + i) v)
  let irr := u.irr.mapIdx fun i v => (h16 (resultOr rs (68 + 2 * i) v.1), h16 (resultOr rs (69 + 2 * i) v.2))
  let pin : Bool := offs.any (fun p => p.1.2 || p.2.2) || trims.any (·.2) || irr.any (fun p => p.1.2 || p.2.2)
  (calBody (b2n pin) 1 (le 2 (clampInt 0 65535 (resultOr rs 0 0)).toNat),
    s.onCal fun c =>
      { c with uhf :=
        { c.uhf with
          offsets := offs.map fun p => (p.1.1, p.2.1)
          trims := trims.map (·.1.toNat)
          irr := irr.map fun p => (p.1.1, p.2.1) } })

/-- Synthesiser table: 101 band entries, and the reference temperature. -/
def uhfTable (rs : List Int) (s : State) : List Byte × State :=
  let vco := s.cal.uhf.vco.mapIdx fun i v => held 0 255 (resultOr rs i v)
  (calBody (b2n (vco.any (·.2))) 2 (le 1 vco.length),
    (s.onCal fun c =>
      { c with uhf := { c.uhf with vco := vco.map (·.1.toNat), refTemp := tempByte s.therm.temp } }).onTow
      fun t => { t with recalDue := false })

/-- A code of the leakage canceller (R445) held at the end of its range. -/
def heldCode (v : Int) : Int × Bool := (clampCode v, decide (clampCode v ≠ v))

/-- Leakage null of the channel in force. -/
def uhfLeak (rs : List Int) (s : State) : List Byte × State :=
  let old := nth s.cal.uhf.leak (leakIndex s) (0, 0)
  let i := heldCode (resultOr rs 0 old.1)
  let q := heldCode (resultOr rs 1 old.2)
  (calBody (b2n (i.2 || q.2)) 3 (leInt 2 i.1 ++ leInt 2 q.1),
    s.onCal fun c => { c with uhf := { c.uhf with leak := setAt c.uhf.leak (leakIndex s) (i.1, q.1) } })

/-- The run that a packet's chain and type name. -/
def runOf (p : Packet) (rs : List Int) (s : State) : List Byte × State :=
  if Packet8 p 0 = 0 then (if Packet8 p 1 = 1 then hfReceiver rs s else hfAntenna rs s)
  else if Packet8 p 1 = 1 then uhfReceiver rs s
  else if Packet8 p 1 = 2 then uhfTable rs s
  else uhfLeak rs s

/-- A run ends with its reply. -/
def runNow (l : LaneId) (e : Exec) (rs : List Int) (s : State) : State :=
  let r := runOf e.pkt rs s
  finish l 0 r.1 none r.2

/-! ## HF runs (R573, R574) -/

/-- Lights the field at the power in force for a run. -/
def hfRunLight (e : Exec) (rs : List Int) (s : State) : State :=
  if (charter s).isNone || !hfAllowed s then finish .hf 0x40 [] none s
  else
    let c := powerCheck s e.pkt.tenant true 0x200 0
    let s1 := powerApply .hf 0x200 0 c s
    if c.noRoom then finish .hf 0x42 [] none s1
    else setPhase .hf (.runRise rs []) (hfRise (cfg s1 0x200 / 31250) 60 s1)

def calHf (rs : List Int) (e : Exec) (s : State) : State :=
  let ty := Packet8 e.pkt 1
  if ty = 0 ∨ 3 < ty ∨ Packet32 e.pkt 4 ≠ 0 ∨ Packet32 e.pkt 8 ≠ 0 then finish .hf 0x11 [] none s
  else if hfBusy s then finish .hf 0x23 [] none s
  else if ty = 3 then
    if hfEmits s then finish .hf 0x23 [] none s
    else setPhase .hf (.lpcdBase 8 0 0) (discardGather .hf s)
  else
    let s1 := discardGather .hf s
    if s1.hf.rising || (hfLit s1 && hfFrameRuns s1) then setPhase .hf (.runOn rs []) s1
    else if hfLit s1 then runNow .hf e rs s1
    else if s1.hf.falling.isSome then setPhase .hf (.runWait rs []) s1
    else hfRunLight e rs s1

/-- A run that waits for the end of a frame begins (R393). -/
def calTick (s : State) : State :=
  match s.hfLane.exec with
  | none => s
  | some e =>
    match e.phase with
    | .runOn vals _ =>
      if e.pkt.opcode != 0x0600 || !hfLit s || s.hf.rising || hfFrameRuns s || (stopDue s e).isSome then s else runNow .hf e vals s
    | _ => s

/-! ## UHF runs (R574, R575) -/

/-- The carrier may be lit for a run. -/
def uhfRunBar (s : State) : Option Nat :=
  if (charter s).isNone then some 0x40
  else if s.uhf.blocked then some 0x23
  else if !channelOk s s.uhf.mode s.uhf.index || !uhfAllowed s then some 0x40
  else none

/-- Lights the carrier at the power in force for a leakage null. -/
def uhfRunLight (e : Exec) (rs : List Int) (s : State) : State :=
  match uhfRunBar s with
  | some st => finish .uhf st [] none s
  | none =>
    let c := powerCheck s e.pkt.tenant true 0x300 0
    let s1 := powerApply .uhf 0x300 0 c s
    if c.noRoom then finish .uhf 0x42 [] none s1
    else
      uhfTryRise (setPhase .uhf (.runRise rs [])
        (setUhfGrant (uhfDraw s1 (cfg s1 0x300)) (s1.onUhf fun u => { u with wantOn := true })))

/-- A leakage null needs the carrier. -/
def calLeak (e : Exec) (rs : List Int) (s : State) : State :=
  if s.uhf.rising then setPhase .uhf (.runOn rs []) s
  else if uhfLit s then runNow .uhf e rs s
  else if s.uhf.falling.isSome then setPhase .uhf (.runWait rs []) s
  else uhfRunLight e rs s

/-- Holding a detector point drives the PA at the point's output for the hold time, or at the highest output that fits
the budget (R56, R57, R574, R575). The hold time runs with the carrier on. -/
def startHold (e : Exec) (point : Nat) (s : State) : State :=
  let ms := Packet32 e.pkt 4 / 2 ^ 16
  match uhfRunBar s with
  | some st => finish .uhf st [] none s
  | none =>
    let want := holdPower s point
    let p := if s.pwr.warn then 0 else uhfFit s (uhfRoom s) want
    let s0 := setPhase .uhf (.calHold (!carrierOn s)) s
    if p = 0 then finish .uhf 0x42 [] none (riseClamp want (cfg s 0x300) s0)
    else
      let s1 := s0.onCal fun c =>
        { c with holding := some point, holdOut := p, holdUntil := if uhfLit s then s.time + 1000 * ms else 0 }
      let s2 := if p = want then s1 else riseClamp want p s1
      if carrierOn s then (if uhfUp s2 then uhfNewPower p s2 else s2)
      else uhfTryRise (setUhfGrant (uhfDraw s2 p) (s2.onUhf fun u => { u with wantOn := true }))

/-- Rounded quotient; the manual does not say how. -/
def freeDiv (s : State) (a b : Int) : Int :=
  let n := if b < 0 then -a else a
  n / b.natAbs + (if n % b.natAbs = 0 then 0 else (freeBelow s 2 : Nat))

/-- The laws that two points give: forward slope and intercept (R575). Two points with one code give none
that the manual states. -/
def detectorLaw (s : State) (f0 f1 m0 m1 : Int) : Int × Int :=
  if f1 = f0 then ((freeNth s 0 65536 : Nat) - 32768, (freeNth s 1 65536 : Nat) - 32768)
  else
    let slope := freeDiv s (10 * (m1 - m0)) (f1 - f0)
    (slope, m0 - freeDiv s (slope * f0) 10)

/-- Factory offset of the reverse from the forward intercept. -/
def factoryOffset (s : State) : Int :=
  match calF s with
  | some c => nth c.uhf.law 3 0 - nth c.uhf.law 1 0
  | none => (freeNth s 2 65536 : Nat) - 32768

def solve (e : Exec) (s : State) : State :=
  let b := Packet32 e.pkt 8
  let m0 := signed 16 (b % 2 ^ 16)
  let m1 := signed 16 (b / 2 ^ 16)
  match s.cal.point0, s.cal.point1 with
  | some p0, some p1 =>
    if (m1 - m0).natAbs < 1000 then finish .uhf 0x23 [] none s
    else
      let w := detectorLaw s p0.1 p1.1 m0 m1
      let sl := held (-32768) 32767 w.1
      let ic := held (-32768) 32767 w.2
      let rv := held (-32768) 32767 (ic.1 + factoryOffset s)
      finish .uhf 0 (calBody (b2n (sl.2 || ic.2 || rv.2)) 4 (leInt 2 sl.1 ++ leInt 2 ic.1)) none
        (State.useFree (s.onCal fun c => { c with uhf := { c.uhf with law := [sl.1, ic.1, sl.1, rv.1] } }))
  | _, _ => finish .uhf 0x23 [] none s

/-- Rules of argument A and B for the detectors (R573; log 209). -/
def detectorOk (p : Packet) : Bool :=
  let a := Packet32 p 4
  let ms := a / 2 ^ 16
  let act := a % 2 ^ 8
  bits a 15 8 == 0 && decide (act ≤ 2)
    && (act == 2 || (decide (1 ≤ ms) && decide (ms ≤ 10000) && Packet32 p 8 == 0))

def calUhf (rs : List Int) (e : Exec) (s : State) : State :=
  let p := e.pkt
  let ty := Packet8 p 1
  if ty = 0 ∨ 4 < ty ∨ (ty ≠ 4 ∧ (Packet32 p 4 ≠ 0 ∨ Packet32 p 8 ≠ 0)) ∨ (ty = 4 ∧ detectorOk p = false) then
    finish .uhf 0x11 [] none s
  else
    let s1 := discardGather .uhf s
    if ty = 4 then (if Packet8 p 4 = 2 then solve e s1 else startHold e (Packet8 p 4) s1)
    else if ty = 3 then calLeak e rs s1
    else if uhfEmits s1 || s1.uhf.wantOn then finish .uhf 0x23 [] none s1
    else runNow .uhf e rs s1

/-- The raw codes of a point are kept, and the carrier falls if the run had lit it. -/
def holdDone (point : Nat) (own : Bool) (fwd rev : Int) (s : State) : State :=
  let s1 := s.onCal fun c =>
    { c with
      holding := none
      point0 := if point = 0 then some (fwd, rev) else c.point0
      point1 := if point = 0 then c.point1 else some (fwd, rev) }
  let body := calBody 0 4 (leInt 2 fwd ++ leInt 2 rev)
  if own then setPhase .uhf (.runFall body) (uhfFall .off s1)
  else
    let s2 := uhfReturn s1
    finish .uhf 0 body none s2

/-- The hold time has passed, or the visit has reached its hard limit. -/
def holdOverAt (s : State) : Bool :=
  uhfLit s && !s.uhf.rising && (decide (s.cal.holdUntil ≤ s.time) || decide (hardLimit s ≤ visitTime s))

def execCalHoldEnd (fwd rev : Int) (s : State) : Host.Outcome State Fault Refusal :=
  .next <| s |> withWaiting .uhf uhfWaiter fun s =>
    match s.cal.holding, (s.uhfLane.exec.map (·.phase) : Option Phase) with
    | some k, some (.calHold own) => if holdOverAt s then holdDone k own fwd rev s else s
    | _, _ => s

/-! ## Oscillator (R548, R549, R577) -/

def oscBody (result : Nat) (first last : Int) (trim : Nat) : List Byte :=
  calBody result 0 (leInt 4 first ++ leInt 4 last ++ le 1 trim)

def calOsc (e : Exec) (s : State) : State :=
  let p := e.pkt
  let f := Packet32 p 4
  if 2 < Packet8 p 0 ∨ Packet8 p 1 ≠ 0 ∨ f = 0 ∨ 20000000 < f ∨ Packet32 p 8 ≠ 0 then finish .house 0x11 [] none s
  else if s.cal.osc.isSome then finish .house 0x23 [] none s
  else
    setPhase .house .calOsc (s.onCal fun c =>
      { c with osc := some ⟨f, 0, 0, 0, c.xoTrim, 0, s.time, false, c.xoTrim⟩ })

/-- The run on the house lane, while its packet executes. -/
def oscRun (s : State) : Option OscRun :=
  match s.houseLane.exec with
  | none => none
  | some e => if e.phase = .calOsc then s.cal.osc else none

def oscEnd (status result : Nat) (o : OscRun) (s : State) : State :=
  finish .house status (oscBody result o.first o.last s.cal.xoTrim) none (s.onCal fun c => { c with osc := none })

/-- Nearest whole number of codes of 0.25 ppm; an error in 0.01 ppm has no ties. -/
def oscCodes (error : Int) : Int := (2 * error + 25) / 50

/-- A gate: within ±0.5 ppm, or the fourth, ends the run; else XO_TRIM moves to the code that cancels the
error. -/
def gateEnd (error : Int) (o : OscRun) (s : State) : State :=
  let o1 := { o with gates := o.gates + 1, first := if o.gates = 0 then error else o.first, last := error }
  if error.natAbs ≤ 50 ∨ 4 ≤ o1.gates then oscEnd 0 (b2n o1.atEnd) o1 s
  else
    let t := held 0 255 ((s.cal.xoTrim : Int) + oscCodes error)
    s.onCal fun c => { c with osc := some { o1 with target := t.1.toNat, atEnd := t.2, gateFrom := s.time } }

/-- A gate begins once XO_TRIM has reached its code, and lasts the 1.0 s of whole REFIN periods (R548). -/
def execCalGateEnd (error : Int) (s : State) : Host.Outcome State Fault Refusal :=
  .next <| s |> withWaiting .house houseWaiter fun s =>
    match oscRun s with
    | some o => if o.target = s.cal.xoTrim ∧ o.gateFrom + 1000000 ≤ s.time then gateEnd error o s else s
    | none => s

/-- One step of at most 4 codes towards the target. -/
def trimToward (cur target : Nat) : Nat := if cur ≤ target then min target (cur + 4) else max target (cur - 4)

def execXoTrimStep (s : State) : Host.Outcome State Fault Refusal :=
  .next <| s |> withWaiting .house houseWaiter fun s =>
    match oscRun s with
    | some o =>
      if o.target ≠ s.cal.xoTrim ∧ o.stepAt ≤ s.time ∧ hfFrameRuns s = false ∧ uhfInFrame s = false then
        s.onCal fun c =>
          { c with
            xoTrim := trimToward c.xoTrim o.target
            osc := some { o with stepAt := s.time + 1000, gateFrom := s.time } }
      else s
    | none => s

/-- No REFIN edge within 2 s of the start of a gate: XO_TRIM is back at the code that the run found (R577; log 193). -/
def execCalRefinTimeout (s : State) : Host.Outcome State Fault Refusal :=
  .next <| s |> withWaiting .house houseWaiter fun s =>
    match oscRun s with
    | some o =>
      if o.target = s.cal.xoTrim ∧ o.gateFrom + 2000000 ≤ s.time then
        oscEnd 0x20 2 o (s.onCal fun c => { c with xoTrim := o.trim0 })
      else s
    | none => s

/-! ## CAL_RUN -/

def execCalRun (results : List Int) (s : State) : Host.Outcome State Fault Refusal :=
  .next <|
    match laneOfFresh s 0x0600 with
    | .hf => onLeased .hf 0x0600 (calHf results) s
    | .uhf => onLeased .uhf 0x0600 (calUhf results) s
    | .house => onFresh .house 0x0600 calOsc s

end Sys2Proof.Machine
end

