-- ==== Sys2Proof/Machine/KeyStore.lean ====
section
/-! DEFINITION. The key store and the cipher unit: slots and usage counters, KEY_STAGE, KEY_COMMIT,
KEY_QUERY, KEY_DESTROY, the log's roll-over, CIPHER_AES and CIPHER_CMAC (R707–R731, R737–R742). -/

namespace Sys2Proof.Machine

open Sys2Proof

/-! ## Blocks (FIPS 197, SP 800-38A, SP 800-38B) -/

/-- A list of bytes in pieces of 16. -/
def blocksOf : Nat → List Byte → List (List Byte)
  | 0, _ => []
  | n + 1, bs => if bs = [] then [] else bs.take 16 :: blocksOf n (bs.drop 16)

def ecb (key : List Byte) (decrypt : Bool) (b : List Byte) : List Byte :=
  if decrypt then aesDecrypt key b else aesEncrypt key b

def cbcEncrypt (key : List Byte) : List Byte → List (List Byte) → List Byte
  | _, [] => []
  | iv, b :: bs =>
    let c := aesEncrypt key (xorBytes b iv)
    c ++ cbcEncrypt key c bs

def cbcDecrypt (key : List Byte) : List Byte → List (List Byte) → List Byte
  | _, [] => []
  | iv, c :: cs => xorBytes (aesDecrypt key c) iv ++ cbcDecrypt key c cs

/-- The last 4 bytes count big-endian, modulo 2^32 (R741). -/
def ctrBlock (iv : List Byte) (i : Nat) : List Byte :=
  iv.take 12 ++ (le 4 (leNat (iv.drop 12).reverse + i)).reverse

def ctrCrypt (key iv : List Byte) : Nat → List (List Byte) → List Byte
  | _, [] => []
  | i, b :: bs => xorBytes b (aesEncrypt key (ctrBlock iv i)) ++ ctrCrypt key iv (i + 1) bs

/-- Doubling in the field of SP 800-38B. -/
def cmacDouble (b : List Byte) : List Byte :=
  let v := leNat b.reverse
  let w := 2 * v % 2 ^ 128
  (le 16 (if v / 2 ^ 127 = 1 then w ^^^ 0x87 else w)).reverse

/-- CMAC over its blocks, the last of them masked with a subkey. -/
def cmacChain (key k1 k2 : List Byte) : List Byte → List (List Byte) → List Byte
  | x, [] => aesEncrypt key (xorBytes x (xorBytes (padTo 16 [0x80]) k2))
  | x, [b] =>
    let m := if b.length = 16 then xorBytes b k1 else xorBytes (padTo 16 (b ++ [0x80])) k2
    aesEncrypt key (xorBytes x m)
  | x, b :: bs => cmacChain key k1 k2 (aesEncrypt key (xorBytes x b)) bs

def cmac (key msg : List Byte) : List Byte :=
  let k1 := cmacDouble (aesEncrypt key (List.replicate 16 0))
  cmacChain key k1 (cmacDouble k1) (List.replicate 16 0) (blocksOf (msg.length / 16 + 1) msg)

/-- The derivation of R719. -/
def deriveKey (parent label : List Byte) (kind : Nat) : List Byte :=
  let l : List Byte := if kind = 0 then [0, 128] else [1, 0]
  ((List.range (1 + kind)).map fun i => cmac parent (le 1 (i + 1) ++ label ++ [0] ++ l)).flatten

/-! ## Slots -/

def slotOf (s : State) (k : Nat) : KeySlot := nth s.nv.slots k KeySlot.empty

def usedOf (s : State) (k : Nat) : Nat := nth s.keyUsed k 0

/-- State code of R739; an active slot whose counter sticks is RETIRED (R723). -/
def stateOf (x : KeySlot) (used : Nat) : Nat := if x.state = 1 ∧ used = 0xFFFFFFFF then 2 else x.state

def slotState (s : State) (k : Nat) : Nat := stateOf (slotOf s k) (usedOf s k)

def setUsed (k v : Nat) (s : State) : State := s.onKeyUsed (modAt · k fun _ => v)

def onSlot (k : Nat) (f : KeySlot → KeySlot) (s : State) : State :=
  s.onNv fun n => { n with slots := modAt n.slots k f }

/-- The caller may stage into a slot, or change it: the Keeper, its owner, anyone where it is EMPTY (R712). -/
def slotOpen (s : State) (n k : Nat) : Bool :=
  n == 0 || (slotOf s k).state == 0 || (slotOf s k).owner == n

/-- What keeps a caller from using a slot (R713); `u` is the usage bit. -/
def barOf (x : KeySlot) (used n u : Nat) : Option Nat :=
  let st := stateOf x used
  if st = 0 ∨ st = 3 ∨ x.owner ≠ n then some 0x32
  else if st = 2 then some 0x31
  else if bit x.usage u then none
  else some 0x12

def useBar (s : State) (n k u : Nat) : Option Nat := barOf (slotOf s k) (usedOf s k) n u

/-- One use; the one that brings the counter to its end retires the slot (R722, R723). -/
def countUse (k : Nat) (s : State) : State :=
  let v := min 0xFFFFFFFF (usedOf s k + 1)
  let s1 := setUsed k v s
  if v = 0xFFFFFFFF ∧ usedOf s k ≠ v then raise 86 (k + 64 * (slotOf s k).owner) s1 else s1

/-! ## Log entries (R715, R721, R725) -/

/-- The sectors of the key log that are not erased. -/
def keySectorsUsed (n : Nv) : List Nat :=
  if n.keyLog = .erased then n.keyDirty else n.keySector :: n.keyDirty.filter (· != n.keySector)

/-- The sector that a new header goes into: the first after the current one that reads erased (R725, R864). -/
def nextKeySector (s : State) : Option Nat :=
  let first := if s.nv.keyLog = .erased then 0 else s.nv.keySector + 1
  ((List.range 6).map fun i => (first + i) % 6).find? fun k => !(keySectorsUsed s.nv).contains k

/-- The next of the 65 entries of a new log sector, each a record of its own (R715, R725). -/
def rollJob (s : State) : Option NvJob :=
  (if s.nv.keyRollAt = 0 then nextKeySector s else some s.nv.keyRollTo).map fun k =>
    { nvJob (.keyRoll s.nv.keyRollAt) none (0xCD0 + 16 * k + s.nv.keyRollAt / 8) 0 with entry := s.nv.keyRollAt }

/-- Jobs of the NV controller, those of suspended packets among them. -/
def allJobs (s : State) : List NvJob := s.nv.job.toList ++ s.nv.jobs ++ s.nv.held.map (·.2)

/-- A new sector of the log is being written. -/
def rollRuns (s : State) : Bool :=
  (allJobs s).any fun j => match j.kind with
    | .keyRoll _ => true
    | _ => false

/-- Jobs that write `n` key log entries; a log with too few free entries gets its new sector first. -/
def entriesSubmit (n : Nat) (js : List NvJob) (s : State) : Option State :=
  if s.nv.keyLogFree < n ∧ rollRuns s = false then (rollJob s).bind fun j => nvSubmitAll (j :: js) s else nvSubmitAll js s

/-- `n` entries cannot be written: no sector of the log reads erased, which is a failed commit, or the gate is closed
(R47, R137, R864; log 202). -/
def entriesRefused (n : Nat) (s : State) : State :=
  if s.nv.keyLogFree < n ∧ rollRuns s = false ∧ (rollJob s).isNone then finish .house 0x61 [] none (raise 9 0xCD0 s)
  else finish .house 0x60 [] none s

def entrySubmit (k : JobKind) (lane : Option LaneId) (s : State) : Option State :=
  entriesSubmit 1 [nvJob k lane (keyLogPage s) 0] s

/-- A key commit is waiting or running, that of a suspended packet too. -/
def keyCommitRuns (s : State) : Bool :=
  (allJobs s).any fun j =>
    match j.kind with
    | .keyRecord .. | .keyCopy .. | .keyMove .. | .keySector _ | .keyActivate .. | .keyDestroy _ | .keyUse .. | .keyRoll _ =>
      true
    | _ => false

def execKeyLogRollover (s : State) : Host.Outcome State Fault Refusal :=
  .next <|
    if s.pwr.state = .run ∧ s.nv.keyLog = .valid ∧ s.nv.keyLogFree < 8 ∧ keyCommitRuns s = false ∧ fenced s 6 = false
        ∧ s.chr.keysDead = false then
      ((rollJob s).bind fun j => nvSubmit j s).getD s
    else s

/-- A USE entry raises the ceiling by 256 (R722). -/
def useSubmit (k : Nat) (s : State) : Option State :=
  entrySubmit (.keyUse k (slotOf s k).version (min 0xFFFFFFFF ((slotOf s k).ceiling + 256))) (some .house) s

/-- The counter has reached its ceiling. -/
def atCeiling (s : State) (k : Nat) : Bool := decide ((slotOf s k).ceiling ≤ usedOf s k)

/-! ## Record pool (R714, R726) -/

def poolPage (s : State) (p : Nat) : PoolPage := nth s.nv.pool p .dead

/-- An active record that is not where its slot says, or not valid (R729). -/
def recordGone (s : State) (k : Nat) : Bool :=
  let x := slotOf s k
  x.state == 1 && (poolPage s x.page != .live k || !recordValid (nth s.nv.poolBytes x.page []) k x.version)

/-- Source 85 for a slot, with a record of kind 11 for the owner of the record that is lost or kept (R728, R779;
log 234). -/
def keyIncomplete (slot cause owner : Nat) (s : State) : State :=
  let pay := slot + 64 * cause
  logRecord 11 85 owner pay 0 (raise 85 pay s)

/-- A slot whose active record is not valid is EMPTY, with its version kept (R729). -/
def dropGone (k : Nat) (s : State) : State :=
  if recordGone s k then keyIncomplete k 3 (slotOf s k).owner (onSlot k (fun x => { x with state := 0, key := [], kcv := [], page := 255 }) s)
  else s

/-- A cipher command reads the active record of its slot; what reads invalid has the effect of R729 (R772). -/
def keyRead (ecc : EccRead) (k : Nat) (s : State) : State :=
  dropGone k (eccRead (0xD3000 + 256 * (slotOf s k).page) (0xD3100 + 256 * (slotOf s k).page) ecc s)

/-- Pages that a job in progress, waiting or held has been given. -/
def pageTaken (s : State) (p : Nat) : Bool :=
  (allJobs s).any fun j =>
    match j.kind with
    | .keyRecord _ sh | .keyActivate _ sh => sh.page == p
    | .keyCopy _ _ dst _ => dst == p
    | _ => false

def pageFree (s : State) (p : Nat) : Bool := poolPage s p == .erased && !pageTaken s p

def sectorPages (k : Nat) : List Nat := (List.range 16).map (16 * k + ·)

def sectorErased (s : State) (k : Nat) : Bool := (sectorPages k).all (pageFree s)

/-- A page that leaves a whole erased sector in reserve. -/
def pageSpare (s : State) (p : Nat) : Bool :=
  pageFree s p && (List.range 10).any fun k => k != p / 16 && sectorErased s k

def pageHeld (s : State) (p : Nat) : Bool :=
  match poolPage s p with
  | .live _ | .shadow _ => true
  | _ => false

def heldCount (s : State) (k : Nat) : Nat := ((sectorPages k).filter (pageHeld s)).length

/-- The pool sector with the fewest live pages, among those that are not wholly erased. -/
def victim (s : State) : Option Nat :=
  ((List.range 10).filter fun k => !sectorErased s k).foldl (fun best k =>
    match best with
    | none => some k
    | some b => if heldCount s k < heldCount s b then some k else some b) none

/-- The jobs that move the record of page `p` to page `q`: its copy, and a MOVE entry for an active record (R726). -/
def moveJobs (s : State) (p q : Nat) : List NvJob :=
  match poolPage s p with
  | .live slot =>
    [nvJob (.keyCopy slot p q true) (some .house) (0xD30 + q) 0, nvJob (.keyMove slot p q) (some .house) (keyLogPage s) 0]
  | .shadow slot => [nvJob (.keyCopy slot p q false) (some .house) (0xD30 + q) 0]
  | _ => []

/-- Plans the move of one held page out of sector `k`: the jobs so far, and the pool as it will stand. -/
def planMove (k : Nat) (r : List NvJob × State) (p : Nat) : List NvJob × State :=
  let s := r.2
  if !pageHeld s p then r
  else
    match (List.range 160).find? fun q => q / 16 != k && pageFree s q with
    | none => r
    | some q =>
      (r.1 ++ moveJobs s p q,
        s.onNv fun n => { n with pool := modAt (modAt n.pool q fun _ => poolPage s p) p fun _ => .dead })

/-- Frees a sector (R726): the copies of active records with their entries, those of shadows, then the erase; and the
pool as it will stand. -/
def planFree (s : State) : List NvJob × State :=
  match victim s with
  | none => ([], s)
  | some k =>
    let live := (sectorPages k).filter fun p => match poolPage s p with
      | .live _ => true
      | _ => false
    let r := (live ++ (sectorPages k).filter (!live.contains ·)).foldl (planMove k) ([], s)
    (r.1 ++ [nvJob (.keySector k) (some .house) (0xD30 + 16 * k) 1], erasePoolSector k r.2)

/-- A page among those that leave a sector in reserve, else any; the manual does not say which. -/
def pickPage (s : State) : Nat :=
  let ps := (List.range 160).filter (pageSpare s)
  let from_ := if ps = [] then (List.range 160).filter (pageFree s) else ps
  nth from_ (freeBelow s (max 1 from_.length)) 0

/-- A page for a staging, and the jobs that come before it. -/
def allocPage (s : State) : List NvJob × Nat :=
  if (List.range 160).any (pageSpare s) then ([], pickPage s)
  else ((planFree s).1, pickPage (planFree s).2)

def movesIn (js : List NvJob) : Nat :=
  (js.filter fun j => match j.kind with
    | .keyCopy .. => true
    | _ => false).length

/-! ## KEY_STAGE (R712, R717–R719, R737) -/

def stageOk (p : Packet) : Bool :=
  let b := Packet8 p
  decide (b 0 ≤ 63) && decide (b 1 ≤ 1) && decide (1 ≤ b 2) && decide (b 2 ≤ 15) && decide (b 3 ≤ 7)
    && decide (b 6 ≤ 1)
    && (if b 6 = 0 then b 7 == 0 && Packet16 p 12 == 0
        else decide (b 7 ≤ 63) && decide (1 ≤ Packet16 p 12) && decide (Packet16 p 12 ≤ 64))

/-- The key to stage: from the pound, or derived. -/
def stageKey (s : State) (p : Packet) : List Byte :=
  if Packet8 p 6 = 0 then poundRead s p.tenant (Packet32 p 8) (16 + 16 * Packet8 p 1)
  else deriveKey (slotOf s (Packet8 p 7)).key (poundRead s p.tenant (Packet32 p 8) (Packet16 p 12)) (Packet8 p 1)

/-- A key read from the pound is overwritten there. -/
def wipeKey (p : Packet) (s : State) : State :=
  if Packet8 p 6 = 0 then poundWrite p.tenant (Packet32 p 8) (List.replicate (16 + 16 * Packet8 p 1) 0) s else s

def kcvOf (key : List Byte) : List Byte := (aesEncrypt key (List.replicate 16 0)).take 3

/-- The moves and the record's commit; a derivation counts as a use of its parent. -/
def stageGo (e : Exec) (s : State) : State :=
  let p := e.pkt
  let key := stageKey s p
  let a := allocPage s
  let sh : Shadow :=
    { kind := Packet8 p 1, owner := Packet8 p 3, usage := Packet8 p 2, version := Packet16 p 4, key := key
      kcv := kcvOf key, page := a.2, entryTorn := false }
  let k : JobKind := .keyRecord (Packet8 p 0) sh
  if !gateOk s k then finish .house 0x60 [] none s
  else
    let s1 := wipeKey p (if Packet8 p 6 = 1 then countUse (Packet8 p 7) s.useFree else s.useFree)
    match entriesSubmit (movesIn a.1) (a.1 ++ [nvJob k (some .house) (pageOf k) 0]) s1 with
    | none => entriesRefused (movesIn a.1) s
    | some s2 =>
      onExec .house (fun x =>
        { x with phase := .nv 0, partialBody := padTo 3 sh.kcv ++ le 1 (movesIn a.1) ++ le 4 0 }) s2

/-- A derivation whose parent has reached its ceiling commits a USE entry first. -/
def stageUse (e : Exec) (s : State) : State :=
  let k := Packet8 e.pkt 7
  if Packet8 e.pkt 6 = 1 ∧ atCeiling s k then
    match useSubmit k s with
    | none => entriesRefused 1 s
    | some s1 => setPhase .house .stageUse s1
  else stageGo e s

/-- A staging waits for the erase of a log without a header (R731). -/
def stageWaits (s : State) : Bool := s.nv.keyLog == .noHeader

def keyStage (e : Exec) (s : State) : State :=
  let p := e.pkt
  let k := Packet8 p 0
  if s.chr.keysDead then finish .house 0x32 [] none s
  else if !stageOk p then finish .house 0x11 [] none s
  else if !slotOpen s p.tenant k then finish .house 0x32 [] none s
  else if p.tenant ≠ 0 ∧ Packet8 p 3 ≠ p.tenant then finish .house 0x12 [] none s
  else if Packet16 p 4 ≤ (slotOf s k).version then finish .house 0x23 [] none s
  else
    match (if Packet8 p 6 = 1 then useBar s p.tenant (Packet8 p 7) 3 else none) with
    | some st => finish .house st [] none s
    | none => if stageWaits s then setPhase .house .keyErase s else stageUse e s

def execKeyStage (s : State) : Host.Outcome State Fault Refusal :=
  .next (onFresh .house 0x0710 keyStage s)

/-! ## KEY_COMMIT, KEY_QUERY, KEY_DESTROY (R720, R738–R740) -/

/-- The shadow of a slot. -/
def shadowOf (s : State) (k : Nat) : Option Shadow := (slotOf s k).shadow

/-- Starts a key log entry for the house lane's packet. -/
def keyEntry (k : JobKind) (body : List Byte) (s : State) : State :=
  match entrySubmit k (some .house) s with
  | none => entriesRefused 1 s
  | some s1 => onExec .house (fun x => { x with phase := .nv 0, partialBody := body }) s1

def keyCommit (e : Exec) (s : State) : State :=
  let n := e.pkt.tenant
  let k := Packet8 e.pkt 0
  if s.chr.keysDead then finish .house 0x32 [] none s
  else if 63 < k then finish .house 0x11 [] none s
  else if !slotOpen s n k then finish .house 0x32 [] none s
  else
    match shadowOf s k with
    | none => finish .house 0x23 [] none s
    | some h =>
      if n ≠ 0 ∧ h.owner ≠ n then finish .house 0x32 [] none s
      else keyEntry (.keyActivate k h) (le 2 h.version ++ le 2 0) s

def execKeyCommit (s : State) : Host.Outcome State Fault Refusal :=
  .next (onFresh .house 0x0711 keyCommit s)

def keyQueryBody (s : State) (k : Nat) : List Byte :=
  let x := slotOf s k
  let st := slotState s k
  le 1 st ++ le 1 x.kind ++ le 1 x.owner ++ le 1 x.usage ++ le 2 x.version ++ le 1 (b2n (shadowOf s k).isSome)
    ++ le 1 0 ++ le 4 (usedOf s k) ++ (if st = 1 ∨ st = 2 then padTo 3 x.kcv else List.replicate 3 0) ++ le 1 0

def keyQuery (e : Exec) (s : State) : State :=
  let k := Packet8 e.pkt 0
  if s.chr.keysDead then finish .house 0x32 [] none s
  else if 63 < k then finish .house 0x11 [] none s
  else if !slotOpen s e.pkt.tenant k then finish .house 0x32 [] none s
  else finish .house 0 (keyQueryBody s k) none s

def execKeyQuery (s : State) : Host.Outcome State Fault Refusal :=
  .next (onFresh .house 0x0712 keyQuery s)

def keyDestroy (e : Exec) (s : State) : State :=
  let n := e.pkt.tenant
  let k := Packet8 e.pkt 0
  let x := slotOf s k
  if s.chr.keysDead then finish .house 0x32 [] none s
  else if 63 < k then finish .house 0x11 [] none s
  else if n ≠ 0 ∧ (if x.state = 0 then (shadowOf s k).map (·.owner) ≠ some n else x.owner ≠ n) then
    finish .house 0x32 [] none s
  else keyEntry (.keyDestroy k) [] s

def execKeyDestroy (s : State) : Host.Outcome State Fault Refusal :=
  .next (onFresh .house 0x0713 keyDestroy s)

/-! ## Commits of the key store -/

def killPoolPage (p : Nat) (s : State) : State := s.onNv fun n => { n with pool := modAt n.pool p fun _ => .dead }

/-- An ACTIVATE entry that names the page is being committed. -/
def pageFlips (s : State) (p : Nat) : Bool :=
  (allJobs s).any fun j => match j.kind with
    | .keyActivate _ sh => j.begun && sh.page == p
    | _ => false

/-- A slot's shadow is dead; its page stays where an entry that names it is being committed (R720). -/
def killShadow (slot : Nat) (s : State) : State :=
  match (slotOf s slot).shadow with
  | some h =>
    let s1 := onSlot slot (fun x => { x with shadow := none }) s
    if pageFlips s h.page then s1 else killPoolPage h.page s1
  | none => s

/-- The record has its commit word: it is the shadow, and an earlier one is dead (R717). -/
def recordCommitted (slot : Nat) (sh : Shadow) (s : State) : State :=
  onSlot slot (fun x => { x with shadow := some sh, torn := none }) (killShadow slot s)

/-- The record failed: its page is dead. -/
def recordFailed (slot : Nat) (s : State) : State :=
  match (slotOf s slot).torn with
  | some p => killPoolPage p (onSlot slot (fun x => { x with torn := none }) s)
  | none => s

/-- A copy is complete: a shadow stands in its new page; an active record waits for its MOVE entry. -/
def copyDone (slot src dst : Nat) (live : Bool) (s : State) : State :=
  if live then s
  else
    (killPoolPage src (onSlot slot (fun x => { x with shadow := x.shadow.map fun h => { h with page := dst } }) s)).onNv
      fun n => { n with pool := modAt n.pool dst fun _ => .shadow slot }

/-- The MOVE entry: the slot's record stands in its new page. -/
def moveDone (slot src dst : Nat) (s : State) : State :=
  (killPoolPage src (onSlot slot (fun x => { x with page := dst }) s)).onNv
    fun n => { n with pool := modAt n.pool dst fun _ => .live slot }

/-- A slot's record page is dead. -/
def killPage (slot : Nat) (s : State) : State :=
  if (slotOf s slot).state = 1 then s.onNv fun n => { n with pool := modAt n.pool (slotOf s slot).page fun _ => .dead } else s

/-- The page of an ACTIVATE entry that failed is dead unless its record is staged still (R137). -/
def flipLost (slot : Nat) (sh : Shadow) (s : State) : State :=
  if (slotOf s slot).shadow.any (·.page == sh.page) || poolPage s sh.page != .shadow slot then s
  else killPoolPage sh.page s

/-- The flip (R720): the key that the entry names is in force with its counter at 0; a record staged meanwhile stays. -/
def keyFlip (slot : Nat) (h : Shadow) (s : State) : State :=
  let s1 := killPage slot s
  let s2 := s1.onNv fun n => { n with pool := modAt n.pool h.page fun _ => .live slot }
  setUsed slot 0 (onSlot slot (fun x =>
    { state := 1, kind := h.kind, owner := h.owner, usage := h.usage, version := h.version, ceiling := 0, key := h.key
      kcv := h.kcv, page := h.page, shadow := x.shadow.filter (·.page != h.page), torn := x.torn }) s2)

/-- The DESTROY entry: key and shadow are gone, owner and version stay (R740). -/
def keyGone (slot : Nat) (s : State) : State :=
  onSlot slot (fun x => { x with state := 3, key := [], kcv := [], page := 255 })
    (killPage slot (killShadow slot (recordFailed slot s)))

/-- A new sector with its header and checkpoints (R725): the older sectors are erased in the background, the oldest
first. -/
def keyRolled (s : State) : State :=
  s.onNv fun n =>
    let old := ((List.range 6).map fun i => (n.keyRollTo + 1 + i) % 6).filter fun k =>
      k != n.keyRollTo && (keySectorsUsed n).contains k
    { n with
      keySector := n.keyRollTo, keyGen := (n.keyGen + 1) % 2 ^ 32, keyLogFree := 63, keyLog := .valid
      keyRollAt := 0, keyDirty := old
      bg := (n.bg.filter fun e => match e with
        | .keyLog _ => false
        | _ => true) ++ if old = [] then [] else [.keyLog old] }

/-- An entry of a new sector has its commit word: the next one follows, or the sector is complete. -/
def rollDone (i : Nat) (s : State) : State :=
  if i < 64 then (match rollJob s with
    | some j => nvAhead j s
    | none => s)
  else keyRolled s

/-- A new sector that is left unfinished is no longer erased, and stays dead (R864). -/
def rollLost (n : Nv) : Nv :=
  if n.keyRollAt = 0 then n
  else { n with keyRollAt := 0, keyDirty := n.keyRollTo :: n.keyDirty.filter (· != n.keyRollTo) }

/-- What a program of a record of the key store leaves in its area: bytes 0–15 of an entry, bytes 0–239 of a record
(R715, R716). -/
def keyProgrammed (j : NvJob) (n : Nv) : Nv :=
  match j.kind with
  | .keyRecord slot sh => { n with poolBytes := modAt n.poolBytes sh.page fun _ => keyRecordBody slot sh }
  | .keyCopy _ src dst _ => { n with poolBytes := modAt n.poolBytes dst fun _ => (nth n.poolBytes src []).take 240 }
  | .keyMove .. | .keyActivate .. | .keyUse .. | .keyDestroy _ | .keyRoll _ => putEntry j (keyEntryOf n j.kind) n
  | _ => n

/-- The program of the commit word. -/
def keyCommitted (j : NvJob) (n : Nv) : Nv :=
  match j.kind with
  | .keyRecord _ sh => { n with poolBytes := modAt n.poolBytes sh.page (· ++ commitHalf) }
  | .keyCopy _ _ dst _ => { n with poolBytes := modAt n.poolBytes dst (· ++ commitHalf) }
  | .keyMove .. | .keyActivate .. | .keyUse .. | .keyDestroy _ | .keyRoll _ =>
    putEntry j (nth (nth n.keyEntries (entrySector j) []) j.entry [] ++ commitHalf) n
  | _ => n

/-! ## Cipher commands (R709, R713, R722, R741, R742) -/

def aesOk (p : Packet) : Bool :=
  let m := Packet8 p 1
  let n := Packet32 p 4
  decide (Packet8 p 0 ≤ 63) && decide (m ≤ 4) && (!bit (Packet8 p 2) 0 || m == 2 || m == 4)
    && (if m ≤ 1 then n == 16 && Packet32 p 16 == 0
        else if m ≤ 3 then decide (16 ≤ n) && decide (n ≤ 65536) && n % 16 == 0
        else decide (1 ≤ n) && decide (n ≤ 65536))

/-- Output of CIPHER_AES. -/
def aesRun (s : State) (p : Packet) (key : List Byte) : List Byte :=
  let inp := poundRead s p.tenant (Packet32 p 8) (Packet32 p 4)
  let iv := poundRead s p.tenant (Packet32 p 16) 16
  let bs := blocksOf (inp.length / 16 + 1) inp
  match Packet8 p 1 with
  | 0 => ecb key false inp
  | 1 => ecb key true inp
  | 2 => cbcEncrypt key iv bs
  | 3 => cbcDecrypt key iv bs
  | _ => ctrCrypt key iv 0 bs

/-- The slot of a cipher command as it stood when the command was admitted (R709). -/
def admittedSlot (s : State) (e : Exec) : KeySlot := e.slot.getD (slotOf s (Packet8 e.pkt 0))

/-- The key of a cipher command's admission is still the slot's. -/
def keyStands (s : State) (e : Exec) : Bool :=
  let x := slotOf s (Packet8 e.pkt 0)
  x.state == 1 && x.version == (admittedSlot s e).version

/-- The usage counter of the key of a command's admission: once another has taken its place, it is as it was then, and
no use counts on the slot (R709, R722; log 241). -/
def usedBy (s : State) (e : Exec) : Nat := if keyStands s e then usedOf s (Packet8 e.pkt 0) else e.used

/-- The operation itself, after its use has been counted. -/
def cipherRun (e : Exec) (key : List Byte) (s : State) : State :=
  let p := e.pkt
  let s1 := if keyStands s e then countUse (Packet8 p 0) s else s
  let used := if keyStands s e then usedOf s1 (Packet8 p 0) else min 0xFFFFFFFF (e.used + 1)
  if p.opcode = 0x0720 then
    finish .house 0 (le 4 used) none (poundWrite p.tenant (Packet32 p 12) (aesRun s p key) s1)
  else
    let mac := (cmac key (poundRead s p.tenant (Packet32 p 8) (Packet32 p 4))).take (Packet8 p 2)
    if bit (Packet8 p 1) 0 then
      let same := poundRead s p.tenant (Packet32 p 12) (Packet8 p 2) == mac
      finish .house 0 (le 1 (b2n (!same)) ++ le 3 0 ++ le 4 used) none s1
    else
      finish .house 0 (le 4 0 ++ le 4 used) none (poundWrite p.tenant (Packet32 p 12) mac s1)

/-- GEN_IV draws 16 bytes in class 2 and writes them before the operation starts (R710). -/
def cipherDraw (e : Exec) (key : List Byte) (since : Nat) (s : State) : State :=
  match rngGenerate false 8 s with
  | some (ws, s1) => cipherRun e key (poundWrite e.pkt.tenant (Packet32 e.pkt 16) (halfBytes ws) s1)
  | none => rngWait (setPhase .house (.cipherDraw key since) s)

/-- After the counter's ceiling is seen to. -/
def cipherGo (e : Exec) (key : List Byte) (s : State) : State :=
  if e.pkt.opcode = 0x0720 ∧ bit (Packet8 e.pkt 2) 0 then cipherDraw e key s.time s else cipherRun e key s

/-- A cipher command under a slot whose use needs bit `u`. Its key is that of its admission, unless the record of the
slot reads invalid. -/
def cipherStart (u : Nat) (ecc : EccRead) (e : Exec) (s0 : State) : State :=
  let k := Packet8 e.pkt 0
  let s := if keyStands s0 e then keyRead ecc k s0 else s0
  let x := if keyStands s0 e && !keyStands s e then slotOf s k else admittedSlot s e
  match barOf x (usedBy s e) e.pkt.tenant u with
  | some st => finish .house st [] none s
  | none =>
    if keyStands s e && atCeiling s k then
      match useSubmit k s with
      | none => entriesRefused 1 s
      | some s1 => setPhase .house (.cipherUse x.key) s1
    else cipherGo e x.key s

def cipherAes (ecc : EccRead) (e : Exec) (s : State) : State :=
  if s.chr.keysDead then finish .house 0x32 [] none s
  else if !aesOk e.pkt then finish .house 0x11 [] none s
  else cipherStart (if Packet8 e.pkt 1 ≤ 1 then 0 else 1) ecc e s

def execCipherAes (s : State) (ecc : EccRead := {}) : Host.Outcome State Fault Refusal :=
  .next (onFresh .house 0x0720 (cipherAes ecc) s)

def cipherCmac (ecc : EccRead) (e : Exec) (s : State) : State :=
  let p := e.pkt
  if s.chr.keysDead then finish .house 0x32 [] none s
  else if 63 < Packet8 p 0 ∨ Packet8 p 2 < 4 ∨ 16 < Packet8 p 2 ∨ 65536 < Packet32 p 4 then
    finish .house 0x11 [] none s
  else cipherStart 2 ecc e s

def execCipherCmac (s : State) (ecc : EccRead := {}) : Host.Outcome State Fault Refusal :=
  .next (onFresh .house 0x0721 (cipherCmac ecc) s)

end Sys2Proof.Machine
end

