-- ==== Sys2Proof/Machine/Intc.lean ====
section
/-! DEFINITION. The interrupt controller: doorbells, coalescing, arbitration, delivery and its
registers (08_interrupts). -/

namespace Sys2Proof.Machine

open Sys2Proof

/-! ## Registers the meanings share -/

def setBit128 (v : BitVec 128) (n : Nat) (b : Bool) : BitVec 128 :=
  if b then v ||| (1#128 <<< n) else v &&& ~~~(1#128 <<< n)

def setPend (n : Nat) (b : Bool) (s : State) : State :=
  s.onIc fun i => { i with pend := setBit128 i.pend n b }

def setMask (n : Nat) (b : Bool) (s : State) : State :=
  s.onIc fun i => { i with mask := setBit128 i.mask n b }

def icBase : Nat := 0x401000

/-- The port may use target t (R318). -/
def portTarget (s : State) (p : Port) (t : Nat) : Bool := bit (nth s.ic.tcfg t 0) (portIndex p)

/-- Data a port drives for a read, in the order of transfer: each word with its least significant byte first (R164,
R179). -/
def drive (p : Port) (ws : List Nat) (s : State) : State :=
  onPort p (fun q => { q with rdata := (ws.map (le 4)).flatten }) s

/-! ## Doorbells -/

/-- The record of a mode Q doorbell (R313, R335), or its drop (R339, R341). -/
def writeRecord (d : Doorbell) (s : State) : State :=
  let n := srcOwner s d.src
  let t := tenant s n
  let full := ringUsed t.evtProd t.evtCons t.place.evtN == t.place.evtN
  if !enabled s n || full || t.place.evtN == 0 then
    ctrAdd (0x10 + n) 1
      (onTenant n (fun t => { t with evtSeq := (t.evtSeq + 1) % 2 ^ 32, evtLost := true }) s)
  else
    let bytes := le 1 d.src ++ le 1 (b2n t.evtLost + 2 * b2n d.byPort) ++ le 1 n ++ le 1 0
      ++ le 4 t.evtSeq ++ le 4 (stamp s) ++ le 4 d.pay.toNat
    let a := t.place.baseAddr + t.place.evtOff + 16 * (t.evtProd % t.place.evtN)
    onTenant n (fun t =>
      { t with
        evtProd := (t.evtProd + 1) % (2 * t.place.evtN)
        evtSeq := (t.evtSeq + 1) % 2 ^ 32
        evtLost := false }) (basinWrite a bytes s)

/-- The coalescing count advances under the profile as it now stands (R326, R328, R330, R331). -/
def coalesce (n : Nat) (s : State) : State :=
  let p := srcProfile s n
  let c := cfg s (0x500 + p)
  let t := cfg s (0x508 + p)
  let old := nth s.ic.count n 0
  let s1 := s.onIc fun i => { i with prof := modAt i.prof n fun _ => (p, t) }
  if c ≤ 1 ∨ t = 0 ∨ c ≤ old + 1 then
    setPend n true (s1.onIc fun i => { i with count := modAt i.count n fun _ => 0 })
  else
    s1.onIc fun i =>
      { i with
        count := modAt i.count n fun _ => old + 1
        timer := if old = 0 then modAt i.timer n fun _ => s.time else i.timer }

/-- A doorbell at the controller (R312 steps 1 and 3, R315, R316, R329). -/
def arrive (d : Doorbell) (s : State) : State :=
  if fenced s 7 || reservedSrc d.src then s
  else
    let s1 := coalesce d.src (s.onIc fun i => { i with pay := modAt i.pay d.src fun _ => d.pay })
    if srcModeC s d.src then s1 else writeRecord d s1

/-- The first producer with a waiting doorbell, in round-robin order from `next` (R21). -/
def nextProducer (f : Fabric) : Option Nat :=
  ((List.range 10).map fun i => (f.next + i) % 10).find? fun k => nth f.queues k [] != []

/-- Takes one doorbell: the AON queue first (R109), then round robin (R21). -/
def takeDoorbell (s : State) : Option (Doorbell × State) :=
  match s.aon.queue with
  | d :: q => some (d, s.onAon fun a => { a with queue := q })
  | [] =>
    match nextProducer s.fab with
    | none => none
    | some k =>
      match nth s.fab.queues k [] with
      | [] => none
      | d :: q =>
        some (d, s.onFab fun f => { queues := modAt f.queues k fun _ => q, next := (k + 1) % 10 })

def execDoorbellArrived (s : State) : Host.Outcome State Fault Refusal :=
  .next <|
    if !inService s then s
    else match takeDoorbell s with
      | none => s
      | some (d, s1) => arrive d s1

/-- TIME for a running timer, as the source's last doorbell found it, or the IC_SRC write that named the profile since
(R324, R331). -/
def coalesceTime (s : State) (n : Nat) : Nat := (nth s.ic.prof n (0, 0)).2

/-- The TIME of the profile in force has passed since the first doorbell (R326, R327). -/
def execCoalesceTimeout (n : Nat) (s : State) : Host.Outcome State Fault Refusal :=
  .next <|
    if !fenced s 7 && inService s && nth s.ic.count n 0 != 0
        && decide (nth s.ic.timer n 0 + coalesceTime s n ≤ s.time) then
      setPend n true (s.onIc fun i => { i with count := modAt i.count n fun _ => 0 })
    else s

/-! ## Arbitration and delivery -/

/-- eligible(s, t) of R333. -/
def eligibleTarget (s : State) (n t : Nat) : Bool :=
  srcTarget s n t && decide (curpri s t < srcPrio s n)

/-- A candidate of R333. -/
def candidate (s : State) (n : Nat) : Bool :=
  pendBit s n && !maskBit s n && srcState s n == .idle && srcPrio s n != 0
    && (List.range 4).any (eligibleTarget s n)

/-- The best candidate: highest priority, lowest number on a tie (R333). -/
def bestSource (s : State) : Option Nat :=
  (List.range 128).foldl (fun best n =>
    if candidate s n then
      match best with
      | none => some n
      | some b => if srcPrio s b < srcPrio s n then some n else some b
    else best) none

/-- The lowest IC_CURPRI among a source's eligible targets (R333). -/
def lowestPri (s : State) (n : Nat) : Nat :=
  (List.range 4).foldl (fun lo t => if eligibleTarget s n t && decide (curpri s t < lo) then curpri s t else lo) 16

/-- The target of R333: round robin from rr among the eligible targets at the lowest priority. -/
def chooseTarget (s : State) (n : Nat) : Option Nat :=
  ([1, 2, 3, 4].map fun i => (s.ic.rr + i) % 4).find? fun t =>
    eligibleTarget s n t && curpri s t == lowestPri s n

/-- One cycle of arbitration: the winner and its target (R333). -/
def arbitrate (s : State) : State :=
  match bestSource s with
  | none => s
  | some n =>
    match chooseTarget s n with
    | none => s
    | some t =>
      setPend n false (s.onIc fun i =>
        { i with
          rr := t
          st := if srcModeC s n then modAt i.st n fun _ => .won t else i.st
          flight := i.flight ++ [(n, t, srcOwner s n, srcModeC s n)] })

def execArbitration (s : State) : Host.Outcome State Fault Refusal :=
  .next (if fenced s 7 || !inService s then s else arbitrate s)

/-- A delivery of a source to a target, in the mode and for the owner that it had when it won: a mode C source becomes
claimable, a mode Q source leaves a watermark unless EVT_CONS has reached it already (R312, R334, R337). -/
def deliver (x : Nat × Nat × Nat × Bool) (s : State) : State :=
  let (n, t, o, modeC) := x
  if modeC then
    if srcState s n = .won t then s.onIc fun i => { i with st := modAt i.st n fun _ => .delivered t } else s
  else
    let mark := if (tenant s o).evtProd = (tenant s o).evtCons then none else some (tenant s o).evtProd
    s.onIc fun i => { i with marks := modAt i.marks (8 * t + o) fun _ => mark }

/-- A stalled read of IC_SYNC waits for one delivery less (R352). -/
def stallNearer (s : State) : State :=
  s.onPortA fun q => { q with stall := q.stall.map fun st => { st with ahead := st.ahead - 1 } }

/-- Delivers the source that won first of those still on their way. -/
def deliverOldest (s : State) : State :=
  match s.ic.flight with
  | [] => s
  | x :: rest => deliver x (stallNearer (s.onIc fun i => { i with flight := rest }))

/-- Delivers every source on its way (R352). -/
def deliverAll (s : State) : State :=
  s.ic.flight.foldl (fun s x => deliver x s)
    ((s.onIc fun i => { i with flight := [] }).onPortA fun q => { q with stall := q.stall.map fun st => { st with ahead := 0 } })

def execDelivery (s : State) : Host.Outcome State Fault Refusal :=
  .next (if fenced s 7 || !inService s then s else deliverOldest s)

/-! ## Port writes

Each register has its effect here; which port may write it is `icDenied`. -/

/-- IC_DOORBELL from a port (R314). -/
def icDoorbell (p : Port) (v : Nat) (s : State) : State :=
  enqueue (match p with | .a => .portA | .b => .portB)
    ⟨v % 128, BitVec.ofNat 24 (v / 256), true⟩ s

/-- IC_SETCLR (R316, R347): `onMask` names the mask bit, `set` the value. -/
def icSetclr (onMask set : Bool) (v : Nat) (s : State) : State :=
  if onMask then setMask (v % 128) set s
  else if fenced s 7 then s
  else setPend (v % 128) set s

/-- New bits of IC_PENDi or IC_MASKi for the sources the port may change (R320, R323). -/
def bitsWrite (s : State) (p : Port) (i v : Nat) (old : BitVec 128) : BitVec 128 :=
  (List.range 32).foldl (fun m b =>
    if portOwnsSrc s p (32 * i + b) then setBit128 m (32 * i + b) (bit v b) else m) old

def icPendSet (p : Port) (i v : Nat) (s : State) : State :=
  if fenced s 7 then s else s.onIc fun c => { c with pend := bitsWrite s p i v c.pend }

def icMaskSet (p : Port) (i v : Nat) (s : State) : State :=
  s.onIc fun c => { c with mask := bitsWrite s p i v c.mask }

/-- A profile written to IC_SRC(n) acts at once on a running count: its TIME is that of the timer, and a count that has
reached its COUNT makes the source pending, unless the controller is fenced (R316, R324, R326, R331). -/
def newProfile (n : Nat) (s : State) : State :=
  let c := nth s.ic.count n 0
  let p := srcProfile s n
  if c = 0 ∨ (nth s.ic.prof n (0, 0)).1 = p then s
  else
    let s1 := s.onIc fun i => { i with prof := modAt i.prof n fun _ => (p, cfg s (0x508 + p)) }
    if (cfg s (0x500 + p) ≤ c ∨ cfg s (0x508 + p) = 0) ∧ fenced s 7 = false then
      setPend n true (s1.onIc fun i => { i with count := modAt i.count n fun _ => 0 })
    else s1

/-- IC_SRC(n) (R322–R324). -/
def icSrcSet (n v : Nat) (s : State) : State :=
  if reservedSrc n then s
  else
    let old := icSrc s n
    let w := if 112 ≤ n then v % 2 ^ 8 + bits old 10 8 * 2 ^ 8 + bits v 14 11 * 2 ^ 11 else v % 2 ^ 15
    let idle := srcState s n == .idle && !pendBit s n && nth s.ic.count n 0 == 0
    if bits w 11 8 != bits old 11 8 && !idle then s.onIc fun i => { i with busy := true }
    else newProfile n (s.onIc fun i => { i with src := modAt i.src n fun _ => BitVec.ofNat 32 w })

/-- IC_EOIt (R343). -/
def icEoi (t v : Nat) (s : State) : State :=
  let n := v % 128
  if srcState s n = .active t then s.onIc fun i => { i with st := modAt i.st n fun _ => .idle }
  else s.onIc fun i => { i with eoiErr := modAt i.eoiErr t fun _ => true }

/-- IC_CURPRIt (R317). -/
def icCurpriSet (t v : Nat) (s : State) : State :=
  s.onIc fun i => { i with curpri := modAt i.curpri t fun _ => v % 16 }

/-- IC_TCFGt (R317). -/
def icTcfgSet (t v : Nat) (s : State) : State :=
  s.onIc fun i => { i with tcfg := modAt i.tcfg t fun _ => v % 4 }

/-- The offset lies on a register of R317. -/
def icListed (off : Nat) : Bool :=
  off % 4 == 0 && ((off < 0xD0) || (0x200 ≤ off && off < 0x400))

/-- A write to the block that is ignored as a whole and raises source 11 with KIND = 2 (R314, R318,
R319, R321). -/
def icDenied (s : State) (p : Port) (off v : Nat) : Bool :=
  if off = 0 then bit v 7 || v % 128 < 112 || !portOf s p ((v % 128 - 112) / 2)
  else if off = 4 then
    !(!bit v 8 && fenced s 7) && (bit v 7 || v / 2 ^ 10 != 0 || !portOwnsSrc s p (v % 128))
  else if off = 0xC then !portOf s p 0
  else if 0x80 ≤ off ∧ off < 0xC0 then !portTarget s p ((off - 0x80) / 0x10)
  else if 0xC0 ≤ off then !portOf s p 0
  else false

/-- The effect of a write to the block that its rules allow. -/
def icWrite (p : Port) (off v : Nat) (s : State) : State :=
  if off = 0 then icDoorbell p v s
  else if off = 4 then icSetclr (bit v 8) (bit v 9) v s
  else if 0x10 ≤ off ∧ off < 0x20 then icPendSet p ((off - 0x10) / 4) v s
  else if 0x20 ≤ off ∧ off < 0x30 then icMaskSet p ((off - 0x20) / 4) v s
  else if 0x80 ≤ off ∧ off < 0xC0 then
    let t := (off - 0x80) / 0x10
    if off % 0x10 = 0 then icCurpriSet t v s
    else if off % 0x10 = 8 then icEoi t v s
    else s
  else if 0xC0 ≤ off ∧ off < 0xD0 then icTcfgSet ((off - 0xC0) / 4) v s
  else if 0x200 ≤ off then icSrcSet ((off - 0x200) / 4) v s
  else s

/-! ## Port reads -/

/-- The source a claim takes (R342). -/
def claimSource (s : State) (t : Nat) : Option Nat :=
  (List.range 128).foldl (fun best n =>
    if deliveredTo s t n then
      match best with
      | none => some n
      | some b => if srcPrio s b < srcPrio s n then some n else some b
    else best) none

/-- IC_CLAIMt (R342): the value read and the state after it. -/
def icClaim (p : Port) (t : Nat) (s : State) : Nat × State :=
  if !portTarget s p t then (0, s)
  else match claimSource s t with
    | none => (0, s)
    | some n =>
      (n + 2 ^ 7 + 2 ^ 8 * (nth s.ic.pay n 0).toNat,
        s.onIc fun i => { i with st := modAt i.st n fun _ => .active t })

/-- IC_TSTATt (R345); the read clears EOI_ERR. -/
def icTstat (p : Port) (t : Nat) (s : State) : Nat × State :=
  if !portTarget s p t then (0, s)
  else (tstat s t, s.onIc fun i => { i with eoiErr := modAt i.eoiErr t fun _ => false })

/-- IC_SYNC (R352). `fast` is a port B read too fast for a delivery to end within the turnaround. -/
def icSync (p : Port) (fast : Bool) (s : State) : Nat × State :=
  if p = .b ∧ fast ∧ s.ic.flight ≠ [] then (0, s) else (1, deliverAll s)

/-- IC_STATUS (R317). -/
def icStatus (s : State) : Nat × State := (b2n s.ic.busy, s.onIc fun i => { i with busy := false })

/-- IC_EVTDROPn (R340, R776). -/
def icEvtdrop (n : Nat) (s : State) : Nat × State := (ctrGet s (0x10 + n), ctrClear (0x10 + n) s)

/-- A read of the block: the value and the state after it. `fast` as for `icSync`. -/
def icRead (p : Port) (off : Nat) (fast : Bool) (s : State) : Nat × State :=
  if off = 8 then icSync p fast s
  else if off = 0xC then icStatus s
  else if 0x10 ≤ off ∧ off < 0x20 then (icPend s ((off - 0x10) / 4), s)
  else if 0x20 ≤ off ∧ off < 0x30 then (word128 s.ic.mask ((off - 0x20) / 4), s)
  else if 0x30 ≤ off ∧ off < 0x40 then (icActive s ((off - 0x30) / 4), s)
  else if 0x40 ≤ off ∧ off < 0x60 then icEvtdrop ((off - 0x40) / 4) s
  else if 0x60 ≤ off ∧ off < 0x80 then (icProfile s ((off - 0x60) / 4), s)
  else if 0x80 ≤ off ∧ off < 0xC0 then
    let t := (off - 0x80) / 0x10
    if !portTarget s p t then (0, s)
    else if off % 0x10 = 0 then (curpri s t, s)
    else if off % 0x10 = 4 then icClaim p t s
    else if off % 0x10 = 0xC then icTstat p t s
    else (0, s)
  else if 0xC0 ≤ off ∧ off < 0xD0 then (nth s.ic.tcfg ((off - 0xC0) / 4) 0, s)
  else if 0x200 ≤ off then (icSrc s ((off - 0x200) / 4), s)
  else (0, s)

end Sys2Proof.Machine
end

