-- ==== Sys2Proof/Machine/Ports.lean ====
section
/-! DEFINITION. The host ports: access checking, the address map, transactions, port errors and port
reset, and the registers of recovery service (05_host_ports, R153–R155). -/

namespace Sys2Proof.Machine

open Sys2Proof

/-! ## Access checking (R160–R162, R184, R188) -/

def apCovers (s : State) (page k : Nat) : Bool :=
  let r := ptWord s.pt.active (0x140 + 8 * k)
  bits r 26 16 != 0 && decide (bits r 9 0 ≤ page) && decide (page < bits r 9 0 + bits r 26 16)

def apGrants (s : State) (p : Port) (write : Bool) (k : Nat) : Bool :=
  let g := ptWord s.pt.active (0x144 + 8 * k)
  bit g (portIndex p) && bit g (if write then 3 else 2)

/-- KIND of a Basin word that fails (R184, R188): 1 where no aperture covers it, 2 where those that do
lack the port or the right (log 11). -/
def basinKind (s : State) (p : Port) (write : Bool) (addr : Nat) : Option Nat :=
  let cover := (List.range 32).filter (apCovers s (addr / 4096))
  if cover = [] then some 1 else if cover.any (apGrants s p write) then none else some 2

/-- Offsets of the global registers in normal service (R190). -/
def globalListed (off : Nat) : Bool :=
  off ∈ [0x00, 0x04, 0x08, 0x0C, 0x10, 0x18, 0x1C, 0x20, 0x24, 0x28, 0x30, 0x34, 0x40]

/-- Offsets of a tenant page (R199). -/
def pageListed (off : Nat) : Bool := off % 4 == 0 && off < 0x40 && off != 0x1C

/-- An address of the tenant doorbell and ring-pointer pages (R160). -/
def inTenantPages (addr : Nat) : Bool := decide (0x408000 ≤ addr) && decide (addr < 0x40A000)

/-- What recovery service offers at an address: page 0 and the recovery window (R153). -/
def recListed (addr : Nat) : Bool :=
  addr < 0x1000 || addr ∈ [0x400000, 0x400F00, 0x400F04, 0x400F08, 0x400F0C]

/-- KIND of the access fault of a word, none for a word that passes (R188). Before step 11 a write to a tenant page
raises nothing, in recovery service too (R87). -/
def accessKind (s : State) (p : Port) (write : Bool) (addr v : Nat) : Option Nat :=
  if write && inTenantPages addr && s.pwr.state != .run then none
  else if s.pwr.state = .recovery then (if recListed addr then none else some 0)
  else if addr < 0x400000 then basinKind s p write addr
  else if addr < 0x401000 then
    let off := addr - 0x400000
    if !globalListed off then some 0
    else if write && (off == 0x20 && p == .b || off == 0x40 && !portOf s p 0) then some 2
    else none
  else if addr < 0x402000 then
    if !icListed (addr - icBase) then some 0
    else if write && icDenied s p (addr - icBase) v then some 2
    else none
  else if addr < 0x403000 then
    if 0x10 ≤ addr - 0x402000 then some 0 else if write then some 2 else none
  else if 0x408000 ≤ addr ∧ addr < 0x40A000 then
    if !portOf s p ((addr - 0x408000) / 0x400) then some 3
    else if !pageListed ((addr - 0x408000) % 0x400) then some 0
    else none
  else if 0x410000 ≤ addr ∧ addr < 0x410800 then
    if !portOf s p 0 then some 3 else none
  else if 0x410800 ≤ addr ∧ addr < 0x411000 then none
  else some 0

/-! ## Port errors (R196, R197, R211–R213, R746) -/

/-- 256 errors of codes 1–3 within 10 ms fence the port while the other one is not fenced (R746). -/
def portStorm (p : Port) (s : State) : State :=
  let s1 := onPort p (fun q =>
    { q with errTimes := (q.errTimes.filter fun t => decide (s.time ≤ t + 10000)) ++ [s.time] }) s
  if 256 ≤ (portSt s1 p).errTimes.length && fenceable s1 (12 + portIndex p) && !fenced s1 (12 + portIndex p) then
    fenceUnit (12 + portIndex p) 15 0 s1
  else s1

def portError (p : Port) (code addr : Nat) (s : State) : State :=
  let s1 := portErrEvent p code addr (portErrFlag p code addr s)
  if code ≤ 3 then portStorm p s1 else s1

/-- A further error of a transaction whose first error has been reported: its flag, and no source (R196, R211). -/
def laterError (p : Port) (code addr : Nat) (s : State) : State :=
  let s1 := portErrFlag p code addr s
  if code ≤ 3 then portStorm p s1 else s1

/-- A word drawn from RNG_DATA for a read that ends before it is delivered is discarded (R210, R212). -/
def discardDraw (p : Port) (addr : Nat) (s : State) : State :=
  if addr = 0x402000 ∧ accessKind s p false addr 0 = none then
    match rngTakeWord s with
    | some (_, s1) => s1
    | none => s
  else s

/-! ## Port reset (R205–R210) -/

/-- A tenant bound to the port only (R207). -/
def boundOnly (s : State) (p : Port) (n : Nat) : Bool :=
  enabled s n && portOf s p n && !portOf s (otherPort p) n && !(tenant s n).resetting

/-- Steps 1 to 3 of a port reset; in recovery service no firmware runs that could reset a tenant. The word that a
stalled read awaited is discarded (R210). -/
def resetPort (p : Port) (s : State) : State :=
  let s0 := match p, s.portA.stall with
    | .a, some st => discardDraw .a st.addr s
    | _, _ => s
  let s1 := onPort p (fun q =>
    { q with
      mode := false, latency := 8, err := 0, errAddr := 0, armed := true
      stall := none, burst := cutTx q, rdata := [], resetUntil := s.time + 2 }) s0
  let s2 := portErrEvent p 6 0 (portErrFlag p 6 0 s1)
  ((List.range 8).filter fun n => inService s && boundOnly s p n).foldl
    (fun s n => tenantReset n (fun e => e.pkt.tenant == n) s) s2

/-- The PORT_RESET register (R198). -/
def portResetReg (v : Nat) (s : State) : State :=
  if bits v 15 8 ≠ 0xA5 then s
  else
    let s1 := if bit v 0 then resetPort .a s else s
    if bit v 1 then resetPort .b s1 else s1

/-! ## Registers -/

/-- A tenant's ring index write (R201, R204, R234). -/
def cmdProdSet (n v : Nat) (s : State) : State :=
  let t := tenant s n
  let i := v % 2 ^ 16
  if t.resetting || !enabled s n then s
  else if 2 * t.place.cmdN ≤ i || t.place.cmdN < ringUsed i t.cmdCons t.place.cmdN then
    onTenant n (fun t => { t with idxErr := true }) s
  else onTenant n (fun t => { t with cmdProd := i, idxErr := false }) s

def rplConsSet (n v : Nat) (s : State) : State :=
  let t := tenant s n
  let i := v % 2 ^ 16
  if 2 * t.place.rplN ≤ i || t.place.rplN < ringUsed t.rplProd i t.place.rplN then
    onTenant n (fun t => { t with idxErr := true }) s
  else resetAgain (drainTenant n (onTenant n (fun t => { t with rplCons := i, idxErr := false }) s))

/-- Watermarks of a tenant that EVT_CONS has reached hold no IRQ any more (R337). -/
def clearMarks (n : Nat) (s : State) : State :=
  s.onIc fun i =>
    { i with marks := (List.range 32).map fun k =>
        if k % 8 = n ∧ !markHolds s (k / 8) n then none else nth i.marks k none }

def evtConsSet (n v : Nat) (s : State) : State :=
  let t := tenant s n
  let i := v % 2 ^ 16
  if 2 * t.place.evtN ≤ i || t.place.evtN < ringUsed t.evtProd i t.place.evtN then
    onTenant n (fun t => { t with idxErr := true }) s
  else clearMarks n (onTenant n (fun t => { t with evtCons := i, idxErr := false }) s)

def tenantPageWrite (n off v : Nat) (s : State) : State :=
  if off = 0 then cmdProdSet n v s
  else if off = 0xC then rplConsSet n v s
  else if off = 0x14 then evtConsSet n v s
  else s

/-- PA_CFG (R194). -/
def paCfgSet (v : Nat) (s : State) : State :=
  s.onPortA fun q => { q with mode := bit v 0, latency := max 4 (bits v 12 8) }

/-! ### Recovery service (R32, R153–R155) -/

def setRec (busy : Bool) (verdict status : Nat) (s : State) : State :=
  s.onFw fun f => { f with recStatus := BitVec.ofNat 32 (1 + 2 * b2n busy + 16 * verdict + 256 * status) }

def recVerdict (s : State) : Nat := bits s.fw.recStatus.toNat 7 4
def recBusy (s : State) : Bool := bit s.fw.recStatus.toNat 1

/-- REC_CMD: stage, verify, activate bank A (R153–R155). An accepted stage or activate sets BUSY with a last status of
0 until its end (log 16). -/
def recCommand (v : Nat) (s : State) : State :=
  if recBusy s then setRec true (recVerdict s) 0x11 s
  else
    let off := s.fw.recOffset.toNat
    let len := s.fw.recLength.toNat
    match v with
    | 1 =>
      if !stageRangeOk off len then setRec false (recVerdict s) 0x11 s
      else
        match nvSubmit (stageJob s false off (basinRead s 0 len) none) s with
        | none => setRec false (recVerdict s) 0x60 s
        | some s1 =>
          setRec true (recVerdict s) 0 ((dropAwaited false (off / 4096) s1).onFw fun f => { f with verified := false })
    | 2 =>
      let d := fwVerdict s s.nv.fwA
      setRec false d 0 (s.onFw fun f => { f with verified := d == 0 })
    | 3 =>
      if !s.fw.verified then setRec false (recVerdict s) 0x23 s
      else if s.nv.fwA.act ≠ .erased then
        setRec false (recVerdict s) 0x61 s
      else
        match nvSubmit (nvJob (.fwAct false 1) none 0x5FE 0) s with
        | none => setRec false (recVerdict s) 0x60 s
        | some s1 => setRec true (recVerdict s) 0 s1
    | _ => setRec false (recVerdict s) 0x10 s

def recWriteWord (addr v : Nat) (s : State) : State :=
  if addr < 0x1000 then basinWrite addr (le 4 v) s
  else if addr = 0x400F04 then recCommand v s
  else if addr = 0x400F08 then s.onFw fun f => { f with recOffset := BitVec.ofNat 32 v }
  else if addr = 0x400F0C then s.onFw fun f => { f with recLength := BitVec.ofNat 32 v }
  else s

/-- The effect of a word that passed its check (R160). PORT_RESET and PA_CFG have their effect when chip select
rises (R175, R205). -/
def writeWord (p : Port) (addr v : Nat) (s : State) : State :=
  if s.pwr.state = .recovery then recWriteWord addr v s
  else if addr < 0x400000 then basinWrite addr (le 4 v) s
  else if addr < 0x401000 then s
  else if addr < 0x402000 then icWrite p (addr - icBase) v s
  else if inTenantPages addr then
    (if s.pwr.state = .run then tenantPageWrite ((addr - 0x408000) / 0x400) ((addr - 0x408000) % 0x400) v s else s)
  else if 0x410040 ≤ addr ∧ addr < 0x410240 then
    s.onPt fun t => { t with staging := modAt t.staging ((addr - 0x410040) / 4) fun _ => BitVec.ofNat 32 v }
  else s

/-- A tenant page register (R199, R233). -/
def tenantPageRead (s : State) (n off : Nat) : Nat :=
  let t := tenant s n
  let p := t.place
  match off with
  | 0x00 => t.cmdProd
  | 0x04 => t.cmdCons
  | 0x08 => t.rplProd
  | 0x0C => t.rplCons
  | 0x10 => t.evtProd
  | 0x14 => t.evtCons
  | 0x18 => tenStatus s n
  | 0x20 => (p.baseAddr + p.cmdOff) % 2 ^ 22
  | 0x24 => p.cmdN + 2 ^ 16 * b2n p.cmdBig
  | 0x28 => (p.baseAddr + p.rplOff) % 2 ^ 22
  | 0x2C => p.rplN + 2 ^ 16 * b2n p.rplBig
  | 0x30 => (p.baseAddr + p.evtOff) % 2 ^ 22
  | 0x34 => p.evtN
  | 0x38 => p.baseAddr % 2 ^ 22
  | 0x3C => p.pages
  | _ => 0

/-- The error register of port `q` (R196, R197). -/
def errRead (q : Port) (s : State) : Nat × State :=
  ((portSt s q).err.toNat, onPort q (fun x => { x with err := 0, armed := true }) s)

/-- A copy of the protection table (R223). -/
def ptRead (s : State) (t : List Word) (off : Nat) : Nat :=
  if off = 0 then s.pt.gen.toNat else if 0x40 ≤ off ∧ off < 0x240 then ptWord t off else 0

def globalRead (p : Port) (off : Nat) (s : State) : Nat × State :=
  match off with
  | 0x00 => (0x7214, s)
  | 0x04 => (0x11, s)
  | 0x08 => (if s.pwr.state = .run then s.fw.version.toNat else 0, s)
  | 0x0C => (s.fw.bootInfo.toNat, s)
  | 0x10 => (fenceMap s, s)
  | 0x18 => (stamp s, onPort p (fun q => { q with timeHi := BitVec.ofNat 32 (s.time / 2 ^ 32) }) s)
  | 0x1C => ((portSt s p).timeHi.toNat, s)
  | 0x20 => (paCfg s, s)
  | 0x24 => errRead .a s
  | 0x28 => (s.portA.errAddr.toNat, s)
  | 0x30 => errRead .b s
  | 0x34 => (s.portB.errAddr.toNat, s)
  | _ => (0, s)

/-- RNG_DATA with no word ready in time: zero, TIMEOUT, and on port B the LATE error (R182, R703), whose address is that
of RNG_DATA (log 182). -/
def rngLate (p : Port) (s : State) : Nat × State :=
  let s1 := onPort p (fun q => { q with rngTimeout := true }) s
  (0, match p with
    | .a => s1
    | .b => portError .b 5 0x402000 s1)

def rngDataWord (p : Port) (s : State) : Nat × State :=
  match rngTakeWord s with
  | some (w, s1) => (w.toNat, s1)
  | none => rngLate p (rngWait s)

def recReadWord (s : State) (addr : Nat) : Nat :=
  if addr < 0x1000 then basinWord s addr
  else match addr with
    | 0x400000 => 0x7214
    | 0x400F00 => s.fw.recStatus.toNat
    | 0x400F08 => s.fw.recOffset.toNat
    | 0x400F0C => s.fw.recLength.toNat
    | _ => 0

/-- A word that passed its check, and the state after the read. -/
def readWord (p : Port) (addr : Nat) (fast : Bool) (s : State) : Nat × State :=
  if s.pwr.state = .recovery then (recReadWord s addr, s)
  else if addr < 0x400000 then (basinWord s addr, s)
  else if addr < 0x401000 then globalRead p (addr - 0x400000) s
  else if addr < 0x402000 then icRead p (addr - icBase) fast s
  else if addr < 0x403000 then
    match addr - 0x402000 with
    | 0 => rngDataWord p s
    | 4 => rngStat p s
    | 8 => (rngPool s, s)
    | _ => (min (2 ^ 20) s.rng.calls, s)
  else if addr < 0x40A000 then
    (tenantPageRead s ((addr - 0x408000) / 0x400) ((addr - 0x408000) % 0x400), s)
  else if addr < 0x410800 then (ptRead s s.pt.staging (addr - 0x410000), s)
  else (ptRead s s.pt.active (addr - 0x410800), s)

/-! ## Transactions (R163–R173, R179–R187) -/

/-- Words of a write, each checked at its own transaction; the first that fails raises source 11. Answers whether one
has failed. The word after 0xFFFF_FFFC stands at 0 (log 183). -/
def burstWrite (p : Port) : Nat → List Word → Bool → State → Bool × State
  | _, [], failed, s => (failed, s)
  | addr, w :: ws, failed, s =>
    match accessKind s p true addr w.toNat with
    | some k =>
      burstWrite p ((addr + 4) % 2 ^ 32) ws true (if failed then s else accessFault p true k addr s)
    | none => burstWrite p ((addr + 4) % 2 ^ 32) ws failed (writeWord p addr w.toNat s)

/-- Words of a read; a word that fails reads 0. -/
def burstRead (p : Port) (fast : Bool) : Nat → Nat → Bool → State → List Nat × Bool × State
  | _, 0, failed, s => ([], failed, s)
  | addr, n + 1, failed, s =>
    match accessKind s p false addr 0 with
    | some k =>
      let r := burstRead p fast ((addr + 4) % 2 ^ 32) n true (if failed then s else accessFault p false k addr s)
      (0 :: r.1, r.2)
    | none =>
      let x := readWord p addr fast s
      let r := burstRead p fast ((addr + 4) % 2 ^ 32) n failed x.2
      (x.1 :: r.1, r.2)

/-- A port A read whose first word is not ready: an RNG word, or IC_SYNC while a delivery is on its way
(R168, R352, R703). -/
def mustStall (s : State) (p : Port) (addr : Nat) : Bool :=
  p == .a && (accessKind s p false addr 0).isNone
    && ((addr == 0x402000 && !fenced s 4 && (rngTakeWord s).isNone)
      || (addr == icBase + 8 && s.ic.flight != []))

/-! ### Commands and addresses as they are transferred (R163, R164, R179) -/

inductive PortCmd where
  | write | read | reset
deriving DecidableEq, Repr

/-- The command of a first byte and, in 8D-8D-8D, its extension; none is BAD_CMD. -/
def portCommand (ext : Bool) (cmd : List Byte) : Option PortCmd :=
  let is := fun (c x : Byte) => cmd == if ext then [c, x] else [c]
  if is 0x02 0xFD then some .write
  else if is 0x0B 0xF4 then some .read
  else if is 0xFF 0xFF then some .reset
  else none

/-- Port A has extension bytes in 8D-8D-8D; port B has none. -/
def hasExtension (s : State) (p : Port) : Bool := p == .a && s.portA.mode

/-- The bits of a byte, most significant first. -/
def byteBits (b : Byte) : List Bool := (List.range 8).map fun i => b.getLsbD (7 - i)

/-- Read data bit by bit, as one line carries it (R164, R179). -/
def dataBits (bs : List Byte) : List Bool := (bs.map byteBits).flatten

/-- An address from the bits received, most significant first; those not received are 0 (R164, R197). -/
def addrOf (bytes : List Byte) (tail : List Bool) : Nat :=
  (((bytes.map byteBits).flatten ++ tail ++ List.replicate 32 false).take 32).foldl (fun a b => 2 * a + b2n b) 0

/-- The whole words of a data phase, each with its least significant byte first. -/
def wordsOf : List Byte → List Word
  | a :: b :: c :: d :: rest => BitVec.ofNat 32 (leNat [a, b, c, d]) :: wordsOf rest
  | _ => []

/-! ### Whole transactions -/

/-- The last value that the words of a write give to a register whose effect waits for chip select (R175, R205). -/
def lateWord (s : State) (p : Port) (reg addr : Nat) (ws : List Word) : Option Nat :=
  let v := (nth ws ((reg - addr) / 4) 0).toNat
  if addr ≤ reg ∧ reg < addr + 4 * ws.length ∧ s.pwr.state ≠ .recovery ∧ accessKind s p true reg v = none then some v
  else none

/-- The value that the words of a write give to PORT_RESET, 0 for none (R198, R205). -/
def resetWord (s : State) (p : Port) (addr : Nat) (ws : List Word) : Nat := (lateWord s p 0x400040 addr ws).getD 0

/-- What the words of a write have left for the moment at which chip select rises (R175, R205). -/
def lateWords (o : OpenTx) (s : State) : State := portResetReg o.reset (o.paCfg.elim s fun v => paCfgSet v s)

/-- An error of a transaction: a source with its first one, the flag alone with a further one (R196, R211). -/
def txError (p : Port) (o : OpenTx) (code addr : Nat) (s : State) : State :=
  if o.err then laterError p code addr s else portError p code addr s

/-- After `n` more words of a transaction: chip select rises after a whole word, which applies PORT_RESET and PA_CFG and
abandons a read that has had no word; it rises inside a word, which is TRUNC; or it stays low (R196, R205, R212). -/
def endWords (p : Port) (o : OpenTx) (n : Nat) (fin : TxEnd) (s : State) : State :=
  let next := (o.addr + 4 * n) % 2 ^ 32
  let fresh := o.fresh && n == 0
  match fin with
  | .whole => if !o.write && fresh then txError p o 4 next (discardDraw p next s) else lateWords o s
  | .cut => lateWords o (txError p o 2 next s)
  | .held => onPort p (fun q => { q with burst := some { o with addr := next, fresh := fresh } }) s

/-- Chip select has risen over a transaction that was held open. -/
def closeTx (p : Port) (o : OpenTx) (s : State) : State :=
  let s1 := onPort p (fun q => { q with burst := none }) s
  match o.kind with
  | .live | .misaligned => endWords p o 0 .whole s1
  | .silent | .dead => lateWords o s1

/-- A transaction begins: chip select has been high, so an open one has ended, and a port A read still in its
stall was abandoned (R196, R205, R212). -/
def portBegin (p : Port) (s : State) : State :=
  let s1 := match (portSt s p).burst with
    | some o => closeTx p o s
    | none => s
  match p, s1.portA.stall with
  | .a, some st => portError .a 4 st.addr (discardDraw .a st.addr (s1.onPortA fun q => { q with stall := none }))
  | _, _ => s1

/-- A transaction without effect of its own: what is kept of it is that it is in progress, with what waits for its end.
-/
def keepTx (p : Port) (o : OpenTx) (fin : TxEnd) (s : State) : State :=
  match fin, (portSt s p).burst with
  | .held, _ => onPort p (fun q => { q with burst := some o }) s
  | _, some _ => lateWords o (onPort p (fun q => { q with burst := none }) s)
  | _, none => s

/-- A transaction that begins while its port does not answer: its data is zeros between steps 1 and 4 of a port reset,
and else its outputs stay high-impedance to its end (R76, R209, R214, R849). -/
def silentTx (p : Port) (write : Bool) (fin : TxEnd) (s : State) : State :=
  keepTx p { addr := 0, write := write, kind := if portServed s p then .silent else .dead } fin s

/-- The words of a transaction with a misaligned address have no effect (R212). -/
def misaligned (p : Port) (write : Bool) (addr n : Nat) (fin : TxEnd) (s : State) : State :=
  endWords p { addr := addr, write := write, err := true, fresh := !write, kind := .misaligned } n fin s

/-- The CMD_PROD values that some words have changed, as they stood before. -/
def doorsRung (s t : State) : List (Nat × Nat) :=
  (List.range 8).filterMap fun n =>
    if (tenant s n).cmdProd = (tenant t n).cmdProd then none else some (n, (tenant s n).cmdProd)

/-- The data phase of a write from a word on. -/
def writeRun (p : Port) (o : OpenTx) (ws : List Word) (fin : TxEnd) (s : State) : State :=
  let r := burstWrite p o.addr ws o.failed s
  endWords p
    { o with
      failed := r.1, reset := max o.reset (resetWord s p o.addr ws), paCfg := (lateWord s p 0x400020 o.addr ws).or o.paCfg
      doors := o.doors ++ doorsRung s r.2, fresh := false }
    ws.length fin r.2

/-- A WRITE of whole words (R212, R213): nothing for a port that does not answer, an ALIGN error, or the words. -/
def portWriteTx (p : Port) (addr : Nat) (ws : List Word) (fin : TxEnd) (s : State) : State :=
  if !portUp s p then silentTx p true fin s
  else
    let s0 := portBegin p s
    if !portUp s0 p then silentTx p true fin s0
    else if addr % 4 ≠ 0 then misaligned p true addr ws.length fin (portError p 1 addr s0)
    else writeRun p { addr := addr, write := true } ws fin s0

/-- Between steps 1 and 4 of its reset a port drives zeros (R209). -/
def zeroRead (p : Port) (n : Nat) (s : State) : State :=
  if portServed s p then drive p (List.replicate n 0) s else s

/-- A port B read of RNG_DATA among some words that finds none ready, which is an error of its own (R182). -/
def lateRead (s : State) (p : Port) (addr n : Nat) : Bool :=
  p == .b && decide (addr ≤ 0x402000) && decide (0x402000 < addr + 4 * n) && (accessKind s p false 0x402000 0).isNone
    && (rngTakeWord s).isNone

/-- The data phase of a read from a word on; the first word may not be ready. -/
def readRun (p : Port) (o : OpenTx) (n : Nat) (fin : TxEnd) (fast : Bool) (s : State) : State :=
  if o.fresh ∧ n ≠ 0 ∧ mustStall s p o.addr then
    (rngWait s).onPortA fun q => { q with rdata := [], stall := some ⟨o.addr, n, fin, s.time, s.ic.flight.length⟩ }
  else
    let r := burstRead p fast o.addr n o.failed s
    endWords p { o with failed := r.2.1, err := o.err || lateRead s p o.addr n } n fin (drive p r.1 r.2.2)

/-- A READ of `n` words; one that ends in its latency is abandoned. -/
def portReadTx (p : Port) (addr n : Nat) (fin : TxEnd) (fast : Bool) (s : State) : State :=
  if !portUp s p then silentTx p false fin (zeroRead p n s)
  else
    let s0 := portBegin p s
    if !portUp s0 p then silentTx p false fin (zeroRead p n s0)
    else if addr % 4 ≠ 0 then misaligned p false addr n fin (drive p (List.replicate n 0) (portError p 1 addr s0))
    else readRun p { addr := addr, write := false } n fin fast s0

/-- The words of a stalled read once the first is there (R168, R170). -/
def endStall (st : Stall) (first : Nat) (s : State) : State :=
  let s1 := s.onPortA fun q => { q with stall := none }
  let r := burstRead .a false ((st.addr + 4) % 2 ^ 32) (st.count - 1) false s1
  endWords .a { addr := st.addr, write := false, failed := r.2.1 } st.count st.fin (drive .a (first :: r.1) r.2.2)

/-- The stall reaches its limit (R171, R703). -/
def stallLimit (s : State) (st : Stall) : Nat := if st.addr = 0x402000 then cfg s 0x602 else 1

/-- Delivers the sources that a stalled read of IC_SYNC waits for (R352). -/
def deliverAhead (st : Stall) (s : State) : State :=
  (s.ic.flight.take st.ahead).foldl (fun s x => deliver x s) (s.onIc fun i => { i with flight := i.flight.drop st.ahead })

/-- The stall of an RNG read ends with zero and TIMEOUT; that of IC_SYNC once its deliveries are made. -/
def stallTimeout (st : Stall) (s : State) : State :=
  if st.addr = 0x402000 then
    endStall st 0 (s.onPortA fun q => { q with rngTimeout := true })
  else endStall st 1 (deliverAhead st s)

/-! ## Rows of ports and registers -/

/-- A transaction that ends inside its address (R196, R212). -/
def cutAddress (p : Port) (addr : List Byte) (tail : List Bool) (s : State) : State :=
  if !portUp s p then silentTx p false .whole s
  else
    let s0 := portBegin p s
    if !portUp s0 p then s0 else portError p 2 (addrOf addr tail) s0

/-- The transaction that a port holds open, for words that follow without an address. -/
def openTx (s : State) (p : Port) (write : Bool) (addr : List Byte) : Option OpenTx :=
  match (portSt s p).burst with
  | some o => if addr = [] ∧ o.write = write then some o else none
  | none => none

/-- How a write ends: chip select rises inside a word where bytes or bits of one are over. -/
def writeEnd (data : List Byte) (tail : List Bool) (held : Bool) : TxEnd :=
  if data.length % 4 ≠ 0 ∨ tail ≠ [] then .cut else if held then .held else .whole

def closeBurst (p : Port) (s : State) : State := onPort p (fun q => { q with burst := none }) s

/-- Further words of a write that was held open. -/
def writeOn (p : Port) (o : OpenTx) (ws : List Word) (fin : TxEnd) (s : State) : State :=
  if portUp s p then
    match o.kind with
    | .live => writeRun p o ws fin (closeBurst p s)
    | .misaligned => endWords p o ws.length fin (closeBurst p s)
    | .silent | .dead => keepTx p o fin s
  else keepTx p { o with kind := .dead } fin s

/-- Further words of a read that was held open. -/
def readOn (p : Port) (o : OpenTx) (n : Nat) (fin : TxEnd) (fast : Bool) (s : State) : State :=
  let zeros := drive p (List.replicate n 0)
  if portUp s p then
    match o.kind with
    | .live => readRun p o n fin fast (closeBurst p s)
    | .misaligned => endWords p o n fin (zeros (closeBurst p s))
    | .silent => keepTx p o fin (zeros s)
    | .dead => keepTx p o fin s
  else if o.kind = .silent ∧ portServed s p = true then keepTx p o fin (zeros s)
  else keepTx p { o with kind := .dead } fin s

/-- The read that stalls on a port: chip select rises over it, which abandons it, or more words are clocked (R168,
R196). -/
def stallOn (n : Nat) (fin : TxEnd) (st : Stall) (s : State) : State :=
  if fin = .held then s.onPortA fun q => { q with stall := some { st with count := st.count + n } } else portBegin .a s

def execPortWrite (p : Port) (addr data : List Byte) (tail : List Bool) (s : State) (held : Bool := false) :
    Host.Outcome State Fault Refusal :=
  .next <|
    match openTx s p true addr with
    | some o => writeOn p o (wordsOf data) (writeEnd data tail held) s
    | none =>
      if addr.length < 4 then cutAddress p addr tail s
      else portWriteTx p (addrOf addr []) (wordsOf data) (writeEnd data tail held) s

def execPortRead (p : Port) (addr : List Byte) (tail : List Bool) (n : Nat) (s : State) (fin : TxEnd := .whole)
    (fast : Bool := false) : Host.Outcome State Fault Refusal :=
  .next <|
    match openTx s p false addr, p, s.portA.stall, addr with
    | some o, _, _, _ => readOn p o n fin fast s
    | none, .a, some st, [] => stallOn n fin st s
    | none, _, _, _ => if addr.length < 4 then cutAddress p addr tail s else portReadTx p (addrOf addr []) n fin fast s

def execPortReadDataReady (s : State) : Host.Outcome State Fault Refusal :=
  .next <|
    match s.portA.stall with
    | none => s
    | some st =>
      if st.addr = 0x402000 then
        if fenced s 4 then stallTimeout st s
        else match rngTakeWord s with
        | some (w, s1) => endStall st w.toNat s1
        | none => s
      else if st.ahead = 0 ∨ s.ic.flight = [] then endStall st 1 s
      else s

def execPortStallLimit (s : State) : Host.Outcome State Fault Refusal :=
  .next <|
    match s.portA.stall with
    | none => s
    | some st => if st.since + stallLimit s st ≤ s.time then stallTimeout st s else s

def execRngWaitTimeout (s : State) : Host.Outcome State Fault Refusal :=
  .next <|
    match s.portA.stall with
    | none => s
    | some st =>
      if st.addr = 0x402000 ∧ st.since + cfg s 0x602 ≤ s.time then stallTimeout st s else s

/-- A stalled read of RNG_DATA ends once the RNG is fenced (R703). -/
def fencedRead (s : State) : State :=
  match s.portA.stall with
  | none => s
  | some st => if st.addr = 0x402000 ∧ fenced s 4 = true then stallTimeout st s else s

/-- A transaction without data begins and has its effect, if its port answers by then (R209). -/
def beginTx (p : Port) (f : State → State) (s : State) : State :=
  if !portUp s p then silentTx p false .whole s
  else
    let s0 := portBegin p s
    if !portUp s0 p then s0 else f s0

/-- An error inside the command, whose address is 0 (R197). -/
def beginError (p : Port) (code : Nat) (s : State) : State := beginTx p (portError p code 0) s

/-- The command phase of a transaction, `part` where bits of a further byte were received: cut short it is TRUNC, and
unknown it is BAD_CMD (R163, R196, R211). A command that R163 lists is no business of this row. -/
def execPortBadCommand (p : Port) (s : State) (cmd : List Byte := [0]) (part : Bool := false) :
    Host.Outcome State Fault Refusal :=
  .next <|
    let ext := hasExtension s p
    let phase := cmd.take (1 + b2n ext)
    if cmd == [] && !part then s
    else if phase.length < 1 + b2n ext then beginError p 2 s
    else match portCommand ext phase with
      | none => beginError p 3 s
      | some _ => s

/-- R6, R161. The row happens only at an address the map marks reserved. -/
def execReservedAccess (p : Port) (addr : Nat) (write : Bool) (s : State) :
    Host.Outcome State Fault Refusal :=
  .next <|
    if accessKind s p write addr 0 = some 0 then
      if write then portWriteTx p addr [0] .whole s else portReadTx p addr 1 .whole false s
    else s

/-- R205: at least 16 rising edges reset the port; fewer are TRUNC; none are no transaction. -/
def execPortResetSequence (p : Port) (edges : Nat) (s : State) : Host.Outcome State Fault Refusal :=
  .next <|
    if edges = 0 then s
    else if 16 ≤ edges then beginTx p (resetPort p) s
    else beginError p 2 s

def execPortReset (p : Port) (v : Word) (s : State) : Host.Outcome State Fault Refusal :=
  .next (portWriteTx p 0x400040 [v] .whole s)

def execPaCfgWrite (p : Port) (v : Word) (s : State) : Host.Outcome State Fault Refusal :=
  .next (portWriteTx p 0x400020 [v] .whole s)

def execPortErrRead (p which : Port) (s : State) : Host.Outcome State Fault Refusal :=
  .next (portReadTx p (match which with | .a => 0x400024 | .b => 0x400030) 1 .whole false s)

def execTimeLoRead (p : Port) (s : State) : Host.Outcome State Fault Refusal :=
  .next (portReadTx p 0x400018 1 .whole false s)

def pageAddr (n off : Nat) : Nat := 0x408000 + 0x400 * n + off

def execCmdProdWrite (p : Port) (n : Nat) (v : Word) (s : State) : Host.Outcome State Fault Refusal :=
  .next (portWriteTx p (pageAddr n 0) [v] .whole s)

def execRplConsWrite (p : Port) (n : Nat) (v : Word) (s : State) : Host.Outcome State Fault Refusal :=
  .next (portWriteTx p (pageAddr n 0xC) [v] .whole s)

def execEvtConsWrite (p : Port) (n : Nat) (v : Word) (s : State) : Host.Outcome State Fault Refusal :=
  .next (portWriteTx p (pageAddr n 0x14) [v] .whole s)

def execRegisterWrite (p : Port) (addr : Nat) (v : Word) (s : State) : Host.Outcome State Fault Refusal :=
  .next (portWriteTx p addr [v] .whole s)

/-! ### Recovery -/

def execRecStage (s : State) : Host.Outcome State Fault Refusal :=
  .next (portWriteTx .b 0x400F04 [1] .whole s)

def execRecVerify (s : State) : Host.Outcome State Fault Refusal :=
  .next (portWriteTx .b 0x400F04 [2] .whole s)

def execRecActivate (s : State) : Host.Outcome State Fault Refusal :=
  .next (portWriteTx .b 0x400F04 [3] .whole s)

/-! ### Interrupt controller registers -/

def execIcDoorbellWrite (p : Port) (v : Word) (s : State) : Host.Outcome State Fault Refusal :=
  .next (portWriteTx p icBase [v] .whole s)

/-- IC_SETCLR with REG and VALUE as the row says (R347). -/
def setclrWord (v : Word) (reg value : Bool) : Word :=
  BitVec.ofNat 32 (bits v.toNat 7 0 + 2 ^ 8 * b2n reg + 2 ^ 9 * b2n value + 2 ^ 10 * bits v.toNat 31 10)

def execSetclrSetPending (p : Port) (v : Word) (s : State) : Host.Outcome State Fault Refusal :=
  .next (portWriteTx p (icBase + 4) [setclrWord v false true] .whole s)

def execSetclrClearPending (p : Port) (v : Word) (s : State) : Host.Outcome State Fault Refusal :=
  .next (portWriteTx p (icBase + 4) [setclrWord v false false] .whole s)

def execSetclrSetMask (p : Port) (v : Word) (s : State) : Host.Outcome State Fault Refusal :=
  .next (portWriteTx p (icBase + 4) [setclrWord v true true] .whole s)

def execSetclrClearMask (p : Port) (v : Word) (s : State) : Host.Outcome State Fault Refusal :=
  .next (portWriteTx p (icBase + 4) [setclrWord v true false] .whole s)

def execIcPendWrite (p : Port) (i : Nat) (v : Word) (s : State) : Host.Outcome State Fault Refusal :=
  .next (portWriteTx p (icBase + 0x10 + 4 * i) [v] .whole s)

def execIcMaskWrite (p : Port) (i : Nat) (v : Word) (s : State) : Host.Outcome State Fault Refusal :=
  .next (portWriteTx p (icBase + 0x20 + 4 * i) [v] .whole s)

def execIcSrcWrite (p : Port) (src : Nat) (v : Word) (s : State) : Host.Outcome State Fault Refusal :=
  .next (portWriteTx p (icBase + 0x200 + 4 * src) [v] .whole s)

/-- R352: the read waits for every delivery on its way, or, too fast on port B, returns DONE = 0. -/
def execIcSyncRead (p : Port) (fast : Bool) (s : State) : Host.Outcome State Fault Refusal :=
  .next <|
    if portUp s p then
      let s0 := portBegin p s
      if portUp s0 p && (accessKind s0 p false (icBase + 8) 0).isNone then
        let r := icSync p fast s0
        drive p [r.1] r.2
      else portReadTx p (icBase + 8) 1 .whole fast s0
    else zeroRead p 1 s

def execIcStatusRead (p : Port) (s : State) : Host.Outcome State Fault Refusal :=
  .next (portReadTx p (icBase + 0xC) 1 .whole false s)

def execIcEvtdropRead (p : Port) (n : Nat) (s : State) : Host.Outcome State Fault Refusal :=
  .next (portReadTx p (icBase + 0x40 + 4 * n) 1 .whole false s)

def execIcClaimRead (p : Port) (t : Nat) (s : State) : Host.Outcome State Fault Refusal :=
  .next (portReadTx p (icBase + 0x84 + 0x10 * t) 1 .whole false s)

def execIcEoiWrite (p : Port) (t : Nat) (v : Word) (s : State) : Host.Outcome State Fault Refusal :=
  .next (portWriteTx p (icBase + 0x88 + 0x10 * t) [v] .whole s)

def execIcTstatRead (p : Port) (t : Nat) (s : State) : Host.Outcome State Fault Refusal :=
  .next (portReadTx p (icBase + 0x8C + 0x10 * t) 1 .whole false s)

def execRngDataRead (p : Port) (s : State) : Host.Outcome State Fault Refusal :=
  .next (portReadTx p 0x402000 1 .whole false s)

def execRngStatRead (p : Port) (s : State) : Host.Outcome State Fault Refusal :=
  .next (portReadTx p 0x402004 1 .whole false s)

end Sys2Proof.Machine
end

