-- ==== Sys2Proof/Machine/NvRows.lean ====
section
/-! DEFINITION. What the NV controller does when a program or an erase ends, background erases, the
firmware opcodes and the confirmation of a bank on trial (R127–R159, R864), and commits of fault log records
(R779–R782). -/

namespace Sys2Proof.Machine

open Sys2Proof

/-! ## Ends of commits -/

/-- The bank that is not running (R150). -/
def otherBank (s : State) : Bool := !s.fw.bankB

/-- Pre-erase of the bank that has become the older one (R133), its commit words first; a blank bank needs
none. -/
def preEraseFw (b : Bool) (s : State) : State :=
  let k := bankOf s b
  if k.dirty = [] ∧ k.act = .erased ∧ k.conf = .erased then s
  else s.onNv fun n => { n with bg := n.bg ++ [.fwBank b (95 :: List.range 95)] }

/-- Pre-erase of the user calibration bank that has become the older one (R133). -/
def preEraseCal (b : Bool) (s : State) : State :=
  if calRec s b = .erased then s
  else s.onNv fun n => { n with bg := n.bg ++ [.calBank b 4] }

/-- The trials of a bank are over (R147). -/
def clearTrials (b : Bool) (a : Aon) : Aon := if b then { a with trialsB := 0 } else { a with trials := 0 }

/-- Pool sectors that hold dead pages only are erased in the background (R726). -/
def queueDeadSectors (s : State) : State :=
  s.onNv fun n =>
    { n with bg := n.bg ++ ((List.range 10).filter fun k =>
        (sectorPages k).all (fun p => poolPage s p == .dead) && !n.bg.contains (.keyPool k)).map .keyPool }

/-- The ring has reached its erased sector: the oldest one makes room (R782). -/
def queueLogErase (s : State) : State :=
  if 960 < s.nv.log.length ∧ BgErase.faultLog ∉ s.nv.bg then s.onNv fun n => { n with bg := n.bg ++ [.faultLog] }
  else s

/-- The counter advance that goes with a confirmation, where the value rises (R144, R145): a record in the next area
that reads erased; with none left it fails as R137 says (log 177). The older bank is erased after it. -/
def advanceArc (v : Nat) (s : State) : State :=
  if v ≤ s.nv.arc then preEraseFw (!s.fw.bankB) s
  else match arcArea s.nv with
    | some area => nvAhead (nvJob (.counter area v) none (pageOf (.counter area v)) 0) s
    | none => raise 9 (pageOf (.counter 0 v)) (preEraseFw (!s.fw.bankB) s)

def nextDefaultsSeq (s : State) : Nat := ((storedSet s).map (·.1 + 1)).getD 1

/-- What is in force once a record has its commit word. -/
def recordDone (j : NvJob) (s : State) : State :=
  match j.kind with
  | .calStore b d =>
    preEraseCal (!b) (s.onNv fun n =>
      if b then { n with calB := .valid d, calNewer := some b } else { n with calA := .valid d, calNewer := some b })
  | .charter c => resumeTransmission (charterCommitted c s)
  | .sealCharter g => sealCommitted g s
  | .keyRecord slot sh => queueDeadSectors (recordCommitted slot sh s)
  | .keyCopy slot src dst live => copyDone slot src dst live s
  | .keyMove slot src dst => moveDone slot src dst s
  | .keyActivate slot sh => queueDeadSectors (keyFlip slot sh s)
  | .keyDestroy slot => queueDeadSectors (keyGone slot s)
  | .keyUse slot v c => onSlot slot (fun x => if x.version = v then { x with ceiling := c } else x) s
  | .keyRoll i => rollDone i s
  | .defaults vs =>
    let q := nextDefaultsSeq s
    s.onNv fun n => if j.page = 0xE10 then { n with defB := .valid (q, vs) } else { n with defA := .valid (q, vs) }
  | .fwAct b q =>
    ((onBank b (fun k => { k with act := .valid q }) s).onFw fun f => { f with activateAt := some (s.time + 1000) }).onAon
      (clearTrials b)
  | .fwConfirm b v =>
    advanceArc v (((onBank b (fun k => { k with conf := .valid v }) s).onFw fun f => { f with onTrial := false }).onAon
      (clearTrials b))
  | .counter area v => preEraseFw (!s.fw.bankB) (s.onNv fun n => { n with arcs := modAt n.arcs area fun _ => .valid v })
  | .log r =>
    queueLogErase ((s.onNv fun n => { n with log := modAt n.log (n.log.length - 1) fun _ => some r }).onContain fun c =>
      { c with queue := c.queue.drop 1 })
  | .fwBlock .. | .breakCharter | .keySector _ => s

/-- What a failed commit leaves (R137). A counter whose advance fails stays as it is, and its bank confirmed (log 211).
-/
def recordLost (j : NvJob) (s : State) : State :=
  match j.kind with
  | .charter _ => resumeTransmission (charterLost true s)
  | .keyRecord slot _ => queueDeadSectors (recordFailed slot s)
  | .keyActivate slot sh => queueDeadSectors (flipLost slot sh s)
  | .keyRoll _ => s.onNv rollLost
  | .fwConfirm .. => s.onFw fun f => { f with confirmFailed := true }
  | .counter .. => preEraseFw (!s.fw.bankB) s
  | .log _ => queueLogErase s
  | _ => s

/-- The opcodes that complete with source 8 raise it with their reply. -/
def completesWith8 (s : State) (p : Packet) : Bool :=
  match completionOf s p with
  | .own 8 _ => true
  | _ => false

/-- The packet that waits for a job. -/
def jobPacket (j : NvJob) (s : State) : Option (LaneId × Exec) :=
  j.lane.bind fun l => (execOf s l).map fun e => (l, e)

/-- Recovery service shows the end of its command (R153). -/
def recDone (status : Nat) (s : State) : State :=
  if s.pwr.state = .recovery then setRec false (recVerdict s) status s else s

/-- The body of a reply that reports a commit's failure. -/
def failBody (j : NvJob) (e : Exec) : List Byte :=
  match j.kind with
  | .defaults _ => e.partialBody
  | .charter _ => charterWriteBody 0 0
  | _ => []

/-- The further jobs of a lane's packet are given up. -/
def dropJobs (l : LaneId) (s : State) : State :=
  s.onNv fun n => { n with jobs := n.jobs.filter fun j => j.lane != some l }

/-- A job ends with 0x60 or 0x61. -/
def jobFail (status : Nat) (j : NvJob) (s : State) : State :=
  match jobPacket j s with
  | some (l, e) => finish l status (failBody j e) none (dropJobs l s)
  | none => recDone status s

/-- The gate was closed to a job whose turn had come: NV is as the erase before it, if any, has left it (R47, R528). -/
def jobRefused (j : NvJob) (s : State) : State :=
  jobFail 0x60 j (match j.kind with
    | .charter _ => resumeTransmission (charterLost false s)
    | .fwConfirm .. => s.onFw fun f => { f with confirmAt := s.time + 10000 }
    | _ => s)

/-- The next job that waited starts, or meets a closed gate (R128). -/
def nextJob : Nat → State → State
  | 0, s => s
  | k + 1, s =>
    match s.nv.jobs with
    | [] => s
    | j :: rest =>
      let s1 := s.onNv fun n => { n with jobs := rest }
      match j.stage with
      | .erase _ => takeJob j s1
      | _ => if j.begun || mayBegin s1 j.kind then takeJob j s1 else nextJob k (jobRefused j s1)

def clearJob (s : State) : State := s.onNv fun n => { n with job := none }

def advanceJobs (s : State) : State := nextJob s.nv.jobs.length s

/-- A use that waited for its USE entry goes on. -/
def afterUse (j : NvJob) (s : State) : State :=
  match j.kind, jobPacket j s with
  | .keyUse .., some (_, e) =>
    match e.phase with
    | .cipherUse key => cipherGo e key s
    | .stageUse => stageGo e s
    | _ => s
  | _, _ => s

/-- Whether the job's end is the end of its packet. -/
def endsPacket (j : NvJob) : Bool :=
  match j.kind with
  | .keyUse .. | .keyCopy .. | .keyMove .. | .keySector _ => false
  | _ => true

/-- The status that a commit gives its packet: its own where it became durable in time (R287). -/
def doneStatus (s : State) (e : Exec) : Nat :=
  if expired s e.pkt then 0x15
  else match e.phase with
    | .nv st => st
    | _ => 0

/-- The packet that has waited for a job is answered with its end. -/
def jobReply (l : LaneId) (e : Exec) (own : Option Nat) (s : State) : State :=
  let st := doneStatus s e
  finish l st (if st = 0x15 then [] else e.partialBody) own s

/-- The commit word is in place, or the block staged (R138, R152). -/
def jobDone (j : NvJob) (s : State) : State :=
  let s1 := recordDone j ((clearJob s).onNv (keyCommitted j))
  let own := match jobPacket j s1 with
    | some (_, e) => completesWith8 s1 e.pkt
    | none => false
  let s2 := if hasCommit j.kind && !own then raise 8 j.page s1 else s1
  let s3 := match jobPacket j s2 with
    | some (l, e) => if endsPacket j then jobReply l e (if own then some j.page else none) s2 else s2
    | none => recDone 0 s2
  afterUse j (advanceJobs s3)

/-- The entries of a packet that wait for a new sector of the key log which is not to be had. -/
def rollWaiter (s : State) : Option NvJob :=
  if s.nv.keyLogFree = 0 then s.nv.jobs.find? fun k => takesEntry k.kind && k.lane.isSome else none

/-- A read-back mismatch: source 9, 0x61, no commit word. One in a new sector of the key log ends the key command whose
entry has no other place (R137, R864). -/
def jobMismatch (j : NvJob) (s : State) : State :=
  let s1 := jobFail 0x61 j (raise 9 j.page (recordLost j (clearJob s)))
  advanceJobs (match j.kind, rollWaiter s1 with
    | .keyRoll _, some k => jobFail 0x61 k s1
    | _, _ => s1)

/-! ## Yield points between the operations of a job (R281, R282, R286) -/

/-- A commit in progress, begun and without its commit word. -/
def commits (j : NvJob) : Bool :=
  j.begun && hasCommit j.kind && (match j.stage with
    | .erase _ => false
    | _ => true)

/-- What a packet that stops leaves of its jobs: the one in progress ends without a commit word, but goes on without its
packet where a fence is what stops that (R120, R752). -/
def stopJobs (l : LaneId) (st : Nat) (s : State) : State :=
  let s1 := dropJobs l s
  match s1.nv.job with
  | none => s1
  | some j =>
    if j.lane ≠ some l then s1
    else if st = 0x13 ∧ commits j = true then s1.onNv fun n => { n with job := some { j with lane := none } }
    else recordLost j (clearJob s1)

/-- The jobs that a suspended packet has had kept apart are given up, as in `stopJobs`. -/
def forsakeJobs (id st : Nat) (s : State) : State :=
  let mine := (s.nv.held.filter fun h => h.1 == id && h.2.begun).map (·.2)
  let goOn := mine.filter fun j => st == 0x13 && commits j
  (mine.filter fun j => !(st == 0x13 && commits j)).foldl (fun s j => recordLost j s)
    (s.onNv fun n =>
      { n with
        held := n.held.filter fun h => h.1 != id
        jobs := goOn.map (fun j => { j with lane := none }) ++ n.jobs })

/-- What an NV command that stops leaves: transmission goes on with its reply (R526). -/
def stopNv (l : LaneId) (st : Nat) (e : Exec) (s : State) : State :=
  let s1 := forsakeJobs e.pkt.id st (stopJobs l st s)
  if e.pkt.opcode = 0x0107 ∨ e.pkt.opcode = 0x0109 then resumeTransmission s1 else s1

/-- The jobs of a packet that is suspended are kept apart until it goes on. -/
def holdJobs (l : LaneId) (id : Nat) (s : State) : State :=
  s.onNv fun n =>
    let mine := (n.job.toList ++ n.jobs).filter fun j => j.lane == some l
    { n with
      job := n.job.filter fun j => j.lane != some l
      jobs := n.jobs.filter fun j => j.lane != some l
      held := n.held ++ mine.map fun j => (id, j) }

/-- Waiting jobs start while the controller is idle. -/
def wakeJobs (s : State) : State := if s.nv.job.isSome then s else advanceJobs s

/-- The jobs of a packet that goes on come before those that wait. -/
def resumeJobs (id : Nat) (s : State) : State :=
  wakeJobs (s.onNv fun n =>
    { n with
      jobs := (n.held.filter fun h => h.1 == id).map (·.2) ++ n.jobs
      held := n.held.filter fun h => h.1 != id })

/-- Suspends the packet: it goes back into the round robin as its tenant's eligible packet (R281). -/
def suspendHere (l : LaneId) (e : Exec) (s : State) : State :=
  wakeJobs (holdJobs l e.pkt.id
    (onLane l (fun x => { x with exec := none, susp := x.susp ++ [{ e with suspended := true, sliceOver := false }] }) s))

/-- Between two operations of a job its packet stops where it must, or is suspended where another one waits. -/
def jobYield (j : NvJob) (s : State) : State :=
  match jobPacket j s with
  | none => s
  | some (l, e) =>
    match stopDue s e with
    | some st => wakeJobs (finish l st [] none (stopNv l st e s))
    | none => if e.sliceOver && otherEligible s l e.pkt.tenant then suspendHere l e s else s

/-! ## NV_PROGRAM_DONE -/

/-- Programs a byte; where one stands already with another value, what results is free. -/
def progByte (s : State) (m : List Host.Cell) (a : Nat) (v : Byte) : List Host.Cell :=
  match m.find? fun c => c.1 == a with
  | some c => if c.2 = v then m else bankPut m a (BitVec.ofNat 8 (Config.freeNat (s.free + a % 256)))
  | none => bankPut m a v

/-- Programs page `i` of a block. -/
def progPage (b : Bool) (off i : Nat) (bytes : List Byte) (s : State) : State :=
  let page := (bytes.drop (256 * i)).take 256
  let put := fun (k : FwBank) =>
    { k with
      shipped := false, dirty := if k.dirty.contains (off / 4096) then k.dirty else off / 4096 :: k.dirty
      mem := (page.mapIdx fun x v => (off + 256 * i + x, v)).foldl (fun m c => progByte s m c.1 c.2) k.mem }
  (onBank b put s).onFree (· + 256)

/-- What one page program of the body leaves. -/
def programmed (j : NvJob) (left : Nat) (s : State) : State :=
  match j.kind with
  | .fwBlock b off bytes => progPage b off (bytes.length / 256 - left) bytes s
  | .charter c => s.onNv fun n => { n with charterBytes := (charterBody c).take (256 * (16 - left)) }
  | .sealCharter g => s.onNv fun n => { n with sealBytes := sealBody g }
  | _ => s.onNv (keyProgrammed j)

def setStage (g : JobStage) (s : State) : State :=
  s.onNv fun n => { n with job := n.job.map fun j => { j with stage := g } }

/-- The read-back of step 5: corrected chunks count in NV_CE; one that reads uncorrectable counts in NV_UE, with a
record of kind 7, and is a mismatch (R137, R771, R772). -/
def readBack (j : NvJob) (mismatch uncorrectable : Bool) (corrected : Nat) (s : State) : State :=
  let s1 := ctrAdd 3 corrected s
  if uncorrectable then jobMismatch j (logRecord 7 0xFF 0xFF 0 (j.page * 256) (ctrAdd 4 1 s1))
  else if mismatch then jobMismatch j s1
  else jobYield j (setStage .commit s1)

def nvProgramDone (mismatch uncorrectable : Bool) (corrected : Nat) (j : NvJob) (s : State) : State :=
  match j.stage with
  | .erase _ => s
  | .commit => jobDone j s
  | .body left =>
    let s1 := programmed j left s
    if 1 < left then jobYield j (setStage (.body (left - 1)) s1)
    else if !hasCommit j.kind then jobDone j s1
    else readBack j mismatch uncorrectable corrected s1

/-- NV runs while firmware or the boot ROM does. -/
def nvAwake (s : State) : Bool := inService s || s.pwr.state == .recovery

def execNvProgramDone (mismatch uncorrectable : Bool) (corrected : Nat) (s : State) : Host.Outcome State Fault Refusal :=
  .next <|
    if !nvAwake s then s
    else match s.nv.job with
      | some j => nvProgramDone mismatch uncorrectable corrected j s
      | none => s

/-! ## NV_ERASE_DONE -/

/-- What a job's sector erase leaves. -/
def jobErased (j : NvJob) (left : Nat) (s : State) : State :=
  match j.kind with
  | .charter _ => charterErased s
  | .breakCharter => breakErased left s
  | .calStore b _ =>
    if left = 1 then s.onNv fun n => if b then { n with calB := .erased } else { n with calA := .erased }
    else s.onNv fun n => if b then { n with calB := .torn } else { n with calA := .torn }
  | .defaults _ =>
    let r := if left = 1 then NvRec.erased else NvRec.torn
    s.onNv fun n => if j.page = 0xE10 then { n with defB := r } else { n with defA := r }
  | .fwBlock b off _ => onBank b (eraseSector (off / 4096)) s
  | .keySector k => (erasePoolSector k s).onNv fun n => { n with bg := n.bg.filter (· != .keyPool k) }
  | _ => s

/-- The body of a job whose erases are done. -/
def startBody (j : NvJob) (s : State) : State := takeJob { j with stage := .body (bodyPages j.kind) } s

/-- After the last erase the gate applies (R129, R135, R523, R864). -/
def eraseFinished (j : NvJob) (s : State) : State :=
  match j.kind with
  | .breakCharter | .keySector _ => jobDone j s
  | k =>
    if gateOk s k then startBody j s
    else advanceJobs (jobRefused j (clearJob s))

def jobEraseDone (j : NvJob) (left : Nat) (s : State) : State :=
  let s1 := jobErased j left s
  if 1 < left then jobYield j (setStage (.erase (left - 1)) s1) else jobYield j (eraseFinished j s1)

/-- A KEY_STAGE that waited for the erase of a log without a header goes on (R731). -/
def keyEraseOver (s : State) : State :=
  match s.houseLane.exec with
  | some e => if e.phase = .keyErase then stageUse e s else s
  | none => s

/-- An erase of the key region, to which a fenced key store has no access (R747). -/
def inKeyRegion : BgErase → Bool
  | .keyLog _ | .keyPool _ => true
  | _ => false

/-- The background erase that runs: the first that became due, of those that may (R134; log 180). -/
def bgNow (s : State) : Option BgErase := s.nv.bg.find? fun e => !(fenced s 6 && inKeyRegion e)

/-- A background erase gives way to what is left of it. -/
def bgPut (e : BgErase) (r : List BgErase) (n : Nv) : Nv :=
  { n with bg := n.bg.takeWhile (· != e) ++ r ++ (n.bg.dropWhile (· != e)).drop 1 }

/-- The erase that runs in the background has started: it takes the sector with the bank's commit word first, so that
the bank is invalid from here on (R133). -/
def bgStart (s : State) : State :=
  if s.nv.job.isSome || s.pwr.entry.isSome then s
  else match bgNow s with
    | some (.calBank b _) => if calRec s b = .torn then s else s.onNv fun n => if b then { n with calB := .torn } else { n with calA := .torn }
    | some (.fwBank b (95 :: _)) => if (bankOf s b).act = .torn then s else onBank b (fun k => { k with act := .torn }) s
    | _ => s

/-- The background erase that runs ends one sector. -/
def bgErased (s : State) : State :=
  match bgNow s with
  | none => s
  | some e => match e with
    | .calBank b left =>
      if 1 < left then s.onNv (bgPut e [.calBank b (left - 1)])
      else s.onNv fun n => let n1 := bgPut e [] n; if b then { n1 with calB := .erased } else { n1 with calA := .erased }
    | .fwBank b (k :: ks) => (onBank b (eraseSector k) s).onNv (bgPut e (if ks = [] then [] else [.fwBank b ks]))
    | .fwBank _ [] => s.onNv (bgPut e [])
    | .keyLog [] => s.onNv (bgPut e [])
    | .keyLog (k :: ks) =>
      let s1 := s.onNv (eraseLogSector k)
      if ks ≠ [] then s1.onNv (bgPut e [.keyLog ks])
      else keyEraseOver (s1.onNv fun n =>
        { bgPut e [] n with keyLog := if n.keyLog = .noHeader then .erased else n.keyLog })
    | .keyPool k => erasePoolSector k (s.onNv (bgPut e []))
    | .faultLog => s.onNv fun n => { bgPut e [] n with log := n.log.drop 64 }

/-- A commit in progress suspends a background erase (R134), entry to a low-power state stops it (R71). -/
def execNvEraseDone (s : State) : Host.Outcome State Fault Refusal :=
  .next <|
    if !nvAwake s then s
    else match s.nv.job with
      | some j =>
        match j.stage with
        | .erase left => jobEraseDone j left s
        | _ => s
      | none => if s.pwr.entry.isSome then s else bgStart (bgErased (bgStart s))

/-! ## FW_STAGE_BLOCK, FW_VERIFY, FW_ACTIVATE (R149–R152, R156–R159) -/

/-- A block turned away with 0x11 or 0x60 has not run, and the last verdict stands (R151; log 179). -/
def fwStageBlock (e : Exec) (s : State) : State :=
  let off := Packet32 e.pkt 0
  let len := Packet32 e.pkt 4
  let b := otherBank s
  if !stageRangeOk off len then finish .house 0x11 [] none s
  else
    match nvSubmit (stageJob s b off (poundRead s e.pkt.tenant (Packet32 e.pkt 8) len) (some .house)) s with
    | none => finish .house 0x60 [] none s
    | some s1 => setPhase .house (.nv 0) ((dropAwaited b (off / 4096) s1).onFw fun f => { f with verified := false })

def execFwStageBlock (s : State) : Host.Outcome State Fault Refusal :=
  .next (onFresh .house 0x0900 fwStageBlock s)

def fwVerify (ecc : EccRead) (_ : Exec) (s0 : State) : State :=
  let lo := if otherBank s0 then 0x60000 else 0
  let s := eccRead lo (lo + 0x5FE00) ecc s0
  let k := bankOf s (otherBank s)
  finish .house 0 (fwVerifyBody s k) none (s.onFw fun f => { f with verified := fwVerdict s k == 0 })

def execFwVerify (s : State) (ecc : EccRead := {}) : Host.Outcome State Fault Refusal :=
  .next (onFresh .house 0x0901 (fwVerify ecc) s)

/-- The activation sequence of a bank. -/
def actSeq (s : State) (b : Bool) : Nat :=
  match (bankOf s b).act with
  | .valid q => q
  | _ => 0

def fwActivate (_ : Exec) (s : State) : State :=
  let b := otherBank s
  let k : JobKind := .fwAct b ((actSeq s s.fw.bankB + 1) % 2 ^ 32)
  if !s.fw.verified then finish .house 0x23 [] none s
  else if (bankOf s b).act ≠ .erased then finish .house 0x61 [] none (raise 9 (pageOf k) s)
  else
    match nvSubmit (nvJob k (some .house) (pageOf k) 0) s with
    | none => finish .house 0x60 [] none s
    | some s1 => setPhase .house (.nv 0) s1

def execFwActivate (s : State) : Host.Outcome State Fault Refusal :=
  .next (onFresh .house 0x0902 fwActivate s)

/-! ## Confirmation of a bank on trial (R144–R146, R864) -/

def confirmRuns (s : State) : Bool :=
  (s.nv.job.toList ++ s.nv.jobs).any fun j => match j.kind with
    | .fwConfirm .. => true
    | _ => false

/-- Firmware tries to confirm the running bank; a closed gate leaves it on trial for another 10 ms (R146). -/
def confirmTry (s : State) : State :=
  let k : JobKind := .fwConfirm s.fw.bankB s.fw.secver
  if !s.fw.onTrial || s.fw.confirmFailed || confirmRuns s then s
  else if (bankOf s s.fw.bankB).conf ≠ .erased then
    raise 9 (pageOf k) (s.onFw fun f => { f with confirmFailed := true })
  else (nvSubmit (nvJob k none (pageOf k) 0) s).getD (s.onFw fun f => { f with confirmAt := s.time + 10000 })

def execFwConfirmRetry (s : State) : Host.Outcome State Fault Refusal :=
  .next (if s.pwr.state = .run ∧ s.fw.booted = true ∧ s.fw.confirmAt ≤ s.time then confirmTry s else s)

/-! ## FAULT_LOG_COMMIT (R781) -/

def logRuns (s : State) : Bool :=
  (s.nv.job.toList ++ s.nv.jobs).any fun j => match j.kind with
    | .log _ => true
    | _ => false

/-- The next area of the ring reads erased (R129, R864). Areas are used in order, those left by torn records too. -/
def logAreaFree (s : State) : Bool := decide (s.nv.log.length < 1024)

def execFaultLogCommit (s : State) : Host.Outcome State Fault Refusal :=
  .next <|
    if s.pwr.state ≠ .run ∨ logRuns s = true ∨ logAreaFree s = false then s
    else match s.contain.queue with
      | [] => s
      | r :: _ => (nvSubmit (nvJob (.log r) none (0xE90 + s.nv.logPos / 4) 0) s).getD s

end Sys2Proof.Machine
end

