-- ==== Sys2Proof/Machine/Emulation.lean ====
section
/-! DEFINITION. Card emulation: EMU_CONFIGURE, EMU_ARM, EMU_RESPOND, EMU_DISARM, the frames of a reader
and the waiting-time extension (R640–R652, R670–R675). -/

namespace Sys2Proof.Machine

open Sys2Proof

/-! ## EMU_CONFIGURE (R672) -/

/-- FWI of an ATS: the upper half of TB(1) where the format byte announces it, else 4. -/
def atsFwi (ats : List Byte) : Nat :=
  let t0 := (nth ats 1 0).toNat
  let i := if bit t0 4 then 3 else 2
  if ats.length < 2 ∨ bit t0 5 = false ∨ ats.length ≤ i then 4
  else
    let w := (nth ats i 0).toNat / 16
    if w = 15 then 4 else w

/-- UID bytes of a UID mode. -/
def uidLen (mode : Nat) : Nat := nth [4, 7, 10, 0, 0] mode 0

def emuParamsOk (p : Packet) : Bool :=
  let b := Packet8 p
  decide (b 0 ≤ 4) && decide (b 1 ≤ 3) && bit (b 4) 5 && decide (2 ≤ b 5) && decide (b 5 ≤ 20)
    && ((p.params.drop (8 + uidLen (b 0))).take (10 - uidLen (b 0))).all (· == 0)

def emuConfigure (e : Exec) (s : State) : State :=
  let p := e.pkt
  if !emuParamsOk p then finish .hf 0x11 [] none s
  else if s.emu.armed then finish .hf 0x23 [] none s
  else
    let ats := poundRead s p.tenant (Packet32 p 20) (Packet8 p 5)
    let prof : EmuProfile :=
      { uidMode := Packet8 p 0, maxRate := Packet8 p 1, atqa := BitVec.ofNat 16 (Packet16 p 2)
        sak := BitVec.ofNat 8 (Packet8 p 4), ats := ats, uid := (p.params.drop 8).take (uidLen (Packet8 p 0))
        cmdOff := Packet32 p 24, rspOff := Packet32 p 28, fwi := atsFwi ats }
    finish .hf 0 [] none (s.onEmu fun _ => { Emu.reset with profile := some prof, owner := p.tenant })

def execEmuConfigure (s : State) : Host.Outcome State Fault Refusal :=
  .next (onLeased .hf 0x0500 emuConfigure s)

/-! ## EMU_ARM (R640, R644, R652, R673) -/

/-- A UID drawn for a field or an arm. -/
def drawnUid (ws : List Half) : List Byte := 0x08 :: (halfBytes ws).take 3

/-- The card leaves OFF: mode 4 draws its UID; without one the card stays in OFF with code 4 (R650). -/
def emuField (s : State) : State :=
  match s.emu.profile with
  | none => s
  | some p =>
    if !s.emu.armed || s.emu.state != 0 then s
    else if p.uidMode ≠ 4 then s.onEmu fun m => { m with state := 1, star := false }
    else if fenced s 4 then raise 42 4 s
    else match rngDraw1 2 s with
      | some (ws, s1) => s1.onEmu fun m => { m with state := 1, star := false, uid := drawnUid ws }
      | none => raise 42 4 s

/-- The chain is in LISTEN as the card. A field that the chain in LISTEN has seen already takes the card out of OFF
(R641, R642). -/
def emuListen (uid : List Byte) (s : State) : State :=
  let seen := s.hf.radio == .listen && s.hf.ext
  let s1 := (s.onEmu fun m => { Emu.reset with profile := m.profile, owner := m.owner, armed := true, uid := uid }).onHf
    fun h => { h with radio := .listen, ext := seen, sof := false }
  if seen then emuField s1 else s1

/-- Mode 3 draws its UID, and may have to wait for it (R696). -/
def armDraw (since : Nat) (s : State) : State :=
  match rngDraw1 2 s with
  | some (ws, s1) => finish .hf 0 (drawnUid ws) none (emuListen (drawnUid ws) s1)
  | none => rngWait (setPhase .hf (.draw since) s)

/-- The profile that a tenant has stored. -/
def profileOf (s : State) (n : Nat) : Option EmuProfile := if s.emu.owner = n then s.emu.profile else none

def emuArm (e : Exec) (s : State) : State :=
  match profileOf s e.pkt.tenant with
  | none => finish .hf 0x23 [] none s
  | some p =>
    if hfEmits s || s.peer.isSome || s.emu.armed then finish .hf 0x23 [] none s
    else if p.uidMode = 3 then (if fenced s 4 then finish .hf 0x13 [] none s else armDraw s.time s)
    else finish .hf 0 (le 4 0) none (emuListen p.uid s)

def execEmuArm (s : State) : Host.Outcome State Fault Refusal :=
  .next (onLeased .hf 0x0501 emuArm s)

/-! ## The reader's field (R396, R642, R644) -/

/-- The EMU_RESPOND in execution ends without its response sent. -/
def emuRespondBody (s : State) : List Byte := le 2 s.emu.blocks ++ le 1 (min 255 s.emu.wtx) ++ le 1 0

def emuRespondLost (s : State) : State :=
  match s.hfLane.exec with
  | some e => if e.phase = .emuRespond then finish .hf 0x23 (emuRespondBody s) none s else s
  | none => s

/-- The field is lost: OFF from any state, and an APDU that awaits its response is gone. -/
def emuFieldLost (s : State) : State :=
  if !s.emu.armed || s.emu.state == 0 then s
  else
    emuRespondLost (raise 28 2 ((s.onEmu fun m =>
      { Emu.reset with profile := m.profile, owner := m.owner, armed := true, uid := m.uid, blocks := m.blocks, wtx := m.wtx }).onHf
        fun h => { h with tx := none }))

/-! ## Frames of the reader (R641, R645, R647–R649) -/

/-- The card answers by load modulation (R643): no grant, no mask check. -/
def emuSend (f : HfFrame) (s : State) : State :=
  (s.onHf fun h => { h with tx := some f, sent := some f }).onEmu fun m => { m with last := some f }

/-- A card reached through WUPA from HALT returns to HALT on an error, any other to IDLE. -/
def emuError (s : State) : State := s.onEmu fun m => { m with state := if m.star then 4 else 1 }

/-- The moment of the next waiting-time extension: the part of field 0x0231 of a wait of m times the FWT that the ATS
announces, capped at 4949 ms; m is 0 for the FWT itself, before any extension (R604, R646). -/
def emuWtxPoint (s : State) (m : Nat) : Nat :=
  let fwt := 3021 * 2 ^ (s.emu.profile.map (·.fwi)).getD 4
  s.time + (if m = 0 then fwt else min (fwt * m) 49490000) * cfg s 0x231 / 1000

/-- Entry to PROTOCOL is complete once the optional PPS has been or can no longer come: source 27. -/
def emuSelected (dsi dri : Nat) (s : State) : State :=
  raise 27 (dsi + 4 * dri + 16 * (s.emu.fsdi % 16) + 256 * (s.emu.cid % 16)) s

def emuFirstBlock (s : State) : State :=
  match s.emu.last with
  | some (.emuAts _) => emuSelected 0 0 (s.onEmu fun m => { m with last := none })
  | _ => s

/-- Longest information field of a block to the reader. -/
def emuBlockMax (s : State) : Nat := frameSize s.emu.fsdi - 3 - (if s.emu.cid = 15 then 0 else 1)

/-- The next block of the response. -/
def emuNextBlock (s : State) : State :=
  let n := emuBlockMax s
  let inf := s.emu.rest.take n
  let rest := s.emu.rest.drop n
  emuSend (.emuIBlock s.emu.num (rest != []) inf) (s.onEmu fun m => { m with rest := rest, blocks := m.blocks + 1 })

/-- The command APDU is complete: source 40, or code 3 where it was too long. -/
def emuCommand (s : State) : State :=
  if s.emu.tooLong then raise 42 3 (s.onEmu fun m => { m with apdu := [], tooLong := false })
  else
    let off := (s.emu.profile.map (·.cmdOff)).getD 0
    let n := s.emu.apdu.length
    raise 40 n (poundWrite s.emu.owner off s.emu.apdu (s.onEmu fun m =>
      { m with apdu := [], await := true, wtx := 0, wtxAt := emuWtxPoint s 0, wtxOpen := false, blocks := 0, rest := [] }))

/-- An I-block of the reader; the card toggles its number before it sends a block. -/
def emuIBlockIn (chain : Bool) (inf : List Byte) (s : State) : State :=
  if s.emu.await || s.emu.rest != [] then raise 42 2 s
  else
    let all := s.emu.apdu ++ inf
    let long := s.emu.tooLong || decide (4096 < all.length)
    let s1 := s.onEmu fun m => { m with num := !m.num, apdu := if long then [] else all, tooLong := long, rest := [] }
    if chain then emuSend (.emuAck s1.emu.num) s1 else emuCommand s1

/-- Retransmission, continued chaining, or R(ACK) (ISO/IEC 14443-4, as R645 names it). -/
def emuRBlockIn (nak n : Bool) (s : State) : State :=
  if n = s.emu.num then
    match s.emu.last with
    | some (.emuWtx m) => emuSend (.emuWtx m) (s.onEmu fun x => { x with wtxOpen := true })
    | some f => if s.emu.await then s else emuSend f s
    | none => s
  else if nak then emuSend (.emuAck s.emu.num) s
  else if s.emu.rest ≠ [] then emuNextBlock (s.onEmu fun m => { m with num := !m.num })
  else s

/-- Frames in PROTOCOL. -/
def emuProtocol (f : EmuFrame) (s : State) : State :=
  match f with
  | .pps dsi dri =>
    let top := (s.emu.profile.map (·.maxRate)).getD 0
    match s.emu.last with
    | some (.emuAts _) =>
      if dsi ≤ top ∧ dri ≤ top then
        emuSend .emuPps (emuSelected dsi dri (s.onEmu fun m => { m with dsi := dsi, dri := dri }))
      else s
    | _ => s
  | .iBlock _ chain inf => emuIBlockIn chain inf (emuFirstBlock s)
  | .rAck n => emuRBlockIn false n (emuFirstBlock s)
  | .rNak n => emuRBlockIn true n (emuFirstBlock s)
  | .sWtx m =>
    if s.emu.wtxOpen ∧ s.emu.last = some (.emuWtx m) then
      let s1 := s.onEmu fun x => { x with wtxOpen := false, wtxAt := emuWtxPoint s m }
      if s.emu.await then s1 else emuNextBlock s1
    else raise 42 2 s
  | .sDeselect =>
    emuSend .emuDeselect (emuRespondLost (raise 28 1 ((emuFirstBlock s).onEmu fun m =>
      { m with state := 4, star := false, await := false, wtxOpen := false, apdu := [], tooLong := false, rest := [] })))
  | _ => s

/-- Frames of layer 3, before RATS; a cascade level has its turn (ISO/IEC 14443-3, R641). -/
def emuLayer3 (f : EmuFrame) (s : State) : State :=
  let st := s.emu.state
  let atqa := (s.emu.profile.map (·.atqa)).getD 0
  let parts := (uidParts s.emu.uid).length
  match f with
  | .reqa =>
    if st = 1 then emuSend (.emuAtqa atqa) (s.onEmu fun m => { m with state := 2, star := false, level := 1 })
    else if st = 4 then s
    else emuError s
  | .wupa =>
    if st = 1 ∨ st = 4 then emuSend (.emuAtqa atqa) (s.onEmu fun m => { m with state := 2, star := st == 4, level := 1 })
    else emuError s
  | .anticoll lv => if st = 2 ∧ lv = s.emu.level then emuSend (.emuUid lv) s else if st = 4 then s else emuError s
  | .select lv mine =>
    if st = 2 ∧ lv = s.emu.level ∧ mine = true then
      if parts ≤ lv then emuSend (.emuSak true) (s.onEmu fun m => { m with state := 3 })
      else emuSend (.emuSak false) (s.onEmu fun m => { m with level := lv + 1 })
    else if st = 4 then s
    else emuError s
  | .hlta => if st = 3 then raise 28 0 (s.onEmu fun m => { m with state := 4, star := false }) else if st = 4 then s else emuError s
  | .rats fsdi cid =>
    if st = 3 then
      emuSend (.emuAts ((s.emu.profile.map (·.ats)).getD [])) (s.onEmu fun m =>
        { m with
          state := 5, fsdi := fsdi, cid := cid, dsi := 0, dri := 0, num := true, apdu := [], tooLong := false
          await := false, wtxOpen := false, rest := [] })
    else if st = 4 then s
    else emuError s
  | _ => if st = 4 then s else emuError s

/-- The result of a frame whose bits make no frame of its protocol is a coding violation at least (R491). -/
def frameJudged (bad : Bool) (res : FrameResult) : FrameResult := if bad = true ∧ res = .ok then .coding else res

def execEmuRxFrame (f : EmuFrame) (s : State) (clipped : Bool := false) (res : FrameResult := .ok) :
    Host.Outcome State Fault Refusal :=
  .next <| s |> withWaiting .hf hfWaiter fun s =>
    if !s.emu.armed || s.hf.tx.isSome || res == .noSof then s
    else if s.emu.state == 0 then s.onHf fun h => { h with sof := false }
    else
      let judged := frameJudged (f == .bad) res
      let s1 := (clipEvents clipped (countHf judged s)).onHf fun h => { h with sof := false }
      let g := if judged = .ok then f else .bad
      if s.emu.state = 5 then emuProtocol g s1 else emuLayer3 g s1

/-! ## Waiting-time extension (R646, R649) -/

def execEmuWtxTimer (s : State) : Host.Outcome State Fault Refusal :=
  .next <|
    if !s.emu.armed || !s.emu.await || s.emu.wtxOpen || s.hf.tx.isSome || decide (s.time < s.emu.wtxAt) then s
    else if cfg s 0x233 ≤ s.emu.wtx then
      raise 42 1 (s.onEmu fun m => { m with await := false, wtxOpen := false, rest := [], last := none })
    else
      let m := cfg s 0x232
      emuSend (.emuWtx m) (s.onEmu fun x => { x with wtx := x.wtx + 1, wtxOpen := true, wtxAt := emuWtxPoint s m })

/-! ## EMU_RESPOND and EMU_DISARM (R651, R674, R675) -/

/-- The response, whose first block waits for the reader's answer to an S(WTX) on its way. -/
def emuAnswer (bs : List Byte) (s : State) : State :=
  let s1 := setPhase .hf .emuRespond (s.onEmu fun m => { m with await := false, rest := bs, blocks := 0 })
  if s.emu.wtxOpen then s1 else emuNextBlock s1

def emuRespond (e : Exec) (s : State) : State :=
  let n := Packet16 e.pkt 0
  let off := (s.emu.profile.map (·.rspOff)).getD 0
  if n = 0 ∨ 4096 < n then finish .hf 0x11 [] none s
  else if !s.emu.await then finish .hf 0x23 [] none s
  else if !inPound s e.pkt.tenant off n then finish .hf 0x11 [] none s
  else if poundFenced s e.pkt.tenant off n then finish .hf 0x13 [] none s
  else
    emuAnswer (poundRead s e.pkt.tenant off n) s

def execEmuRespond (s : State) : Host.Outcome State Fault Refusal :=
  .next (onLeased .hf 0x0502 emuRespond s)

/-- The last block of the response has been sent. -/
def emuBlockSent (s : State) : State :=
  match s.hfLane.exec with
  | some e => if e.phase = .emuRespond ∧ s.emu.rest = [] then finish .hf 0 (emuRespondBody s) none s else s
  | none => s

def execEmuDisarm (s : State) : Host.Outcome State Fault Refusal :=
  .next (onLeased .hf 0x0503 (fun _ s => finish .hf 0 [] none (emuOff 3 s)) s)

end Sys2Proof.Machine
end

