-- ==== Sys2Proof/Machine/Peer.lean ====
section
/-! DEFINITION. Peer mode under ISO/IEC 18092 and the role swap (R657–R669, R676–R679). -/

namespace Sys2Proof.Machine

open Sys2Proof

/-- The executing packet's phase on the HF lane. -/
def hfPhase (s : State) : Option Phase := s.hfLane.exec.map (·.phase)

/-- Whether the lane's packet is in a phase of peer mode. -/
def inPeerPhase (s : State) (ph : Phase) : Bool := hfPhase s == some ph

/-! ## Sending (R660–R662) -/

/-- Longest transport data of one DEP frame: 254 bytes less the command, PFB and DID bytes. -/
def depMax (p : PeerRun) : Nat := if p.did = 0 then 251 else 250

/-- Own general bytes, with the role-swap announcement where asked for. -/
def peerGb (p : PeerRun) : List Byte := p.gb ++ (if p.allowSwap then [0xC7, 0x01, 0x01] else [])

/-- The packet of the lane belongs to peer mode. -/
def peerPacket (s : State) : Bool :=
  inPeerPhase s .peerStart || inPeerPhase s .peerXchg || inPeerPhase s .peerSwap

/-- The field for a frame of this side; without room in the budget the link stops (R56, R57), a link
that was open with source 45. -/
def peerLight (s : State) : State :=
  let c := powerCheck s (s.peer.map (·.owner) |>.getD 0) true 0x200 0
  let s1 := powerApply .hf 0x200 0 c s
  if c.noRoom then
    let s2 := peerQuit s
    let s3 := if inPeerPhase s .peerStart then s2 else raise 45 3 s2
    if peerPacket s then finish .hf 0x42 [] none (onExec .hf (fun e => { e with clamps := e.clamps ++ clampOf 0x200 (cfgI s 0x200) c }) s3)
    else s3
  else if peerPacket s then hfRise (cfg s1 0x200 / 31250) 60 s1
  else
    let s2 := if c.apply then setField 0x200 c.value s else s
    hfRise (cfg s2 0x200 / 31250) 60 (if c.reasons = [] then s2 else clampEvent 0x200 s2)

/-- An active side senses for 768/fc after the other field has ended, before it lights its own (R660). -/
def answerSense (s : State) : State :=
  onPeerRun (fun p => { p with answerAt := some (max s.time (p.otherEnd + 57)) })
    (s.onHf fun h => { h with radio := .listen })

/-- The sensing is over without a field. -/
def answerLight (s : State) : State := peerLight (onPeerRun (fun p => { p with answerAt := none }) s)

/-- LR = 3, frames of up to 254 bytes, which both sides announce (R662). -/
def peerLr : Nat := 3

/-- The window of an initiator's frame: RWT by the TO of the target, of which RTOX asks for more; that of ATR_REQ is not
stated (R662). -/
def peerWin (p : PeerRun) : HfFrame → Nat
  | .atrReq .. => 0
  | .rtox m => fwt p.peerTo m
  | _ => if p.target then 0 else fwt p.peerTo 1

/-- One frame: by load modulation for a passive target, in the own field otherwise, which an active side
lights first once the other's field is off. -/
def peerSend (f : HfFrame) (s : State) : State :=
  match s.peer with
  | none => s
  | some p =>
    if p.target && !p.activeMode then s.onHf fun h => { h with tx := some f, sent := some f }
    else if !p.activeMode || hfLit s then hfSend f (peerWin p f) s
    else
      let s1 := s.onHf fun h => { h with held := some f, waitLen := peerWin p f }
      if p.otherOn then s1 else answerSense s1

/-- The next part of the transport data; an initiator's request or a target's response. -/
def peerSendData (s : State) : State :=
  match s.peer with
  | none => s
  | some p =>
    let part := p.rest.take (depMax p)
    let rest := p.rest.drop (depMax p)
    peerSend (if p.target then .depRes (rest != []) part else .depReq (rest != []) part)
      (onPeerRun (fun p => { p with rest := rest }) s)

/-- Control byte of a role-swap link, and the draw that goes with SWAP_WANT. -/
def swapControl (want : Bool) (draw : Nat) : List Byte :=
  if want then 1 :: [BitVec.ofNat 8 (draw / 256), BitVec.ofNat 8 draw] else [2]

/-- Sends a request or an acceptance of a role swap, without user data. -/
def sendSwap (want : Bool) (s : State) : State :=
  match s.peer with
  | none => s
  | some p =>
    let bs := swapControl want p.mine
    peerSend (if p.target then .depRes false bs else .depReq false bs) s

/-! ## PEER_START (R657–R659, R676) -/

def peerStartBody (nfcid : List Byte) (gbLen : Nat) (swap : Bool) : List Byte :=
  padTo 10 nfcid ++ le 1 gbLen ++ le 1 (b2n swap) ++ le 4 0

/-- Initial RF collision avoidance: 302.1 µs and n times 37.8 µs, in whole µs rounded up. -/
def senseTime (n : Nat) : Nat := ceilDiv (3021 + 378 * n) 10

/-- The link of a PEER_START, once its NFCID3 and n are drawn. -/
def newPeer (s : State) (p : Packet) (ws : List Half) : PeerRun where
  owner := p.tenant
  target := Packet8 p 0 == 1
  activeMode := Packet8 p 1 == 1
  rate := Packet8 p 2
  allowSwap := bit (Packet8 p 3) 0
  did := Packet8 p 4
  gbLen := Packet8 p 5
  gbOff := Packet32 p 8
  rxOff := Packet32 p 12
  nfcid := (halfBytes ws).take 10
  gb := poundRead s p.tenant (Packet32 p 8) (Packet8 p 5)
  swapOk := false
  stage := if Packet8 p 0 = 1 then .listening else .sensing
  buf := []
  rest := []
  want := false
  accepted := false
  answer := false
  mine := 0
  theirs := 0
  ties := 0
  until_ := s.time + senseTime ((nth ws 5 0).toNat % 4)
  otherOn := false
  otherEnd := 0
  answerAt := none
  lq := 0
  evm := 1000

/-- The link begins: a target listens, an initiator senses. -/
def peerBegin (p : Packet) (ws : List Half) (s : State) : State :=
  let s1 := (s.onPeer fun _ => some (newPeer s p ws)).onHf fun h => { h with radio := .listen, ext := false, held := none }
  if Packet8 p 0 = 1 then finish .hf 0 (peerStartBody [] 0 false) none s1 else setPhase .hf .peerStart s1

/-- The draws of a PEER_START, which may have to wait (R696). -/
def peerDraw (since : Nat) (p : Packet) (s : State) : State :=
  match rngDraw1 6 s with
  | some (ws, s1) => peerBegin p ws s1
  | none => rngWait (setPhase .hf (.draw since) s)

def peerStart (e : Exec) (s : State) : State :=
  let p := e.pkt
  let b := Packet8 p
  if 1 < b 0 ∨ 1 < b 1 ∨ 2 < b 2 ∨ 14 < b 4 ∨ 44 < b 5 then finish .hf 0x11 [] none s
  else if hfBusy s || hfEmits s then finish .hf 0x23 [] none s
  else if (b 0 = 0 ∨ b 1 = 1) ∧ hfAllowed s = false then finish .hf 0x40 [] none s
  else if b 0 = 0 ∧ s.pwr.warn then finish .hf 0x42 [] none s
  else peerDraw s.time p s

def execPeerStart (s : State) : Host.Outcome State Fault Refusal :=
  .next (onLeased .hf 0x0510 peerStart s)

/-- The window of RF collision avoidance has passed without a field: the field is lit. -/
def peerSensed (s : State) : State := peerLight (onPeerRun (fun p => { p with stage := .fieldGuard }) s)

/-- The field is lit and settled: ATR_REQ after 5.1 ms, or in active mode the frame 1024/fc later. -/
def peerFieldUp (s : State) : State :=
  match s.peer with
  | none => s
  | some p =>
    if p.stage = .fieldGuard then
      hfSendAt (.atrReq p.nfcid (peerGb p) peerLr) 0 (s.time + 5100)
        (onPeerRun (fun p => { p with stage := .atrWait }) s)
    else if p.activeMode then hfRelease (s.onHf fun h => { h with sendNs := 1000 * (s.time + 76) })
    else s

/-! ## Role swap: resolution (R663–R669) -/

def swapBody (s : State) (swapped : Bool) : List Byte :=
  match s.peer with
  | none => List.replicate 8 0
  | some p => le 1 (b2n (!swapped)) ++ le 1 p.ties ++ le 2 p.mine ++ le 2 p.theirs ++ le 2 0

/-- Source 29 (R670). -/
def swapEvent (swapped failed : Bool) (s : State) : State :=
  match s.peer with
  | none => s
  | some p => raise 29 (b2n p.target + 2 * b2n swapped + 4 * (p.ties % 8) + 32 * b2n failed) s

/-- The own PEER_ROLE_SWAP ends with its reply. -/
def swapReply (status : Nat) (swapped : Bool) (s : State) : State :=
  let s1 := onPeerRun (fun p => { p with want := false, accepted := false, answer := false }) s
  if inPeerPhase s .peerSwap then finish .hf status (swapBody s swapped) none s1 else s1

/-- The roles stay as they were. -/
def swapKept (s : State) : State := swapReply 0 false (swapEvent false false (onPeerRun (fun p => { p with stage := .open }) s))

/-- After the fourth equal comparison. -/
def swapFailed (s : State) : State :=
  swapReply 0x24 false (swapEvent false true (onPeerRun (fun p => { p with stage := .open }) s))

/-- The old initiator lets its field fall and will listen; the new initiator waits for the gap after that
fall of 60 µs. -/
def swapRoles (s : State) : State :=
  match s.peer with
  | none => s
  | some p =>
    let gap := 1000 * cfg s 0x234
    if p.target then
      onPeerRun (fun p => { p with target := false, stage := .swapGap, until_ := s.time + 60 + gap, otherOn := false }) s
    else
      let s1 := onPeerRun (fun p =>
        { p with target := true, stage := if hfEmits s then .swapFall else .swapListen, until_ := s.time + gap + 20000 }) s
      if hfEmits s then hfFall 0 s1 else s1.onHf fun h => { h with radio := .listen, wait := none }

/-- A draw of the swap waits for entropy, since the first time that it was asked for. -/
def swapWaits (length : Bool) (s : State) : State :=
  rngWait (onPeerRun (fun p => { p with drawAt := some (p.drawAt.getD (s.time, length)) }) s)

/-- The length of a back-off, 1 to 8 ms in whole ms (R666). -/
def tieDraw (s : State) : State :=
  match rngDraw1 1 s with
  | some (ws, s1) =>
    onPeerRun (fun p => { p with drawAt := none, until_ := s.time + 1000 * (1 + (nth ws 0 0).toNat % 8) }) s1
  | none => swapWaits true s

/-- Equal draws: a back-off, and a new draw after it (R666, R667). -/
def swapTie (s : State) : State :=
  let s1 := onPeerRun (fun p => { p with ties := p.ties + 1 }) s
  match s1.peer with
  | none => s1
  | some p =>
    if 4 ≤ p.ties then swapFailed s1
    else
      tieDraw (onPeerRun (fun p => { p with stage := .swapBackoff, answer := false }) s1)

/-- Draws that cross are compared: the larger becomes the initiator (R665). -/
def swapCompare (s : State) : State :=
  match s.peer with
  | none => s
  | some p =>
    if p.mine = p.theirs then swapTie s
    else if decide (p.theirs < p.mine) == p.target then swapRoles s
    else swapKept s

/-! ## Frames of the peer -/

/-- The announcement of role swap in general bytes. -/
def announcesSwap : List Byte → Bool
  | a :: b :: c :: rest => (a == 0xC7 && b == 1 && c == 1) || announcesSwap (b :: c :: rest)
  | _ => false

/-- The peer's general bytes, written after the own ones. -/
def keepGb (gb : List Byte) (s : State) : State :=
  match s.peer with
  | none => s
  | some p =>
    onPeerRun (fun p => { p with swapOk := p.allowSwap && announcesSwap gb })
      (poundWrite p.owner (p.gbOff + p.gbLen) (padTo 48 gb) s)

/-- ATR_REQ reaches a target (R662). -/
def gotAtrReq (gb : List Byte) (s : State) : State :=
  match s.peer with
  | none => s
  | some p =>
    let s1 := keepGb gb s
    let s2 := if p.stage = .listening then raise 43 0 s1 else s1
    peerSend (.atrRes p.nfcid (peerGb p) peerLr (cfg s 0x235)) s2

/-- ATR_RES reaches an initiator: the reply of PEER_START, or the end of a role swap. -/
def gotAtrRes (nfcid gb : List Byte) (toc : Nat) (s : State) : State :=
  let s1 := onPeerRun (fun p => { p with stage := .open, peerTo := min 14 toc }) (keepGb gb s)
  if inPeerPhase s1 .peerStart then
    match (execOf s1 .hf).bind (stopDue s1) with
    | some st => finish .hf st [] none (peerQuit s1)
    | none => finish .hf 0 (peerStartBody nfcid gb.length ((s1.peer.map (·.swapOk)).getD false)) none s1
  else swapReply 0 true (swapEvent true false s1)

/-- Body of PEER_EXCHANGE. -/
def exchangeBody (s : State) (len : Nat) : List Byte :=
  let q := (s.peer.map fun p => (p.lq, p.evm)).getD (0, 1000)
  le 4 len ++ le 1 q.1 ++ le 1 0 ++ le 2 q.2

/-- User data goes into the receive buffer. -/
def storeData (data : List Byte) (s : State) : State :=
  match s.peer with
  | none => s
  | some p => poundWrite p.owner p.rxOff data s

/-- A swap whose re-activation fails: code 2, or 3 where collision avoidance saw a field or none may be lit (R669,
R670). -/
def swapEnds (status code : Nat) (s : State) : State :=
  let s1 := if inPeerPhase s .peerSwap then finish .hf status (swapBody s false) none s else s
  peerQuit (raise 45 code s1)

def swapLost (code : Nat) (s : State) : State := swapEnds 0x24 code s

/-- A frame outside the protocol (R670); in place of the ATR_RES of a role swap it ends the link (R669). -/
def peerBad (s : State) : State :=
  if (s.peer.map (·.stage)) = some .atrWait ∧ inPeerPhase s .peerStart = false then swapLost 2 (raise 45 1 s) else
  let s1 := onPeerRun (fun p => { p with buf := [], rest := [], stage := if p.stage = .reqSent then .open else p.stage }) (raise 45 1 s)
  if inPeerPhase s .peerXchg then finish .hf 0x23 (exchangeBody s 0) none s1
  else if inPeerPhase s .peerSwap then swapReply 0x23 false s1
  else if inPeerPhase s .peerStart then finish .hf 0x23 [] none (peerQuit s1)
  else s1

/-- The draw that comes with SWAP_WANT. -/
def drawOf (bs : List Byte) : Nat := 256 * (nth bs 1 0).toNat + (nth bs 2 0).toNat

/-- Complete transport data at the initiator. -/
def initiatorData (bs : List Byte) (s : State) : State :=
  let sw := (s.peer.map (·.swapOk)).getD false
  let c := if sw then (nth bs 0 0).toNat else 0
  let want := (s.peer.map (·.want)).getD false
  let s1 := onPeerRun (fun p => { p with stage := .open }) s
  if bit c 0 then
    let s2 := onPeerRun (fun p => { p with theirs := drawOf bs }) s1
    if want then swapCompare s2
    else
      let s3 := onPeerRun (fun p => { p with accepted := true, ties := 0 }) s2
      sendSwap false (if inPeerPhase s3 .peerXchg then finish .hf 0 (exchangeBody s3 0) none s3 else s3)
  else if bit c 1 && want then swapRoles s1
  else if want then peerBad s1
  else
    let data := if sw then bs.drop 1 else bs
    let s2 := storeData data s1
    if inPeerPhase s2 .peerXchg then finish .hf 0 (exchangeBody s2 data.length) none s2 else s2

/-- The own PEER_ROLE_SWAP is admitted, and waits for its draw. -/
def swapDrawing (s : State) : Bool :=
  s.hfLane.all.any fun e => e.pkt.opcode == 0x0512 && match e.phase with
    | .draw _ => true
    | _ => false

/-- The own request ends while it waits for its draw. One that had crossed it is accepted now (R664, R665). -/
def swapDropped (s : State) : State :=
  let s1 := onPeerRun (fun p => { p with want := false, answer := false }) s
  if (s.peer.map (·.answer)) = some true then sendSwap false (onPeerRun (fun p => { p with accepted := true }) s1) else s1

/-- Complete transport data at the target, whose answer has RWT from here on. A request that crosses an own one is
answered once the own draw and its back-off allow (R665, R666). -/
def targetData (bs : List Byte) (s0 : State) : State :=
  let s := onPeerRun (fun p => { p with rwtEnd := s0.time + fwt (cfg s0 0x235) 1 }) s0
  match s.peer with
  | none => s
  | some p =>
    let c := if p.swapOk then (nth bs 0 0).toNat else 0
    if bit c 0 then
      let s1 := onPeerRun (fun p => { p with theirs := drawOf bs }) s
      if p.want then
        if p.stage = .swapBackoff ∨ swapDrawing s = true then onPeerRun (fun p => { p with answer := true }) s1
        else sendSwap true (onPeerRun (fun p => { p with answer := true }) s1)
      else sendSwap false (onPeerRun (fun p => { p with accepted := true, ties := 0 }) s1)
    else if bit c 1 && p.want then swapRoles s
    else
      let data := if p.swapOk then bs.drop 1 else bs
      let s1 := raise 43 (1 + 4 * data.length) (storeData data s)
      if p.want && !swapDrawing s then sendSwap true s1
      else onPeerRun (fun p => { p with stage := .answerDue }) s1

/-- A DEP frame: chained data is acknowledged, complete data taken. -/
def gotDep (more : Bool) (data : List Byte) (s : State) : State :=
  match s.peer with
  | none => s
  | some p =>
    let all := p.buf ++ data
    if 4096 < all.length - (if p.swapOk then 1 else 0) then peerBad s
    else if more then peerSend .depAck (onPeerRun (fun p => { p with buf := all }) s)
    else
      let s1 := onPeerRun (fun p => { p with buf := [] }) s
      if p.target then targetData all s1 else initiatorData all s1

/-- The link is released: the target listens again. -/
def gotRelease (s : State) : State :=
  peerSend .relRes (raise 43 2 (onPeerRun (fun p => { p with stage := .listening, swapOk := false, buf := [], rest := [] }) s))

/-- Which frame a stage takes. -/
def peerNext (f : PeerFrame) (s : State) : State :=
  match s.peer with
  | none => s
  | some p =>
    match f with
    | .atrReq _ gb =>
      if p.target && (p.stage == .listening || p.stage == .swapListen) then gotAtrReq gb s else peerBad s
    | .atrRes nfcid gb toc => if !p.target && p.stage == .atrWait then gotAtrRes nfcid gb toc s else peerBad s
    | .dep more data =>
      if p.stage = .reqSent ∨ (p.target ∧ (p.stage = .open ∨ p.stage = .swapBackoff)) then gotDep more data s
      else peerBad s
    | .depAck => if p.rest ≠ [] then peerSendData s else peerBad s
    | .rtox m =>
      if !p.target && p.stage == .reqSent then peerSend (.rtox m) s
      else if p.target && (p.stage == .answerDue || p.answer) then s
      else peerBad s
    | .pslReq rate => if p.target && p.stage == .open then peerSend (.pslRes rate) s else peerBad s
    | .released => if p.target && p.stage != .listening then gotRelease s else peerBad s
    | .bad => peerBad s

/-- The minimum gap of an initiator after a frame of ISO/IEC 18092 (R800). -/
def peerGap (p : PeerRun) : Nat := if p.rate = 0 then carrierNs 1172 else carrierNs (640 / 2 ^ (p.rate - 1))

/-- A peer frame counts as an HF frame received, with its link quality; one whose result is not OK is none of the
protocol's (R491). -/
def peerRx (f : PeerFrame) (m : RxMeas) (clipped : Bool) (res0 : FrameResult) (s : State) : State :=
  let res := frameJudged (f == .bad) res0
  let q := linkQuality s res m (hfNoise s)
  let gap := match s.peer with
    | some p => if p.target then 0 else peerGap p
    | none => 0
  let s1 := (clipEvents clipped (countHf res s.useFree)).onHf fun h =>
    { h with wait := none, sof := false, gapNs := 1000 * s.time + gap }
  peerNext (if res = .ok then f else .bad) (onPeerRun (fun p => { p with lq := q.1, evm := q.2, otherOn := p.activeMode }) s1)

/-- The stages in which this side listens for the other. -/
def peerHears (s : State) : Bool :=
  match s.peer with
  | none => false
  | some p => s.hf.tx.isNone && s.hf.held.isNone
      && p.stage ∉ ([.sensing, .fieldGuard, .swapFall, .swapGap] : List PeerStage)

def execPeerRxFrame (f : PeerFrame) (m : RxMeas) (s : State) (clipped : Bool := false) (res : FrameResult := .ok) :
    Host.Outcome State Fault Refusal :=
  .next <| s |> withWaiting .hf hfWaiter fun s =>
    if s.peer.isNone || res == .noSof then s
    else if peerHears s then peerRx f m clipped res s
    else if s.hf.radio = .listen then s.onHf fun h => { h with sof := false }
    else s

/-! ## PEER_EXCHANGE, RTOX (R662, R677) -/

def peerExchange (e : Exec) (s : State) : State :=
  let p := e.pkt
  let n := Packet32 p 0
  if 4096 < n then finish .hf 0x11 [] none s
  else
    match s.peer with
    | none => finish .hf 0x23 [] none s
    | some r =>
      if r.stage ≠ (if r.target then .answerDue else .open) then finish .hf 0x23 [] none s
      else
        let data := poundRead s p.tenant (Packet32 p 4) n
        peerSendData (setPhase .hf .peerXchg (onPeerRun (fun r =>
          { r with
            rest := (if r.swapOk then [0] else []) ++ data, buf := []
            stage := if r.target then .open else .reqSent }) s))

def execPeerExchange (s : State) : Host.Outcome State Fault Refusal :=
  .next (onLeased .hf 0x0511 peerExchange s)

/-- A target owes an answer: one of the host's, or one to a role swap that a draw or a back-off holds (R662, R666). -/
def answerOwed (p : PeerRun) : Bool := p.target && (p.stage == .answerDue || p.answer)

/-- A target's answer would come later than RWT: while RWT runs an RTOX asks for more; its factor is not stated
(R662; log 90, log 199). -/
def execPeerRtox (s : State) : Host.Outcome State Fault Refusal :=
  .next <|
    match s.peer with
    | none => s
    | some p =>
      if answerOwed p && decide (s.time ≤ p.rwtEnd) && s.hf.tx.isNone && s.hf.held.isNone then
        let m := 1 + freeBelow s 59
        peerSend (.rtox m) (onPeerRun (fun p => { p with rwtEnd := s.time + fwt (cfg s 0x235) m }) s.useFree)
      else s

/-! ## PEER_ROLE_SWAP and its moments (R663–R669, R678) -/

/-- The request of an own PEER_ROLE_SWAP goes out, or waits for the next DEP_RES; one that has been crossed meanwhile is
answered with the draw (R665). -/
def swapRequest (draw : Nat) (s : State) : State :=
  let s1 := setPhase .hf .peerSwap (onPeerRun (fun p => { p with mine := draw, theirs := if p.answer then p.theirs else 0 }) s)
  match s1.peer with
  | none => s1
  | some p =>
    if p.target then
      (if p.stage = .answerDue ∨ p.answer = true then sendSwap true (onPeerRun (fun p => { p with stage := .open }) s1) else s1)
    else sendSwap true (onPeerRun (fun p => { p with stage := .reqSent }) s1)

def swapDraw (since : Nat) (s : State) : State :=
  match rngDraw1 1 s with
  | some (ws, s1) => swapRequest (nth ws 0 0).toNat s1
  | none => rngWait (setPhase .hf (.draw since) s)

/-- Role swap is in force on an open link. -/
def swapReady (s : State) : Bool :=
  match s.peer with
  | none => false
  | some p => p.swapOk && (p.stage == .open || (p.target && p.stage == .answerDue))

def peerRoleSwap (_ : Exec) (s : State) : State :=
  if swapReady s then swapDraw s.time (onPeerRun (fun p => { p with want := true, ties := 0 }) s)
  else finish .hf 0x23 [] none s

def execPeerRoleSwap (s : State) : Host.Outcome State Fault Refusal :=
  .next (onLeased .hf 0x0512 peerRoleSwap s)

/-- The back-off ends with a new draw (R666): the initiator sends it, the target answers with it. -/
def backoffEnd (draw : Nat) (s : State) : State :=
  let s1 := onPeerRun (fun p => { p with mine := draw, drawAt := none }) s
  match s1.peer with
  | none => s1
  | some p =>
    if p.target then
      let s2 := onPeerRun (fun p => { p with stage := .open }) s1
      if p.answer then sendSwap true s2 else s2
    else sendSwap true (onPeerRun (fun p => { p with stage := .reqSent }) s1)

/-- The new draw at the end of a back-off. -/
def backoffDraw (s : State) : State :=
  match rngDraw1 1 s with
  | some (ws, s1) => backoffEnd (nth ws 0 0).toNat s1
  | none => swapWaits false s

def execSwapBackoffEnd (s : State) : Host.Outcome State Fault Refusal :=
  .next <| s |> withWaiting .hf hfWaiter fun s =>
    match s.peer with
    | none => s
    | some p =>
      if p.stage = .swapBackoff ∧ p.drawAt.isNone = true ∧ p.until_ ≤ s.time then backoffDraw s else s

/-- A field in the window of collision avoidance: PEER_START ends with 0x23 (R659), a role swap is lost, and an active
side that senses before its answer gives the link up with code 3 (R660, R670; log 190). -/
def peerFieldSeen (s : State) : State :=
  let s1 := peerQuit s
  match s.peer with
  | some p =>
    if p.stage = .sensing then (if inPeerPhase s .peerStart then finish .hf 0x23 [] none s1 else swapLost 3 s)
    else if p.answerAt.isSome then
      (if peerPacket s then finish .hf 0x23 [] none (raise 45 3 s1) else raise 45 3 s1)
    else s
  | none => s

/-- The new initiator's collision avoidance, with a fresh n; the draw may have to wait (R659, R668; log 198). -/
def swapSense (s : State) : State :=
  match rngDraw1 1 s with
  | some (ws, s1) =>
    (onPeerRun (fun p =>
      { p with stage := .sensing, drawAt := none, until_ := s.time + senseTime ((nth ws 0 0).toNat % 4) }) s1).onHf
      fun h => { h with radio := .listen, ext := false }
  | none => swapWaits false s

/-- A draw of the swap that waits is tried again (R666, R668, R697). -/
def swapDrawAgain (s : State) : State :=
  match s.peer with
  | none => s
  | some p =>
    match p.drawAt, p.stage with
    | some (_, length), .swapBackoff => if length then tieDraw s else backoffDraw s
    | some _, .swapGap => swapSense s
    | _, _ => s

/-- After the gap the new initiator runs R659; `sensed`: a field stands already. Without a charter for its field the
swap ends with 0x40 (R514, R517, R661). -/
def execSwapGapEnd (sensed : Bool) (s : State) : Host.Outcome State Fault Refusal :=
  .next <| s |> withWaiting .hf hfWaiter fun s =>
    match s.peer with
    | none => s
    | some p =>
      if p.stage = .swapGap ∧ p.drawAt.isNone = true ∧ p.until_ ≤ s.time then
        if sensed then swapLost 3 s
        else if !hfAllowed s then swapEnds 0x40 3 s
        else swapSense s
      else s

def execSwapReactivationTimeout (s : State) : Host.Outcome State Fault Refusal :=
  .next <| s |> withWaiting .hf hfWaiter fun s =>
    match s.peer with
    | none => s
    | some p =>
      if p.stage = .swapListen ∧ p.until_ ≤ s.time ∧ s.hf.tx.isNone ∧ s.hf.held.isNone then swapLost 2 s else s

/-! ## Own frames end, fields end -/

/-- Peer mode ends and the own field falls. -/
def peerEnd (s : State) : State :=
  let s1 := peerQuit s
  if hfEmits s then setPhase .hf (.runFall []) s1 else finish .hf 0 [] none s1

/-- What follows the end of an own peer frame, with the field of an active side falling. -/
def peerFrameEnd (f : HfFrame) (s : State) : State :=
  match s.peer with
  | none => s
  | some p =>
    let s0 := if p.activeMode then hfFall 0 s else s
    if p.accepted then
      swapRoles (onPeerRun (fun p => { p with accepted := false, mine := 0 }) s0)
    else
      match f with
      | .atrRes .. =>
        if p.stage = .swapListen then
          swapReply 0 true (swapEvent true false (onPeerRun (fun p => { p with stage := .open }) s0))
        else onPeerRun (fun p => { p with stage := .open }) s0
      | .depRes more _ =>
        if p.answer then swapCompare (onPeerRun (fun p => { p with answer := false }) s0)
        else if p.target && !more && inPeerPhase s .peerXchg then finish .hf 0 (exchangeBody s0 0) none s0
        else s0
      | .rlsReq | .dslReq => if inPeerPhase s .peerXchg then peerEnd s else s0
      | .pslRes rate => onPeerRun (fun p => { p with rate := min 2 rate }) s0
      | _ => s0

/-- No answer of the peer in time (R659, R669, R677). -/
def peerSilent (s : State) : State :=
  match s.peer with
  | none => s
  | some p =>
    if p.stage = .atrWait then
      if inPeerPhase s .peerStart then finish .hf 0x20 [] none (peerQuit s) else swapLost 2 s
    else
      let s1 := onPeerRun (fun p =>
        { p with stage := if p.stage = .reqSent then .open else p.stage, rest := [], buf := [], lq := 0, evm := 1000 }) s
      if inPeerPhase s .peerXchg then finish .hf 0x20 (exchangeBody s1 0) none s1
      else if inPeerPhase s .peerSwap && p.stage == .reqSent then swapReply 0x20 false s1
      else s1

/-- The own field has ended: an old initiator listens as a target, an active side hears the answer. -/
def peerFieldDown (s : State) : State :=
  match s.peer with
  | none => s
  | some p =>
    let s1 := s.onHf fun h => { h with radio := .listen }
    if p.stage = .swapFall then onPeerRun (fun p => { p with stage := .swapListen, until_ := s.time + 1000 * cfg s 0x234 + 20000 }) s1
    else if p.activeMode && s.hf.held.isSome && !p.otherOn then answerSense s1
    else s1

def execOtherFieldEnds (s : State) : Host.Outcome State Fault Refusal :=
  .next <| s |> withWaiting .hf hfWaiter fun s =>
    match s.peer with
    | none => s
    | some p =>
      if p.activeMode && p.otherOn then
        let s1 := onPeerRun (fun p => { p with otherOn := false, otherEnd := s.time }) s
        if s1.hf.held.isSome && !hfEmits s1 then answerSense s1 else s1
      else s

/-! ## PEER_STOP (R679) -/

def peerStop (e : Exec) (s : State) : State :=
  let k := Packet8 e.pkt 0
  match s.peer with
  | none => finish .hf 0 [] none s
  | some p =>
    if p.target then peerEnd s
    else if 1 < k then finish .hf 0x11 [] none s
    else if p.stage = .open ∧ (p.activeMode = true ∨ hfLit s = true) then
      peerSend (if k = 0 then .rlsReq else .dslReq) (setPhase .hf .peerXchg s)
    else peerEnd s

def execPeerStop (s : State) : Host.Outcome State Fault Refusal :=
  .next (onLeased .hf 0x0513 peerStop s)

/-! ## The external field and the AGC windows (R388, R396, R397, R642, R655) -/

/-- The threshold of field 0x020A, and the level 6 dB below it, as peak codes (R389, R396). -/
def extCode (s : State) : Nat := peakCode (cfgI s 0x20A).natAbs
def extLowCode (s : State) : Nat := peakCode ((cfgI s 0x20A).natAbs + 6)

/-- A window of LISTEN whose peak is compared with the threshold. -/
def extWindow (peak : Nat) (s : State) : State :=
  if s.hf.radio ≠ .listen then s
  else
    let s1 := if extLowCode s ≤ peak then s.onHf fun h => { h with extSeen := s.time } else s
    if extCode s ≤ peak ∧ s.hf.ext = false then
      peerFieldSeen (emuField (raise 22 1 (s1.onHf fun h => { h with ext := true })))
    else if extCode s ≤ peak ∧ (s.peer.bind (·.answerAt)).isSome then peerFieldSeen s1
    else s1

def execExternalFieldDetected (s : State) (peak : Nat := 8191) : Host.Outcome State Fault Refusal :=
  .next <| s |> withWaiting .hf hfWaiter fun s =>
    extWindow peak s

/-- No window has reached the lower level for 1 ms. -/
def execExternalFieldGone (s : State) : Host.Outcome State Fault Refusal :=
  .next <| s |> withWaiting .hf hfWaiter fun s =>
    if s.hf.radio = .listen ∧ s.hf.ext ∧ s.hf.extSeen + 1000 ≤ s.time then
      emuFieldLost (raise 22 0 (s.onHf fun h => { h with ext := false }))
    else s

/-- A window ends: the gain, and in LISTEN the external field. -/
def execAgcWindow (c : Chain) (peak : Nat) (clip : Bool) (s : State) (sof : Bool := false) :
    Host.Outcome State Fault Refusal :=
  .next <| s |> withWaiting .hf hfWaiter fun s =>
    let s1 := if sof then captureSof c (sofSeen c s) else agcWindow c peak clip s
    match c with
    | .hf => extWindow peak s1
    | .uhf => s1

end Sys2Proof.Machine
end

