-- ==== Sys2Proof/Machine/RngRows.lean ====
section
/-! DEFINITION. Entropy blocks, reseeds, draws that wait, RNG_READ, RNG_KAT and RNG_RESTART (R680–R698,
R705, R706, R734–R736). -/

namespace Sys2Proof.Machine

open Sys2Proof

/-! ## Blocks of the sources (R683–R688) -/

def sourceOn (s : State) (noise : Bool) : Bool := if noise then s.rng.noiseOn else s.rng.jitterOn
def sourceFails (s : State) (noise : Bool) : Nat := if noise then s.rng.noiseFails else s.rng.jitterFails

def setFails (noise : Bool) (n : Nat) (s : State) : State :=
  s.onRng fun r => if noise then { r with noiseFails := n } else { r with jitterFails := n }

def stopSource (noise : Bool) (s : State) : State :=
  s.onRng fun r => if noise then { r with noiseOn := false } else { r with jitterOn := false }

/-- The RNG is fenced: source 81 with FENCED = 1, then source 5 (R688). -/
def rngFence (noise : Bool) (s : State) : State := fenceUnit 4 8 0 (raise 81 (b2n noise + 2) s)

/-! ### Health tests (R682) -/

/-- Raw bits in their order, the first one bit 0 of the first byte (log 248). -/
def rawBits (raw : List Byte) : List Bool := (raw.map fun b => (List.range 8).map b.getLsbD).flatten

/-- One more raw bit, and whether the run has come to `cut` in any bit so far. -/
def runBit (cut : Nat) (x : HealthTest × Bool) (b : Bool) : HealthTest × Bool :=
  let n := if x.1.bit = some b then x.1.run + 1 else 1
  ({ x.1 with bit := some b, run := n }, x.2 || decide (cut ≤ n))

/-- One more count of the lock test, and whether 64 in a row have been equal so far. -/
def lockCount (x : HealthTest × Bool) (c : Nat) : HealthTest × Bool :=
  let n := if x.1.count = some c then x.1.same + 1 else 1
  ({ x.1 with count := some c, same := n }, x.2 || decide (64 ≤ n))

/-- Adaptive proportion over the windows of 1024 raw bits. -/
def proportionFails (cut : Nat) (raw : List Byte) : Bool :=
  (List.range (raw.length / 128)).any fun k =>
    let w := rawBits ((raw.drop (128 * k)).take 128)
    decide (cut ≤ w.count (nth w 0 false))

/-- A ring oscillator outside 200 to 1000 edges in a window of 1 µs. -/
def ringFails (rings : List (Nat × Nat)) : Bool :=
  rings.any fun r => decide (r.1 < 200 ∨ 1000 < r.1 ∨ r.2 < 200 ∨ 1000 < r.2)

/-- The test that the raw input of a block fails, by its code in source 80, or 0, and where the tests stand after it. Of
several the lowest code counts (log 248). -/
def blockTest (noise : Bool) (t : HealthTest) (raw : List Byte) (rings : List (Nat × Nat)) (counts : List Nat) :
    Nat × HealthTest :=
  let r := (rawBits raw).foldl (runBit (if noise then 41 else 81)) (t, false)
  let l := counts.foldl lockCount (r.1, false)
  (if r.2 then 1
   else if proportionFails (if noise then 589 else 925) raw then 2
   else if !noise && ringFails rings then 3
   else if !noise && l.2 then 4
   else 0, l.1)

/-! ### Blocks -/

/-- Bytes of raw input of a block: four outputs of 1024 or of 512 raw bits (R681). -/
def rawLength (noise : Bool) : Nat := if noise then 256 else 512

/-- The 512 conditioned bits of a block: CBC-MAC under the fixed key, four times (R681). -/
def conditioned (noise : Bool) (raw : List Byte) : List Byte :=
  let n := rawLength noise / 64
  ((List.range 4).map fun k => cbcMac Config.conditionerKey n (List.replicate 16 0) (raw.drop (16 * n * k))).flatten

def testSt (s : State) (noise : Bool) : HealthTest := if noise then s.rng.noiseTest else s.rng.jitterTest

def setTest (noise : Bool) (t : HealthTest) (s : State) : State :=
  s.onRng fun r => if noise then { r with noiseTest := t } else { r with jitterTest := t }

/-- A block that passes goes into the pool, if it has room (R684, R686). -/
def blockPassed (noise : Bool) (raw : List Byte) (s : State) : State :=
  nextBlock noise 0 ((setFails noise 0 s).onRng fun r =>
    { r with pool := if r.pool.length + 64 ≤ 512 then r.pool ++ conditioned noise raw else r.pool })

/-- A failed block: its source restarts 50 µs later with its test state cleared, or stops (R685, R686). -/
def blockFailed (noise : Bool) (test : Nat) (s : State) : State :=
  let n := sourceFails s noise + 1
  let s1 := nextBlock noise 50 (raise 80 (b2n noise + 2 * test + 16 * min 15 n)
    (setTest noise HealthTest.reset (setFails noise n s)))
  if cfg s 0x600 ≤ n then
    let s2 := stopSource noise s1
    if rngStopped s2 then rngFence noise s2 else raise 81 (b2n noise) s2
  else s1

def execRngBlockDone (noise : Bool) (raw : List Byte) (s : State) (rings : List (Nat × Nat) := [])
    (counts : List Nat := []) : Host.Outcome State Fault Refusal :=
  .next <|
    if !sourceOn s noise || fabStopped s || decide (s.time < blockNext s noise) || raw.length != rawLength noise then s
    else
      let r := blockTest noise (testSt s noise) raw rings counts
      if r.1 = 0 then blockPassed noise raw (setTest noise r.2 s) else blockFailed noise r.1 s

/-! ## RNG_READ (R693, R696, R734) -/

/-- Calls of at most 4096 bits, one after another; `done` bytes are written. -/
def readGo (e : Exec) : Nat → Nat → Nat → State → State
  | 0, _, _, s => s
  | k + 1, done, since, s =>
    let len := Packet32 e.pkt 0
    let n := min 512 (len - done)
    if len ≤ done then finish .house 0 (le 4 len) none s
    else
      match rngGenerate (bit (Packet8 e.pkt 4) 0) ((n + 1) / 2) s with
      | some (ws, s1) =>
        readGo e k (done + n) s1.time (poundWrite e.pkt.tenant (Packet32 e.pkt 8 + done) ((halfBytes ws).take n) s1)
      | none => rngWait (onExec .house (fun x => { x with phase := .draw since, partialBody := le 4 done }) s)

def readFrom (e : Exec) (done since : Nat) (s : State) : State := readGo e 130 done since s

def rngRead (e : Exec) (s : State) : State :=
  let len := Packet32 e.pkt 0
  if len = 0 ∨ 65536 < len ∨ Packet32 e.pkt 8 % 4 ≠ 0 then finish .house 0x11 [] none s
  else readFrom e 0 s.time s

def execRngRead (s : State) : Host.Outcome State Fault Refusal :=
  .next (onFresh .house 0x0700 rngRead s)

/-! ## Draws that wait (R696, R697) -/

/-- A packet of the HF lane tries its draw again. -/
def drawHf (e : Exec) (since : Nat) (s : State) : State :=
  match e.pkt.opcode with
  | 0x0501 => armDraw since s
  | 0x0510 => peerDraw since e.pkt s
  | _ => swapDraw since s

/-- The packet of a lane tries its draw again, unless it is to stop. -/
def drawAgain (l : LaneId) (s : State) : State :=
  match execOf s l with
  | none => s
  | some e =>
    if (stopDue s e).isSome then s
    else match l, e.phase with
      | .hf, .draw since => drawHf e since s
      | .uhf, .inventory op => if op.draw.isSome then slotDraw op s else s
      | .house, .cipherDraw key since => cipherDraw e key since s
      | .house, .draw since => readFrom e (leNat e.partialBody) since s
      | _, _ => s

/-- A generate call that waits: its class, since when, and the packet that it is made for, or none for a draw of the
role swap. -/
structure DrawCall where
  cls : Nat
  since : Nat
  lane : LaneId
  id : Option Nat
deriving DecidableEq, Repr

/-- The call that a packet of a lane waits for, one of class 1 to 3 (R697). -/
def packetDraw (l : LaneId) (e : Exec) : Option DrawCall :=
  match l, e.phase with
  | .hf, .draw since => some ⟨1, since, l, some e.pkt.id⟩
  | .uhf, .inventory op => op.draw.map fun since => ⟨1, since, l, some e.pkt.id⟩
  | .house, .cipherDraw _ since => some ⟨2, since, l, some e.pkt.id⟩
  | .house, .draw since => some ⟨3, since, l, some e.pkt.id⟩
  | _, _ => none

/-- Every waiting call of a packet, of a suspended one too, and of the role swap. -/
def drawCalls (s : State) : List DrawCall :=
  s.hfLane.all.filterMap (packetDraw .hf) ++ ((s.peer.bind (·.drawAt)).map fun d => ⟨1, d.1, .hf, none⟩).toList
    ++ s.uhfLane.all.filterMap (packetDraw .uhf) ++ s.houseLane.all.filterMap (packetDraw .house)

/-- A call takes its place behind those of its class that were made no later, and before the later classes. -/
def insertCall (x : DrawCall) : List DrawCall → List DrawCall
  | [] => [x]
  | y :: ys => if x.cls < y.cls ∨ (x.cls = y.cls ∧ x.since < y.since) then x :: y :: ys else y :: insertCall x ys

/-- A call is tried again. -/
def serveCall (s : State) (x : DrawCall) : State :=
  match x.id with
  | none => withWaiting .hf hfWaiter swapDrawAgain s
  | some i => withWaiting x.lane (fun e => e.pkt.id == i && (packetDraw x.lane e).isSome) (drawAgain x.lane) s

/-- Waiting calls in the order of R697, the port buffer last. -/
def serveDraws (s : State) : State :=
  rngRefillPort (((drawCalls s).foldl (fun cs x => insertCall x cs) []).foldl serveCall (rngRefillReserve s))

/-- The pool serves the expander: instantiation from 384 bits, a reseed from 256 (R689–R695). -/
def execReseed (s : State) : Host.Outcome State Fault Refusal :=
  .next <|
    if (s.pwr.state ≠ .run ∧ s.pwr.state ≠ .boot) ∨ fenced s 4 = true then s
    else if !s.rng.instantiated then
      if poolBits s < 384 then s
      else serveDraws (rngInstantiate s)
    else if (s.rng.stretched || s.rng.waiting || !s.rng.seeded) && decide (256 ≤ poolBits s) then
      serveDraws (rngReseed s)
    else serveDraws s

/-- A draw that began at `since` has waited 100 ms. -/
def drawLate (s : State) (since : Nat) : Bool := decide (since + 100000 ≤ s.time)

/-- A packet whose draw is late. -/
def lateDrawer (s : State) (l : LaneId) (e : Exec) : Bool :=
  (packetDraw l e).any (fun x => drawLate s x.since)
    || (l == .hf && e.phase == .peerSwap && (s.peer.bind (·.drawAt)).any fun d => drawLate s d.1)

/-- The packet of a lane, which may be suspended, ends with 0x30 and what it had produced before the draw (R696). -/
def execDrawTimeout (l : LaneId) (s : State) : Host.Outcome State Fault Refusal :=
  .next <| s |> withWaiting l (lateDrawer s l) fun s =>
    match execOf s l with
    | none => s
    | some e =>
      match e.phase with
      | .draw since =>
        if drawLate s since then
          (if e.pkt.opcode = 0x0512 then finish l 0x30 (swapBody s false) none (swapDropped s)
           else finish l 0x30 e.partialBody none s)
        else s
      | .cipherDraw _ since => if drawLate s since then finish l 0x30 [] none s else s
      | .inventory op =>
        if drawLate s (op.draw.getD s.time) then
          finish l 0x30 (invBody op (freeBelow s 256)) none s.useFree
        else s
      | .peerSwap =>
        match s.peer.bind (·.drawAt) with
        | some (since, _) => if drawLate s since then finish l 0x30 (swapBody s false) none (peerAlone s) else s
        | none => s
      | _ => s

/-! ## RNG_KAT and RNG_RESTART (R705, R706, R735, R736) -/

/-- What the failed tests fence: CTR_DRBG and conditioner the RNG, AES and CMAC the cipher unit. -/
def katFences (t : Nat) (s : State) : State :=
  let s1 := if t % 4 ≠ 0 then rngFence false s else s
  if 4 ≤ t % 32 then fenceUnit 5 9 0 s1 else s1

def execRngKat (t : Nat) (s : State) : Host.Outcome State Fault Refusal :=
  .next (onFresh .house 0x0701 (fun _ s => finish .house 0 (le 1 (t % 32) ++ le 3 0) none (katFences t s)) s)

/-- A fenced RNG keeps its sources stopped (R687, R747). -/
def restartSources (m : Nat) (s : State) : State :=
  if fenced s 4 then s
  else s.onRng fun r =>
    { r with
      jitterFails := if bit m 0 && !r.jitterOn then 0 else r.jitterFails
      noiseFails := if bit m 1 && !r.noiseOn then 0 else r.noiseFails
      started := true
      jitterOn := r.jitterOn || bit m 0
      noiseOn := r.noiseOn || bit m 1
      jitterNext := if bit m 0 && !r.jitterOn then s.time + blockTime false else r.jitterNext
      noiseNext := if bit m 1 && !r.noiseOn then s.time + blockTime true else r.noiseNext
      jitterTest := if bit m 0 && !r.jitterOn then HealthTest.reset else r.jitterTest
      noiseTest := if bit m 1 && !r.noiseOn then HealthTest.reset else r.noiseTest }

def execRngRestart (s : State) : Host.Outcome State Fault Refusal :=
  .next (onFresh .house 0x0702 (fun e s =>
    let s1 := restartSources (Packet8 e.pkt 0) s
    finish .house 0 (le 1 (b2n s1.rng.jitterOn + 2 * b2n s1.rng.noiseOn) ++ le 3 0) none s1) s)

end Sys2Proof.Machine
end

