-- ==== Sys2Proof/Machine/TenantRows.lean ====
section
/-! DEFINITION. The lock cycle, the withdrawal of what it takes away, and RESET_TENANT (R228–R240,
R257, R258). -/

namespace Sys2Proof.Machine

open Sys2Proof

/-! ## Checks of the staging copy (R231) -/

/-- Offset of word `k` of tenant n's row. -/
def teOff (n k : Nat) : Nat := 0x40 + 0x20 * n + 4 * k

def teWord (t : List Word) (n k : Nat) : Nat := ptWord t (teOff n k)

/-- ENABLE in a table; tenant 0 is always enabled (R215). -/
def teEnabled (t : List Word) (n : Nat) : Bool := n == 0 || bit (teWord t n 0) 0

def pagesMeet (a b : Place) : Bool :=
  a.pages != 0 && b.pages != 0 && decide (a.first < b.first + b.pages) && decide (b.first < a.first + a.pages)

/-- The first of some tenants and word indices at which a check fails, as an offset. -/
def firstWord (fails : Nat → Nat → Bool) (ns ks : List Nat) : Option Nat :=
  match (ns.map fun n => (ks.find? (fails n)).map (teOff n)).find? Option.isSome with
  | some o => o
  | none => none

def tenants8 : List Nat := List.range 8

/-- Code 2: the Keeper's pound and rings. -/
def keeperMoved (act stg : List Word) (k : Nat) : Bool :=
  if k = 1 then
    decide ((placeOf stg 0).pages < 16) || (placeOf stg 0).first != (placeOf act 0).first
  else 2 ≤ k && teWord stg 0 k != teWord act 0 k

/-- Code 3. -/
def poundBad (stg : List Word) (n : Nat) : Bool :=
  let p := placeOf stg n
  (teEnabled stg n && p.pages == 0) || (p.pages != 0 && decide (1024 < p.first + p.pages))

/-- Code 4: a page in two pounds, or a page of a pound that the copy's disabling frees. -/
def poundShared (act stg : List Word) (n : Nat) : Bool :=
  tenants8.any fun m => m != n &&
    (pagesMeet (placeOf stg n) (placeOf stg m)
      || (teEnabled act m && !teEnabled stg m && pagesMeet (placeOf stg n) (placeOf act m)))

/-- Code 5: word index of a ring's geometry that lies outside its range. -/
def geomBad (stg : List Word) (n k : Nat) : Bool :=
  let p := placeOf stg n
  teEnabled stg n &&
    ((k == 3 && (decide (p.cmdN < 8) || decide (1024 < p.cmdN)))
      || (k == 5 && (decide (p.rplN < 8) || decide (1024 < p.rplN)))
      || (k == 7 && (decide (p.evtN < 16) || decide (4096 < p.evtN))))

def bytesMeet (a la b lb : Nat) : Bool := decide (a < b + lb) && decide (b < a + la)

/-- Code 6: the offset word of a ring that breaks R218; of two rings that meet it is that of the later one (log 45). -/
def ringBad (stg : List Word) (n k : Nat) : Bool :=
  let p := placeOf stg n
  let cs := slotSize p.cmdBig
  let rs := slotSize p.rplBig
  teEnabled stg n &&
    ((k == 2 && (p.cmdOff % cs != 0 || decide (p.size < p.cmdOff + p.cmdN * cs)))
      || (k == 4 && (p.rplOff % rs != 0 || decide (p.size < p.rplOff + p.rplN * rs)
        || bytesMeet p.cmdOff (p.cmdN * cs) p.rplOff (p.rplN * rs)))
      || (k == 6 && (p.evtOff % 16 != 0 || decide (p.size < p.evtOff + 16 * p.evtN)
        || bytesMeet p.cmdOff (p.cmdN * cs) p.evtOff (16 * p.evtN)
        || bytesMeet p.rplOff (p.rplN * rs) p.evtOff (16 * p.evtN))))

/-- Reserved bits of a row word and of the aperture words (R223–R226). -/
def teReserved (k : Nat) : Nat :=
  nth [0xFFFF00F8, 0xF800FC00, 0xFFC00000, 0xFFFEF800, 0xFFC00000, 0xFFFEF800, 0xFFC00000, 0xFFFFE000] k 0

def apReserved (k : Nat) : Nat := if k % 2 = 0 then 0xF800FC00 else 0xFFFFF8F0

def reservedBad (stg : List Word) : Option Nat :=
  match firstWord (fun n k => teWord stg n k &&& teReserved k != 0) tenants8 tenants8 with
  | some o => some o
  | none =>
    ((List.range 64).find? fun k => ptWord stg (0x140 + 4 * k) &&& apReserved k != 0).map fun k => 0x140 + 4 * k

/-- Code 9: a used aperture outside the pound of its tenant. -/
def apertureBad (stg : List Word) (k : Nat) : Bool :=
  let r := ptWord stg (0x140 + 8 * k)
  let p := placeOf stg (bits (ptWord stg (0x144 + 8 * k)) 10 8)
  bits r 26 16 != 0
    && (decide (bits r 9 0 < p.first) || decide (p.first + p.pages < bits r 9 0 + bits r 26 16))

/-- The checks in the order of their codes: code and offset of the first that fails. -/
def lockCheck (s : State) (check : Bool) (expected : Nat) : Option (Nat × Nat) :=
  let act := s.pt.active
  let stg := s.pt.staging
  let differs := fun n k => teWord stg n k != teWord act n k
  let tests : List (Nat × Option Nat) := [
    (1, if bits (teWord stg 0 0) 2 1 = 0 then some (teOff 0 0) else none),
    (2, firstWord (fun _ k => keeperMoved act stg k) [0] tenants8),
    (3, firstWord (fun n _ => poundBad stg n) tenants8 [1]),
    (4, firstWord (fun n _ => poundShared act stg n) tenants8 [1]),
    (5, firstWord (geomBad stg) tenants8 [3, 5, 7]),
    (6, firstWord (ringBad stg) tenants8 [2, 4, 6]),
    (7, firstWord (fun n k => n != 0 && teEnabled act n && teEnabled stg n && differs n k) tenants8
      [1, 2, 3, 4, 5, 6, 7]),
    (8, firstWord (fun n k => (tenant s n).resetting && differs n k) tenants8 tenants8),
    (9, ((List.range 32).find? (apertureBad stg)).map fun k => 0x140 + 8 * k),
    (10, reservedBad stg),
    (11, if check ∧ s.pt.gen.toNat ≠ expected then some 0 else none)]
  match tests.find? fun t => t.2.isSome with
  | some (c, some o) => some (c, o)
  | _ => none

/-! ## The cycle (R228, R232) -/

/-- The active copy that a staging copy gives: the Keeper stays enabled with every permission (R215). -/
def activated (stg : List Word) : List Word := modAt stg 0 (· ||| 0xFF01)

/-- Step 3: the shadow becomes active and PT_GEN advances. A tenant that is or has been enabled and is not
being reset works from its new placement; one that the cycle disables keeps its old one (R233). The ring indices stay
as they are (log 184). -/
def swapTable (s : State) : State :=
  let old := s.pt.active
  let s1 := s.onPt fun t => { t with active := activated t.staging, gen := t.gen + 1 }
  s1.onTenants fun ts => ts.mapIdx fun n t =>
    if t.resetting ∨ (teEnabled old n ∧ ¬ teEnabled s1.pt.active n) then t
    else { t with place := placeOf s1.pt.active n }

/-- A fetched packet that the new table refuses (R232). -/
def refusedNow (s : State) (p : Packet) : Bool := !enabled s p.tenant || !mayIssue s p

/-- A waiter of a chain's lease that the new table removes. -/
def waiterRefused (s : State) (c : Chain) (n : Nat) : Bool :=
  !enabled s n || !permits s n (match c with | .hf => 8 | .uhf => 9)

/-- Step 4: queued packets and lease waiters answered with 0x51, and how many. -/
def recheck (s : State) : Nat × State :=
  let bad := s.queue.filter (refusedNow s)
  let s1 := bad.foldl (fun s p => answer p 0x51 s) (s.onQueue fun q => q.filter fun p => !refusedNow s p)
  let out := fun c => tenants8.filter fun n => waiterRefused s c n
  let count := fun c => ((waitersOf (leaseOf s c)).filter fun e => waiterRefused s c e.pkt.tenant).length
  let s2 := (out .hf).foldl (fun s n => withdrawWaits .hf n 0x51 s) s1
  let s3 := (out .uhf).foldl (fun s n => withdrawWaits .uhf n 0x51 s) s2
  (bad.length + count .hf + count .uhf, s3)

/-- The holder of a chain that has lost the chain's permission. -/
def holderLost (s : State) (c : Chain) : List (Nat × Option Chain) :=
  match (leaseOf s c).holder with
  | some h => if enabled s h && !permits s h (match c with | .hf => 8 | .uhf => 9) then [(h, some c)] else []
  | none => []

/-- Step 5: RESETTING of the tenants that the cycle disabled, and the withdrawals of R233, which wait for the packets
concerned. -/
def startWithdrawal (old : List Word) (s : State) : State :=
  let off := tenants8.filter fun n => teEnabled old n && !enabled s n && !(tenant s n).resetting
  let s1 := off.foldl (fun s n => onTenant n (fun t => { t with resetting := true, dropStatus := 0x51 }) s) s
  s1.onWithdrawn fun w => w ++ off.map (fun n => (n, none)) ++ holderLost s1 .hf ++ holderLost s1 .uhf

def lockBody (code refused off gen : Nat) : List Byte :=
  le 1 code ++ le 1 (min 255 refused) ++ le 2 off ++ le 4 gen

/-- The moment of step 6, from the anchor: 25 µs for a refusal, else 0.1, 2 per queued packet up to 60, 5
and 3 µs more. -/
def lockEnd (s : State) (ok : Bool) : Nat :=
  s.time + 25 + (if ok then 9 + min 60 (2 * s.queue.length) else 0)

/-- A lock cycle from its anchor on: the status and body of its reply, and the state they are written in. -/
def lockRun (p : Packet) (s : State) : Nat × List Byte × State :=
  match lockCheck s (bit (Packet8 p 0) 0) (Packet32 p 4) with
  | some (code, off) =>
    (0x23, lockBody code 0 off s.pt.gen.toNat, s.onLock fun k => { k with until_ := lockEnd s false })
  | none =>
    let r := recheck (swapTable s)
    let s1 := startWithdrawal s.pt.active r.2
    (0, lockBody 0 r.1 0 s1.pt.gen.toNat, s1.onLock fun k => { k with until_ := lockEnd s true })

/-- An earlier cycle has not reached its step 6 (R230). -/
def lockBusy (s : State) : Bool := decide (s.time < s.lock.until_) || s.lock.waiting != []

def lockCycle (e : Exec) (s : State) : State :=
  if lockBusy s then (leaveLane .house s).onLock fun k => { k with waiting := k.waiting ++ [{ e with phase := .lockWait }] }
  else
    let r := lockRun e.pkt s
    finish .house r.1 r.2.1 none r.2.2

def execLockCycle (s : State) : Host.Outcome State Fault Refusal :=
  .next (onFresh .house 0x0101 lockCycle s)

def execLockCycleDeferredStart (s : State) : Host.Outcome State Fault Refusal :=
  .next <|
    match s.lock.waiting with
    | [] => s
    | e :: es =>
      if s.time < s.lock.until_ then s
      else
        let s1 := s.onLock fun k => { k with waiting := es }
        if expired s e.pkt then replyExec e 0x15 [] none s1
        else
          let r := lockRun e.pkt s1
          replyExec e r.1 r.2.1 none r.2.2

/-! ## Withdrawal (R233) -/

/-- The packets concerned by a withdrawal have ended. -/
def withdrawalReady (s : State) (w : Nat × Option Chain) : Bool :=
  match w.2 with
  | some c => (laneSt s (chainLane c)).all.all fun e => e.pkt.tenant != w.1
  | none => (allExecs s).all fun e => e.pkt.tenant != w.1

/-- One withdrawal: leases revoked with reason 4, then the discards of a disabled tenant,
its waits for a lease among them (R233, R235). -/
def withdraw (w : Nat × Option Chain) (s : State) : State :=
  match w.2 with
  | some c => if (leaseOf s c).holder = some w.1 then revokeLease c 4 s else s
  | none =>
    let s1 := if s.hfLease.holder = some w.1 then revokeLease .hf 4 s else s
    let s2 := if s1.uhfLease.holder = some w.1 then revokeLease .uhf 4 s1 else s1
    drainTenant w.1 (withdrawWaits .uhf w.1 0x51 (withdrawWaits .hf w.1 0x51 s2))

/-- A packet of a tenant that uses a SAM is executing. -/
def samExecuting (s : State) (n k : Nat) : Bool :=
  s.houseLane.all.any fun e => e.pkt.tenant == n && (e.pkt.opcode == 0x0800 || e.pkt.opcode == 0x0801)
    && Packet8 e.pkt 0 == k

/-- A SAM whose holder may no longer hold it is deactivated and released after the holder's packet (R822). -/
def samWithdraw (k : Nat) (s : State) : State :=
  match (if k = 0 then s.sam0 else s.sam1).lease with
  | none => s
  | some n =>
    if (enabled s n && permits s n (10 + k)) || samExecuting s n k then s
    else
      let f := fun (m : Sam) => { m with lease := none }
      let s1 := samOff k s
      if k = 0 then s1.onSam0 f else s1.onSam1 f

def execProtectionWithdrawal (s : State) : Host.Outcome State Fault Refusal :=
  .next <| samWithdraw 1 <| samWithdraw 0 <|
    (s.withdrawn.filter (withdrawalReady s)).foldl (fun s w => preemptDone .uhf (preemptDone .hf (withdraw w s)))
      (s.onWithdrawn fun ws => ws.filter fun w => !withdrawalReady s w)

/-! ## RESET_TENANT (R235–R239, R258) -/

def resetBody (discards : Nat) (hf uhf : Bool) : List Byte :=
  le 2 discards ++ le 1 (b2n hf + 2 * b2n uhf) ++ le 1 0

/-- A disabled tenant with nothing outstanding, or one that is already being reset (R239). -/
def resetIdle (s : State) (n : Nat) : Bool :=
  (tenant s n).resetting
    || (!enabled s n && inRing s n == 0 && (unanswered s).all fun p => p.tenant != n)

def resetTenant (e : Exec) (s : State) : State :=
  let n := Packet8 e.pkt 0
  if 7 < n then finish .house 0x11 [] none s
  else if resetIdle s n then finish .house 0 (resetBody 0 false false) none s
  else
    let count := discardCount n e.pkt.id s
    let s1 := tenantReset n (fun x => x.pkt.tenant == n && x.pkt.id != e.pkt.id) s
    let body := resetBody count (s.hfLease.holder == some n) (s.uhfLease.holder == some n)
    if n = 0 ∧ inRing s1 0 ≠ 0 then
      onExec .house (fun x => { x with phase := .resetWait, partialBody := body }) s1
    else finish .house 0 body none s1

def execResetTenant (s : State) : Host.Outcome State Fault Refusal :=
  .next (onFresh .house 0x0102 resetTenant s)

end Sys2Proof.Machine
end

