-- ==== Sys2Proof/Machine/Reset.lean ====
section
/-! DEFINITION. Resets of every type, and what each leaves (R28, R45, R70, R79–R81, R152, R762–R765). -/

namespace Sys2Proof.Machine

open Sys2Proof

/-! ## NV at a cut (R131, R136, R529, R530) -/

/-- A pool sector whose erase was cut off holds no record (R728, R530). -/
def poolCut (k : Nat) (n : Nv) : Nv :=
  { n with
    pool := n.pool.mapIdx fun i p => if i / 16 = k then .dead else p
    poolBytes := n.poolBytes.mapIdx fun i b => if i / 16 = k then [] else b }

/-- A sector of the key log whose erase was cut off holds no valid entry and is not erased (R728). -/
def logCut (k : Nat) (n : Nv) : Nv :=
  { n with keyEntries := modAt n.keyEntries k fun _ => [[]], keyDirty := k :: n.keyDirty.filter (· != k) }

/-- An erase cut off leaves its sector without valid content. -/
def eraseCut (j : NvJob) (left : Nat) (n : Nv) : Nv :=
  match j.kind with
  | .calStore b _ => if b then { n with calB := .torn } else { n with calA := .torn }
  | .charter _ => { n with charter := .torn, sealPage := .torn, charterBytes := [], sealBytes := [] }
  | .defaults _ => if j.page = 0xE10 then { n with defB := .torn } else { n with defA := .torn }
  | .fwBlock b off _ =>
    let f := fun (k : FwBank) =>
      { eraseSector (off / 4096) k with dirty := off / 4096 :: (eraseSector (off / 4096) k).dirty
                                        act := if off / 4096 = 95 then .torn else k.act
                                        conf := if off / 4096 = 95 then .torn else k.conf }
    if b then { n with fwB := f n.fwB } else { n with fwA := f n.fwA }
  | .breakCharter =>
    if left = 1 then { n with charter := .torn, sealPage := .torn, charterBytes := [], sealBytes := [] }
    else if left = 2 then
      { logCut n.keySector n with keyLog := .noHeader, keyLogFree := 0, slots := List.replicate 64 KeySlot.empty }
    else if left < 8 then logCut (breakTarget n left) n
    else poolCut (17 - left) n
  | .keySector k => poolCut k n
  | _ => n

/-- The controller stops where it is: a commit cut off has no commit word. -/
def nvCut (n : Nv) : Nv :=
  let n1 := match n.job with
    | some j => match j.stage with
      | .erase left => eraseCut j left n
      | _ => n
    | none => n
  rollLost { n1 with job := none, jobs := [], held := [] }

/-! ## The reset itself -/

/-- A reset of the part reaches the words that wait for chip select too. -/
def resetTx (q : PortSt) : Option OpenTx := (cutTx q).map fun o => { o with reset := 0 }

/-- What lies outside the part, or in NV, and what every reset leaves alone; a field that has been cut off has fallen
now (R654). -/
def surroundings (s : State) : State :=
  { State.reset with
    pending := s.pending
    free := s.free
    nv := nvCut s.nv
    pins := s.pins
    pwr := { Pwr.reset with vin := s.pwr.vin, vhold := s.pwr.vhold }
    rng := Rng.reset
    hf := { Hf.reset with fallEnd := if hfEmits s then nowAon s else s.hf.fallEnd }
    portA := { PortSt.reset with vio := s.portA.vio, burst := resetTx s.portA }
    portB := { PortSt.reset with vio := s.portB.vio, burst := resetTx s.portB }
    gpio := { dir := 0, out := 0, level := s.gpio.level }
    therm := { temp := s.therm.temp, raw := s.therm.raw, at_ := s.time, missed := false, warned := false, tripped := false }
    sam0 := { Sam.reset with present := s.sam0.present, downAt := (samSt (samDown 0 s) 0).downAt }
    sam1 := { Sam.reset with present := s.sam1.present, downAt := (samSt (samDown 1 s) 1).downAt } }

/-- A power-on reset reaches everything but NV; the time base starts from 0 (R79, R102). -/
def resetPowerOn (s : State) : State :=
  let r := surroundings s
  { r with
    therm := { r.therm with at_ := 0 }, hf := Hf.reset, sam0 := { r.sam0 with downAt := none }
    sam1 := { r.sam1 with downAt := none } }

/-- 10 s have passed since BOOT_DONE (R765). -/
def stormOver (s : State) : Bool :=
  match s.aon.bootAt with
  | some t => decide (t + 10000000 ≤ nowAon s)
  | none => false

/-- Every other reset spares AON, the time base with it (R79, R102); a storm count that 10 s have ended is 0 (R765). -/
def resetWarm (cause : Nat) (s : State) : State :=
  { surroundings s with
    time := s.time
    aon := { s.aon with
      startCause := cause, bootAt := none, wakeAt := none, storm := if stormOver s then 0 else s.aon.storm } }

/-- A watchdog reset: AON counts it, its storm, and the trial of an unconfirmed bank (R147, R763–R765, R775, R777). -/
def resetWatchdog (origin reason : Nat) (s : State) : State :=
  let soon := !stormOver s
  let trial := s.fw.onTrial
  (resetWarm 2 s).onAon fun a =>
    { a with
      wdtResets := min 0xFFFFFFFF (a.wdtResets + 1)
      wdtFull := a.wdtFull || a.wdtResets == 0xFFFFFFFE
      wdtReport := some (origin, reason)
      storm := if soon then a.storm + 1 else a.storm
      trials := if trial && !s.fw.bankB then a.trials + 1 else a.trials
      trialsB := if trial && s.fw.bankB then a.trialsB + 1 else a.trialsB }

/-- OFF keeps NV and nothing else (R70). -/
def powerOff (s : State) : State := (resetPowerOn s).onPwr fun p => { p with state := .off }

/-- A VIN beyond the absolute maximum (R38, R851). -/
def withinRating (vin : Nat) (t : State) : Host.Outcome State Fault Refusal :=
  if 72000 < vin then .fault .beyondRating else .next t

def setVin (vin : Nat) (s : State) : State := s.onPwr fun p => { p with vin := vin }

/-- R39, R79: the supply node can rise through UVLO only from below it. -/
def execPowerOnReset (vin : Nat) (s : State) : Host.Outcome State Fault Refusal :=
  withinRating vin (if s.pwr.state = .off then resetPowerOn (setVin vin s) else s)

/-- In DEEP_STANDBY V18 and VCORE are off, and UVLO alone watches (R78). -/
def execPowerGoodLoss (s : State) : Host.Outcome State Fault Refusal :=
  .next (if s.pwr.state = .off ∨ s.pwr.state = .deepStandby then s else resetPowerOn s)

/-- Between 0.5 µs and 2 µs the manual says neither that RESETN resets nor that it does not. -/
def execPinReset (lowNs : Nat) (s : State) : Host.Outcome State Fault Refusal :=
  .next <|
    if s.pwr.state = .off ∨ lowNs < 500 then s
    else if 2000 ≤ lowNs then resetWarm 1 s
    else if freeBelow s 2 = 0 then s.useFree
    else resetWarm 1 s.useFree

def execUvloFall (s : State) : Host.Outcome State Fault Refusal := .next (powerOff s)

/-- The crystal has not started: the sequence begins again at step 1 (R117). -/
def execCrystalStartTimeout (s : State) : Host.Outcome State Fault Refusal :=
  .next (if s.pwr.state = .startup then s.onPwr fun p => { p with state := .startup, testEn1 := false } else s)

def execFwActivationReset (s : State) : Host.Outcome State Fault Refusal :=
  .next <|
    match s.fw.activateAt with
    | none => s
    | some t => if t ≤ s.time then resetWarm 4 s else s

/-- The cores run: normal service, recovery service or start-up. -/
def coresRun (s : State) : Bool := s.pwr.state ∈ [.run, .boot, .recovery, .startup]

/-- Expiry of a core's period, and the resets that firmware forces (R762, R763). -/
def watchdogCause (origin reason : Nat) : Bool :=
  (decide (origin < 2) && reason == 0) || (origin == 2 && decide (1 ≤ reason) && decide (reason ≤ 3))

/-- Half a watchdog period in µs: 10 ms for the protocol core, 100 ms for the house core. -/
def halfPeriod (origin : Nat) : Nat := if origin = 0 then 10000 else 100000

/-- The moment of a core's last warning. -/
def warnedAt (s : State) (origin : Nat) : Option Nat := if origin = 0 then s.contain.warnP else s.contain.warnH

/-- The core's second half period ends now, the first having ended with its last warning: a kick in between would have
begun another period. In start-up and recovery service there is no warning (R762; log 195). -/
def halfSince (s : State) (origin : Nat) : Bool :=
  match warnedAt s origin with
  | some t => t + halfPeriod origin == s.time
  | none => !inService s

/-- The watchdogs of both cores count from now on (log 195). -/
def coresStart (s : State) : State := s.onContain fun c => { c with warnP := none, warnH := none, coresFrom := s.time }

/-- The earliest moment at which half a period can have passed without a kick: counted from the last warning, or from
the start of the core's watchdog. -/
def warnDue (s : State) (origin : Nat) : Nat := (warnedAt s origin).getD s.contain.coresFrom + halfPeriod origin

def execWatchdogReset (origin reason : Nat) (s : State) : Host.Outcome State Fault Refusal :=
  .next (if coresRun s && watchdogCause origin reason && (reason != 0 || halfSince s origin) then
    resetWatchdog origin reason s else s)

/-- Payload of source 14 (R764). -/
def watchdogPayload (s : State) (stage origin reason : Nat) : Nat :=
  stage + 4 * origin + 16 * min 15 s.aon.storm + 256 * reason

def execWatchdogWarning (core : CoreId) (s : State) : Host.Outcome State Fault Refusal :=
  .next <|
    let o := match core with
      | .protocol => 0
      | .house => 1
    if inService s && decide (warnDue s o ≤ s.time) then
      raise 14 (watchdogPayload s 0 o 0) (s.onContain fun c =>
        match core with
        | .protocol => { c with warnP := some s.time }
        | .house => { c with warnH := some s.time })
    else s

/-- R765. -/
def execStormCountClear (s : State) : Host.Outcome State Fault Refusal :=
  .next (if stormOver s then s.onAon fun a => { a with storm := 0 } else s)

end Sys2Proof.Machine
end

