-- ==== Sys2Proof/Machine/StartUp.lean ====
section
/-! DEFINITION. The start-up sequence, steps 1 to 11 (R82–R87, R296, R514, R689, R728–R731, R754, R764–R767). -/

namespace Sys2Proof.Machine

open Sys2Proof

/-! ## Step 4: the firmware bank (R142, R143, R147, R148) -/

def actValue (k : FwBank) : Option Nat :=
  match k.act with
  | .valid q => some q
  | _ => none

def confirmed (k : FwBank) : Bool :=
  match k.conf with
  | .valid _ => true
  | _ => false

/-- A valid bank (R142). -/
def bankValid (s : State) (b : Bool) : Bool := (actValue (bankOf s b)).isSome && fwVerdict s (bankOf s b) == 0

/-- The bank whose activation sequence is later is checked first; A where there is no order. -/
def firstBank (s : State) : Bool :=
  match actValue s.nv.fwA, actValue s.nv.fwB with
  | some a, some b => seqEarlier a b
  | none, some _ => true
  | _, _ => false

/-- The trials that AON has counted of a bank (R147). -/
def trialsOf (s : State) (b : Bool) : Nat := if b then s.aon.trialsB else s.aon.trials

/-- A bank on trial has used up its three trials. -/
def trialsUp (s : State) (b : Bool) : Bool := !confirmed (bankOf s b) && decide (3 ≤ trialsOf s b)

/-- The bank that boots by its activation sequence and its validity alone (R143). -/
def firstValid (s : State) : Option Bool :=
  let f := firstBank s
  if bankValid s f then some f else if bankValid s (!f) then some (!f) else none

/-- The bank that boots: the other one where the first has used up its trials and that one is valid (R143, R147); none
enters recovery service. -/
def bootBank (s : State) : Option Bool :=
  (firstValid s).map fun f => if trialsUp s f && bankValid s (!f) then !f else f

/-- The abandoned bank is named in a record of kind 8, once. -/
def abandonBank (b : Bool) (s : State) : State :=
  if firstValid s = some (!b) ∧ trialsUp s (!b) = true ∧ trialsOf s (!b) = 3 then
    logRecord 8 0xFF 0xFF 0 (if b then 0 else 0x60000)
      (s.onAon fun a => if b then { a with trials := 4 } else { a with trialsB := 4 })
  else s

def bootFrom (b : Bool) (s : State) : State :=
  s.onFw fun f =>
    { f with
      bankB := b, secver := bankField (bankOf s b) 12 4, onTrial := !confirmed (bankOf s b)
      version := BitVec.ofNat 32 (bankField (bankOf s b) 8 4) }

/-! ## Step 6: the charter (R512, R514, R521) -/

/-- A field above its charter limit is lowered; which were. -/
def limitField (id : Nat) (s : State) : List Nat × State :=
  match charterLimit s id with
  | none => ([], s)
  | some m => if m < cfgI s id then ([id], setField id m s) else ([], s)

def sealOf (s : State) (c : Charter) : Bool := s.nv.sealPage == .valid c.gen

/-- The hopping LFSR takes its seed from the serial number (R428). -/
def seedHop (s : State) : State := s.onUhf fun u => { u with lfsr := Config.lfsrSeed s.nv.serial }

def startCharter (s : State) : List Nat × State :=
  match s.nv.charter with
  | .valid c =>
    if storedCode s = 0 then
      let s1 := s.onChr fun k => { k with inForce := some c, sealed := sealOf s c }
      let a := limitField 0x200 s1
      let b := limitField 0x300 a.2
      (a.1 ++ b.1, b.2)
    else ([], s)
  | _ => ([], s)

/-! ## Step 7: the calibration bank (R83–R85) -/

/-- The bank chosen: the newer valid user bank, else CAL-F, with its code. -/
def chosenBank (s : State) : Option (Nat × CalData) :=
  match calValid s (!olderBank s), calValid s (olderBank s) with
  | some d, _ => some (1 + b2n (!olderBank s), d)
  | none, some d => some (1 + b2n (olderBank s), d)
  | none, none => (calFactory s).map fun d => (0, d)

/-- Source 15 and its record for one bank. -/
def bankFallback (bank used : Nat) (s : State) : State :=
  let pay := bank + 4 * used
  logRecord 10 15 0xFF pay 0 (raise 15 pay s)

def userBad (s : State) (b : Bool) : Bool :=
  match calRec s b with
  | .erased => false
  | _ => (calValid s b).isNone

/-- Step 7. Several banks are reported in the order CAL-F, CAL-A, CAL-B (R84; log 174). -/
def startCal (s : State) : State :=
  let used := (chosenBank s).map (·.1) |>.getD 3
  let s1 := if (calFactory s).isNone then bankFallback 0 used s else s
  let s2 := if userBad s false then bankFallback 1 used s1 else s1
  let s3 := if userBad s true then bankFallback 2 used s2 else s2
  match chosenBank s with
  | none => s3
  | some (k, d) =>
    lpcdFromBank d.hf (s3.onCal fun c =>
      { c with hf := d.hf, uhf := d.uhf, xoTrim := d.xoTrim, bankHf := k, bankUhf := k, bankCommon := k })

/-! ## Step 8: the key store (R728–R731) -/

def poolBlank (s : State) : Bool := s.nv.pool.all (· == .erased)

/-- The condition of R731. -/
def keyLogBad (s : State) : Bool := s.nv.keyLog == .noHeader && !poolBlank s

/-! ### The log as it lies in NV (R715, R725, R728) -/

/-- A sector whose HEADER and 64 CHECKPOINT entries are all valid. -/
def sectorWhole (l : List (List Byte)) : Bool :=
  (List.range 65).all fun i =>
    let b := nth l i []
    entryValid b && (if i = 0 then fieldOf b 0 1 == 4 else fieldOf b 0 1 == 5 && fieldOf b 1 1 == i - 1)

/-- The generation in a sector's HEADER. -/
def sectorGen (l : List (List Byte)) : Nat := fieldOf (nth l 0 []) 6 4

/-- The newest whole sector. -/
def newestSector (n : Nv) : Option Nat :=
  ((List.range 6).filter fun k => sectorWhole (nth n.keyEntries k [])).foldl (fun best k =>
    match best with
    | none => some k
    | some b => if seqEarlier (sectorGen (nth n.keyEntries b [])) (sectorGen (nth n.keyEntries k [])) then some k else some b)
    none

/-- What step 8 finds of the log: its newest whole sector, and which sectors do not read erased. -/
def findLog (n : Nv) : Nv :=
  let used := fun (from_ : Nat) => ((List.range 6).map fun i => (from_ + 1 + i) % 6).filter fun k => nth n.keyEntries k [] != []
  match newestSector n with
  | some k =>
    let l := nth n.keyEntries k []
    { n with
      keyLog := .valid, keySector := k, keyGen := sectorGen l, keyLogFree := 128 - l.length, keyRollAt := 0
      keyDirty := (used k).filter (· != k) }
  | none =>
    { n with
      keyLog := if used n.keySector = [] then .erased else .noHeader
      keyLogFree := 0, keyRollAt := 0, keyDirty := used n.keySector }

/-- One valid entry applied to a slot (R728). -/
def replayEntry (k : Nat) (x : KeySlot) (b : List Byte) : KeySlot :=
  if !entryValid b || fieldOf b 1 1 != k then x
  else
    let page := fieldOf b 2 1
    let version := fieldOf b 4 2
    let value := fieldOf b 6 4
    match fieldOf b 0 1 with
    | 1 => if bit (fieldOf b 3 1) 7 then { x with page := page } else { x with state := 1, page := page, version := version, ceiling := 0 }
    | 2 => if x.version = version then { x with ceiling := value } else x
    | 3 => { x with state := 3, page := 255 }
    | 5 =>
      let st := fieldOf b 3 1 % 4
      { x with state := if st = 2 then 3 else st, page := if st = 1 then page else 255, version := version, ceiling := value }
    | _ => x

/-- A slot as the newest whole sector has it; the key is in its record. -/
def slotFromLog (s : State) (k : Nat) : State :=
  if s.nv.keyLog ≠ .valid then s
  else
    onSlot k (fun x =>
      let y := (nth s.nv.keyEntries s.nv.keySector []).foldl (replayEntry k) x
      if y.state = 1 then y else { y with key := [], kcv := [] }) s

/-- One slot of the scan. -/
def scanSlot (s : State) (k : Nat) : State :=
  let s0 := slotFromLog s k
  let s1 := dropGone k s0
  let s2 := match (slotOf s1 k).torn with
    | some p =>
      if poolPage s1 p = .shadow k then
        keyIncomplete k 0 (if (slotOf s1 k).state = 0 then 0xFF else (slotOf s1 k).owner) (recordFailed k s1)
      else onSlot k (fun x => { x with torn := none }) s1
    | none => s1
  match (slotOf s2 k).shadow with
  | none => s2
  | some h =>
    if poolPage s2 h.page ≠ .shadow k then onSlot k (fun x => { x with shadow := none }) s2
    else if !recordValid (nth s2.nv.poolBytes h.page []) k h.version then keyIncomplete k 0 h.owner (killShadow k s2)
    else
      keyIncomplete k (if h.entryTorn then 2 else 1) h.owner
        (onSlot k (fun x => { x with shadow := some { h with entryTorn := false } }) s2)

/-- The erase of a log without a header goes on in the background, beside an empty key store (R731). -/
def resumeKeyErase (s : State) : State :=
  if s.nv.keyLog ≠ .noHeader then s
  else
    s.onNv fun n =>
      { n with
        slots := List.replicate 64 KeySlot.empty
        bg := (n.bg.filter fun e => match e with
          | .keyLog _ => false
          | _ => true) ++ [.keyLog n.keyDirty] }

/-- The scan of step 8 over a log that is not bad (R728–R731). -/
def scanKeys (s : State) : State := queueDeadSectors ((List.range 64).foldl scanSlot (resumeKeyErase s))

def startKeys (s0 : State) : State :=
  let s := s0.onNv findLog
  if fenced s 6 then s0
  else if keyLogBad s then fenceUnit 6 10 0 s
  else
    let s1 := scanKeys s
    s1.onKeyUsed fun _ => s1.nv.slots.map (·.ceiling)

/-! ## Steps 9 and 10: the optional units (R689, R754, R766) -/

/-- The sources run, and the expander instantiates once the pool holds one block; until then draws wait (R689). -/
def rngStart (s : State) : State :=
  (nextBlock true 0 (nextBlock false 0 s)).onRng fun r =>
    { r with
      jitterOn := true, noiseOn := true, jitterFails := 0, noiseFails := 0, pool := [], instantiated := false
      seeded := false, calls := 0, stretched := false, waiting := false, reserve := [], buffer := [], started := true
      jitterTest := HealthTest.reset, noiseTest := HealthTest.reset }

def startRng (env : StartEnv) (s : State) : State :=
  if fenced s 4 then s
  else if env.jitterOk && env.noiseOk && env.katOk then rngStart s
  else rngFence (env.jitterOk && !env.noiseOk) (s.onRng fun r => { r with started := true })

/-- FENCE_MAP shows what AON has held. -/
def heldFences (s : State) : State :=
  s.onFence fun f =>
    { f with
      map := BitVec.ofNat 14 (packBits (s.aon.fences.map (· != 0)))
      causes := s.aon.fences, details := s.aon.details }

def fenceNew (u cause : Nat) (s : State) : State :=
  if fenced s u || !fenceable s u then s else fenceUnit u cause 0 s

/-- A reset storm fences five units; a record of kind 9 says so. For a unit that AON keeps fenced it is a further cause
(R751). -/
def stormFence (s : State) : State :=
  if s.aon.storm < 4 then s
  else [0, 1, 8, 9, 10].foldl (fun s u => fenceUnit u 16 0 s) (logRecord 9 0xFF 0xFF 0 0 s)

/-- Step 10: a failing unit is fenced, and so are both chains where no calibration bank is valid (R25, R85; log 121). -/
def selfTests (env : StartEnv) (s : State) : State :=
  (List.range 14).foldl (fun s u =>
    if u ∈ env.failed ∨ (u < 2 ∧ (chosenBank s).isNone) then
      fenceNew u 1 (if u = 4 ∧ fenced s 4 = false then raise 81 2 s else s)
    else s) s

/-- The newest stored default set (R296), its values in the order in which they were stored (log 253); which values were
clamped. -/
def startDefaults (s : State) : List Nat × State :=
  match storedSet s with
  | none => ([], s)
  | some (_, vs) =>
    let a := applyEntries 0 (vs.map fun v => (v.1, fieldOf (leInt 4 v.2) 0 4)) s
    (a.clamps.map (·.field), a.s)

/-! ## Step 11 (R31, R754, R764) -/

/-- A valid calibration bank is in use. -/
def calInUse (s : State) : Bool := s.cal.bankHf != 255

/-- CAL_FALLBACK (R31): CAL-F is in use or not valid, or the user bank stored last is passed over for the older one
(log 121). -/
def calFallback (s : State) : Bool :=
  s.cal.bankHf == 0 || (calFactory s).isNone || (calInUse s && s.nv.calNewer.any (userBad s))

def bootPayload (s : State) : Nat :=
  b2n (!fenced s 0 && calInUse s) + 2 * b2n (!fenced s 1 && calInUse s) + 4 * b2n (!fenced s 4 && !fenced s 6)
    + 8 * b2n s.fw.bankB + 16 * b2n (calFallback s)

/-- A record with the detail words of kind 12. -/
def startRecord (pay : Nat) (s : State) : State :=
  let s1 := logRecord 12 0 0xFF pay 0 s
  s1.onContain fun c =>
    { c with queue := modAt c.queue (c.queue.length - 1) fun r =>
        if r.kind = 12 then { r with detail := [s.fw.bootInfo, BitVec.ofNat 32 (fenceMap s)] } else r }

/-- Source 7 for each clock whose loss led to the reset, from firmware like source 14 before it (R108, R115). -/
def reportClocks (s : State) : State :=
  s.aon.lostClocks.foldl (fun s k => logRecord 5 7 0xFF (k.ctorIdx + 16 * 2) 0 (raiseAs .core 7 (k.ctorIdx + 16 * 2) s))
    (s.onAon fun a => { a with lostClocks := [] })

/-- Source 12 once for a WDT_RESETS that the last watchdog reset has filled (R775). -/
def reportFull (s : State) : State := if s.aon.wdtFull then raise 12 5 (s.onAon fun a => { a with wdtFull := false }) else s

/-- Source 14 after a watchdog reset, then source 7 after a clock loss, and source 12 for a full count. -/
def reportWatchdog (s : State) : State :=
  match s.aon.wdtReport with
  | none => s
  | some (o, r) =>
    let pay := watchdogPayload s 1 o r
    reportFull <| reportClocks (logRecord 4 14 0xFF pay 0 (raise 14 pay (s.onAon fun a => { a with wdtReport := none })))

/-- Source 5 for each unit that AON kept fenced. -/
def reportHeld (held : List Nat) (s : State) : State :=
  held.foldl (fun s u =>
    if u = 7 then s else raise 5 (fencePayload u (nth s.fence.causes u 0) (nth s.fence.details u 0)) s) s

/-- Source 13 for each clamp made before BOOT_DONE. -/
def clampEvents (ids : List Nat) (s : State) : State := ids.foldl (fun s i => clampEvent i s) s

/-- Units that AON shows fenced. -/
def heldUnits (s : State) : List Nat := (List.range 14).filter fun u => nth s.aon.fences u 0 != 0

/-- BOOT_DONE and what follows it at once. -/
def bootDone (held clamps : List Nat) (s : State) : State :=
  let pay := bootPayload s
  let s1 := (s.onFw fun f =>
      { f with booted := true, bootInfo := BitVec.ofNat 32 (pay + 2 ^ 24 * s.aon.startCause + 2 ^ 31) }).onAon
    fun a => { a with bootAt := some s.time }
  let s2 := reportWatchdog (startRecord pay (raise 0 pay s1))
  confirmTry (clampEvents clamps (reportHeld held s2))

/-! ## The sequence -/

/-- Steps 1 to 3: the time base resumes (R102), and C_HOLD is measured or stands in for (R51, R52). -/
def startClocks (env : StartEnv) (s : State) : State :=
  let cold := s.aon.startCause = 0
  { s with
    time := if cold then 0 else s.time + (s.aon.elapsed + env.aonCycles) * 30518 / 1000
    aon := { s.aon with elapsed := 0 }
    pins := { s.pins with testEn := env.testEn }
    pwr := { s.pwr with
      testEn1 := env.testEn, vpaOn := true, vin := env.vin, capNom := env.vholdHigh && s.aon.cHold.isNone } }

/-- Step 5: the early-warning comparator is armed; a VIN that is low already is VIN_WARN at the end of the filter
(R865). -/
def armComparator (s : State) : State :=
  s.onPwr fun p =>
    { p with
      armed := true, below := decide (p.vin < cfg s 0x100), warnAt := s.time + 2, filterAt := s.time + 2
      warnCommit := false }

/-- Step 5: firmware starts from a bank with the fences that AON has held, and step 6 follows 0.10 ms later. -/
def startFirmware (env : StartEnv) (b : Bool) (s : State) : State :=
  let s5 := coresStart (armComparator (heldFences (bootFrom b (abandonBank b s))))
  (s5.onTherm fun t => { t with at_ := s5.time }).onPwr fun p =>
    { p with state := .boot, boot := some ⟨env, 6, s5.time + 100, heldUnits s, []⟩ }

/-- The time from step `k` to the one after it, in µs (R82). -/
def bootGap (k : Nat) : Nat := nth [200, 500, 300, 1000, 100] (k - 6) 0

/-- What is optional is set up: stored defaults, the storm's fences, the self-tests; a chain without a fence is in
STANDBY, and the channel mode is selected (R296, R361, R420, R754, R766). -/
def startUnits (env : StartEnv) (s : State) : List Nat × State :=
  let d := startDefaults (selfTests env (stormFence s))
  let s1 := resetChannel (manualGain d.2)
  (d.1, (s1.onHf fun h => { h with radio := if fenced s1 0 then .sleep else .standby }).onUhf
    fun u => { u with radio := if fenced s1 1 then .sleep else .standby })

/-- A step of start-up from 6 to 10: the fields it clamps and what it does. -/
def bootStage (b : BootRun) (s : State) : List Nat × State :=
  match b.stage with
  | 6 => startCharter (seedHop s)
  | 7 => ([], startCal s)
  | 8 => ([], startKeys s)
  | 9 => ([], startRng b.env s)
  | _ => startUnits b.env s

/-- The next step of start-up, once its moment has come; step 11 opens service. -/
def bootStep (s : State) : State :=
  match s.pwr.boot with
  | none => s
  | some b =>
    if s.time < b.at_ then s
    else if 11 ≤ b.stage then
      bootDone b.held b.clamps (s.onPwr fun p => { p with state := .run, boot := none })
    else
      let r := bootStage b s
      r.2.onPwr fun p =>
        { p with boot := some { b with stage := b.stage + 1, at_ := s.time + bootGap b.stage, clamps := b.clamps ++ r.1 } }

/-- Steps 1 to 5: the boot ROM starts firmware 4.10 ms after the anchor, or 4.70 ms where it has checked a second
bank, which is 2.3 or 2.9 ms after the time base has resumed at step 2 (R82; logs 3 and 210). -/
def startUp (env : StartEnv) (s : State) : State :=
  let s3 := env.nvBad.foldl (fun s r => nvBadChunk r s) (ctrAdd 3 env.nvCorrected (startClocks env s))
  match bootBank s3 with
  | none => (s3.onTime (· + 2900)).onPwr fun p => { p with state := .recovery }
  | some b => startFirmware env b (s3.onTime (· + if bankValid s3 (firstBank s3) then 2300 else 2900))

/-- R81, R82. -/
def execStartUp (env : StartEnv) (s : State) : Host.Outcome State Fault Refusal :=
  withinRating env.vin (if s.pwr.state = .startup then startUp env s else s)

end Sys2Proof.Machine
end

