-- ==== Sys2Proof/Machine/Containment.lean ====
section
/-! DEFINITION. Fence entry from outside, UNFENCE, and the scrubber of the Basin (R743–R761, R768–R770). -/

namespace Sys2Proof.Machine

open Sys2Proof

/-! ## FENCE_ENTRY (R743, R748, R750) -/

/-- DETAIL of a fence: the lost clock's domain for cause 2 (R114). -/
def fenceDetail (s : State) (u cause : Nat) : Nat :=
  if cause ≠ 2 then 0 else if u = 0 then 2 + freeBelow s 2 else if u = 1 then 4 else 7

/-- Start-up alone enters causes 1 and 16. -/
def execFenceEntry (u cause : Nat) (s : State) : Host.Outcome State Fault Refusal :=
  .next <|
    if s.pwr.state ≠ .run ∨ cause = 1 ∨ cause = 16 ∨ fenceCause u cause = false ∨ fenceable s u = false then s
    else
      let s1 := if u = 4 ∧ (cause = 2 ∨ cause = 8) ∧ fenced s 4 = false then raise 81 2 s else s
      fenceUnit u cause (fenceDetail s u cause) s1.useFree

/-! ## UNFENCE (R756–R761, R788) -/

/-- The unit's cause persists (R25, R65, R116, R731, R758): for a chain also while no calibration bank is valid, and for
the key store and the thermal sensor, whatever the cause, with a log that R731 fences for and without a reading of the
last 10 ms inside the limits of R744 (R757). The clock of a sleeping chain runs in its self-test only, so that test
tells of it. -/
def causePersists (s : State) (u : Nat) : Bool :=
  (decide (u < 2) && (chosenBank s).isNone) || (u == 6 && keyLogBad s) || (u == 11 && (implausible s.therm.raw || readingLate s)) ||
  match nth s.fence.causes u 0 with
  | 2 => decide (7 ≤ nth s.fence.details u 0) && nth s.clk.bad (nth s.fence.details u 0) 0 != 0
  | 4 => decide ((cfg s 0x106 : Int) ≤ s.therm.temp)
  | _ => false

/-- A cleared chain is in STANDBY, from where its PLL takes it to SYNTH for a holder (R361, R423, R759). -/
def chainBack (c : Chain) (s0 : State) : State :=
  let s := s0.onClk fun k =>
    let clr := fun (d : Nat) => (match c with | .hf => d == 2 || d == 3 | .uhf => d == 4)
    { k with bad := k.bad.mapIdx fun d n => if clr d then 0 else n, lost := k.lost.mapIdx fun d b => !clr d && b }
  let mine := (leaseOf s c).holder.isSome || (leaseOf s c).granting.isSome
  let p := if mine then Pll.starting else Pll.off
  match c with
  | .hf => setPll .hf p (s.onHf fun h => { h with radio := .standby, bad := 0 })
  | .uhf => setPll .uhf p (s.onUhf fun u => { u with radio := .standby, relock := false, low := 0, alarm := false })

/-- What UNFENCE of the interrupt controller clears (R355). -/
def icCleared (s : State) : State :=
  s.onIc fun i =>
    { i with
      pend := 0, count := List.replicate 128 0, st := List.replicate 128 .idle, marks := List.replicate 32 none
      flight := [] }

/-- The scan of step 8, which is the key store's self-test (R728, R757); RAM keeps the counters that it holds. While a
key entry is being committed the records are left alone. -/
def keysBack (s : State) : State :=
  let s1 := if keyCommitRuns s then s else scanKeys (s.onNv findLog)
  s1.onKeyUsed fun l => l.mapIdx fun k n => if n = 0 then (slotOf s1 k).ceiling else n

/-- The unit after its self-test has passed. -/
def unitBack (u : Nat) (s : State) : State :=
  match u with
  | 0 => chainBack .hf s
  | 1 => chainBack .uhf s
  | 3 => uhfTryRise (uhfRelease (hfRelease s))
  | 4 => rngStart s
  | 6 => keysBack s
  | 7 => icCleared s
  | 11 => s.onTherm fun t => { t with temp := t.raw, at_ := s.time, missed := false, tripped := false }
  | 12 => s.onPortA fun p => { p with errTimes := [] }
  | 13 => s.onPortB fun p => { p with errTimes := [] }
  | _ => s

/-- The FENCE_MAP bit is cleared, with what was kept of the fence. -/
def unmark (u : Nat) (s : State) : State :=
  (s.onFence fun f =>
    { map := f.map &&& ~~~(1#14 <<< u), causes := modAt f.causes u fun _ => 0
      details := modAt f.details u fun _ => 0, attempts := modAt f.attempts u fun _ => 0 }).onAon
    fun a => { a with fences := modAt a.fences u fun _ => 0, details := modAt a.details u fun _ => 0 }

/-- Source 6, with the first cause, and a record of kind 2 (R759). It reaches a cleared interrupt controller
before every other doorbell (R355). -/
def unfenceUnit (u : Nat) (s : State) : State :=
  let pay := fencePayload u (nth s.fence.causes u 0) (nth s.fence.details u 0)
  let s1 := unitBack u (unmark u s)
  logRecord 2 6 0xFF pay 0 (if u = 7 then arbitrate (arrive ⟨6, BitVec.ofNat 24 pay, false⟩ s1) else raise 6 pay s1)

/-- A refusal: one more failed attempt and a record of kind 3 (R760). -/
def unfenceFailed (u : Nat) (s : State) : State :=
  logRecord 3 0xFF 0xFF 0 0 (s.onFence fun f => { f with attempts := modAt f.attempts u fun n => min 255 (n + 1) })

/-- The self-test of the UHF chain measures the return loss `rl` at +5 dBm, in 0.1 dB, where a valid charter enables UHF
(R444, R757). -/
def reflects (s : State) (u rl : Nat) : Bool := u == 1 && uhfAllowed s && decide (rl < cfg s 0x307)

/-- The end of a named unit's self-test. -/
def unfenceOne (failing : List Nat) (rl : Nat) (s : State) (u : Nat) : State :=
  if !fenced s u then s
  else if u ∈ failing ∨ causePersists s u = true ∨ reflects s u rl = true then unfenceFailed u s
  else unfenceUnit u s

/-- How long the self-test of a unit takes, in µs: its limit (R757; log 249). -/
def testTime (u : Nat) : Nat := nth [800, 900, 100, 300, 600, 200, 500, 100, 500, 500, 50, 500, 50, 50] u 0

/-- The answer when every test has ended (R761, R788). -/
def unfenceDone (named : List Nat) (s : State) : State :=
  let mask := fun (us : List Nat) => (us.map (2 ^ ·)).sum
  finish .house 0
    (le 2 (mask (named.filter fun u => !fenced s u)) ++ le 2 (mask (named.filter (fenced s))) ++ le 4 0) none s

/-- The self-test of the next unit begins, or the packet is answered. -/
def testNext (op : TestOp) (s : State) : State :=
  match op.rest with
  | [] => unfenceDone op.named s
  | u :: _ => setPhase .house (.testing { op with endAt := s.time + testTime u, hit := false }) s

/-- What the scan of the key store, its self-test, reads (R728, R757, R772). -/
def testRead (u : Nat) (ecc : EccRead) (s : State) : State :=
  if u = 6 ∧ keyCommitRuns s = false then (eccRead 0xCD000 0xDD000 ecc s).onNv findLog else s

/-- The self-test under way ends. -/
def testEnd (op : TestOp) (s : State) : State :=
  match op.rest with
  | [] => s
  | u :: us =>
    testNext { op with rest := us } (unfenceOne (if op.hit then u :: op.failing else op.failing) op.rl (testRead u op.ecc s) u)

/-- The self-tests of an UNFENCE run one after another (R756, R757). -/
def testTick (s : State) : State :=
  match (execOf s .house).map (·.phase) with
  | some (Phase.testing op) => if op.endAt ≤ s.time then testEnd op s else s
  | _ => s

def unfence (failing : List Nat) (rl : Nat) (ecc : EccRead) (e : Exec) (s : State) : State :=
  let m := Packet16 e.pkt 0
  let named := (List.range 14).filter fun u => bit m u && fenced s u
  testNext ⟨named, named, failing, rl, ecc, 0, false⟩ s

def execUnfence (failing : List Nat) (s : State) (rl : Nat := 255) (ecc : EccRead := {}) :
    Host.Outcome State Fault Refusal :=
  .next (onFresh .house 0x0103 (unfence failing rl ecc) s)

/-! ## BASIN_SCRUB (R768–R770) -/

/-- The tenant in whose pound the page lies. -/
def pageOwner (s : State) (page : Nat) : Option Nat :=
  s.tenants.findIdx? fun t => decide (t.place.first ≤ page) && decide (page < t.place.first + t.place.pages)

/-- The word reads 0 until a write replaces it. -/
def wordLost (a : Nat) (s : State) : State :=
  s.onBasin fun b => { b with mem := cellsWrite b.unlisted b.mem a [0, 0, 0, 0], fenced := a :: b.fenced }

/-- A double-bit error: the page is reported once, and firmware's own words force a reset. -/
def doubleError (a : Nat) (s : State) : State :=
  let page := a / 4096
  let pay := fencePayload 14 17 page
  let fresh : Bool := !s.basin.pages.contains page
  let s1 := ctrAdd 2 1 (wordLost a s)
  let s2 := if fresh then raise 5 pay (s1.onBasin fun b => { b with pages := page :: b.pages }) else s1
  let s3 := logRecord 6 (if fresh then 5 else 0xFF) ((pageOwner s page).getD 0xFF) (if fresh then pay else 0) a s2
  if (pageOwner s page).isSome then s3 else resetWatchdog 2 1 s3

def execBasinScrub (addr bits : Nat) (s : State) : Host.Outcome State Fault Refusal :=
  .next <|
    let a := addr / 4 * 4
    if inService s = false ∨ basinSize ≤ a ∨ bits = 0 ∨ a ∈ s.basin.fenced then s
    else if bits = 1 then ctrAdd 1 1 s
    else doubleError a s

end Sys2Proof.Machine
end

