-- ==== Sys2Proof/Machine/Gpio.lean ====
section
/-! DEFINITION. The general-purpose pins (R827–R830, R838). -/

namespace Sys2Proof.Machine

open Sys2Proof

/-- Owner of a pin (R827). -/
def pinOwnedBy (s : State) (pin tenant : Nat) : Bool := cfg s (0x710 + pin) == tenant

/-- Level of a pin: what it drives, or what it reads. -/
def pinLevel (s : State) (pin : Nat) : Bool :=
  if s.gpio.dir.getLsbD pin then s.gpio.out.getLsbD pin else s.gpio.level.getLsbD pin

/-- Levels of a tenant's pins, 0 for the others. -/
def ownLevels (s : State) (tenant : Nat) : Nat :=
  packBits ((List.range 4).map fun i => pinOwnedBy s i tenant && pinLevel s i)

/-- Bits that a mask names take new values. -/
def maskedBits (m v old : BitVec 4) : BitVec 4 := (old &&& ~~~m) ||| (v &&& m)

def gpioSet (e : Exec) (s : State) : State :=
  let p := e.pkt
  let w := fun i => BitVec.ofNat 4 (Packet8 p i)
  if (List.range 4).any fun i => bit (Packet8 p 0) i && !pinOwnedBy s i p.tenant then finish .house 0x12 [] none s
  else
    let s1 := s.onGpio fun g => { g with dir := maskedBits (w 0) (w 1) g.dir, out := maskedBits (w 0) (w 2) g.out }
    finish .house 0 (le 1 (ownLevels s1 p.tenant) ++ le 3 0) none s1

def execGpioSet (s : State) : Host.Outcome State Fault Refusal :=
  .next (onFresh .house 0x0810 gpioSet s)

/-- The edges that field 0x0714 + n selects: 1 rising, 2 falling, 3 both. -/
def edgeSelected (s : State) (n : Nat) (level : Bool) : Bool := bit (cfg s (0x714 + n)) (if level then 0 else 1)

def setPinLevel (n : Nat) (level : Bool) (s : State) : State :=
  s.onGpio fun g => { g with level := maskedBits (BitVec.ofNat 4 (2 ^ n)) (if level then 15 else 0) g.level }

/-- A level other than the one before, stable for the debounce time of field 0x0718. -/
def execGpioEdge (n : Nat) (level : Bool) (s : State) (stableUs : Nat := 100000) :
    Host.Outcome State Fault Refusal :=
  .next <|
    if 3 < n ∨ s.gpio.level.getLsbD n = level ∨ stableUs < cfg s 0x718 then s
    else
      let s1 := setPinLevel n level s
      if s.pwr.state = .run ∧ s.gpio.dir.getLsbD n = false ∧ edgeSelected s n level = true then
        raise (100 + n) (b2n level) s1
      else s1

end Sys2Proof.Machine
end

