-- ==== Sys2Proof/Machine/Moments.lean ====
section
/-! DEFINITION. The moments of a frame, a rise and a fall on both chains, and what waited for them (R365–R370,
R411, R413, R419, R425, R431, R439, R459, R462, R574, R603, R660). -/

namespace Sys2Proof.Machine

open Sys2Proof

/-! ## End of an own frame (R367, R438, R585) -/

/-- An initiator that has asked for something waits for the answer. -/
def peerAwaits (s : State) : Bool :=
  match s.peer with
  | none => false
  | some p => !p.target && (p.stage == .atrWait || p.stage == .reqSent)

/-- The reply window opens. -/
def hfWindow (s : State) : State := s.onHf fun h => { h with wait := some (s.time + h.waitLen) }

/-- What follows the own frame `f` on HF, now ended. -/
def hfSentFrame (f : HfFrame) (s : State) : State :=
  if s.emu.armed then emuBlockSent (hfBoundary s)
  else if s.peer.isSome then
    let s1 := peerFrameEnd f (hfBoundary s)
    if peerAwaits s1 then hfWindow s1 else s1
  else if noReply f then hfContinue .noSof none 0 1000 (hfBoundary s)
  else hfWindow s

def hfFrameEnd (s : State) : State :=
  match s.hf.tx with
  | none => s
  | some f =>
    let s1 := s.onHf fun h => { h with tx := none, radio := if hfEmits s then .rx else .listen }
    hfSentFrame f (if hfEmits s then captureFrameEnd .hf s1 else s1)

def uhfFrameEnd (s : State) : State :=
  match s.uhf.tx with
  | none => s
  | some f =>
    let s1 := captureFrameEnd .uhf (s.onUhf fun u => { u with tx := none, radio := .rx })
    if uhfNoReply f then uhfContinue .noSof none 0 1000 (uhfBoundary s1)
    else s1.onUhf fun u => { u with wait := some (s.time + u.waitLen) }

def execReaderFrameEnd (c : Chain) (s : State) : Host.Outcome State Fault Refusal :=
  .next (match c with
    | .hf => withWaiting .hf hfWaiter hfFrameEnd s
    | .uhf => uhfFrameEnd s)

/-! ## A reply window without a frame (R491, R584, R603, R615) -/

def windowOver (s : State) (w : Option Nat) : Bool := w.any fun t => decide (t ≤ s.time)

def hfSilence (s : State) : State :=
  let s1 := hfBoundary (s.onHf fun h => { h with wait := none, sof := false })
  if s1.peer.isSome then peerSilent s1 else hfContinue .noSof none 0 1000 s1

def uhfSilence (s : State) : State :=
  uhfContinue .noSof none 0 1000 (uhfBoundary (s.onUhf fun u => { u with wait := none, sof := false }))

def execReplyWindowTimeout (c : Chain) (s : State) : Host.Outcome State Fault Refusal :=
  .next (match c with
    | .hf => if windowOver s s.hf.wait then withWaiting .hf hfWaiter hfSilence s else s
    | .uhf => if windowOver s s.uhf.wait then uhfSilence s else s)

/-! ## The field has risen or settled (R370, R411, R413, R574) -/

/-- A measurement that lit the field for itself is made, and the field falls again. -/
def hfMeasured (e : Exec) (vals : List Int) (body : List Byte) (s : State) : State :=
  if e.pkt.opcode = 0x0306 then setPhase .hf (.runFall body) (hfFall 0 (tuneApply e body s))
  else
    let r := runOf e.pkt vals s
    setPhase .hf (.runFall r.1) (hfFall 0 r.2)

/-- What waited for the field. -/
def hfRisen (s : State) : State :=
  match (s.hfLane.exec.map fun e => (e, e.phase) : Option (Exec × Phase)) with
  | some (_, .fieldRise) | some (_, .settle) => finish .hf 0 (hfFieldBody s) none s
  | some (e, .runRise vals body) => hfMeasured e vals body s
  | some (e, .runOn vals body) =>
    if e.pkt.opcode = 0x0306 then finish .hf 0 body none (tuneApply e body s) else runNow .hf e vals s
  | _ => if s.peer.isSome then peerFieldUp s else hfRelease s

/-- The loop has settled: source 16, and the towpath measures the carrier anew. -/
def fieldUp (iAnt drive : Nat) (s : State) : State :=
  let s1 := loopSettled iAnt drive (s.onHf fun h => { h with on := true, rising := false, radio := .rx, onAt := s.time, measAt := s.time })
  hfRisen (raise 16 s1.hf.step (addDue .hf [.null, .noise] s1))

/-- The loop has settled after a change of step or load (R366). -/
def fieldSettled (iAnt drive : Nat) (s : State) : State :=
  let s1 := loopSettled iAnt drive s
  if (s.hfLane.exec.map fun e => e.phase) = some .settle ∧ loopDone iAnt drive s = true then
    finish .hf 0 (hfFieldBody s1) none s1
  else s1

/-- The rise ends no sooner than R369 and R370 say. Where the drive is held, the loop does not move (R367, R380). -/
def execFieldRiseDone (iAnt : Nat) (s : State) (drive : Nat := 0) : Host.Outcome State Fault Refusal :=
  .next <| s |> withWaiting .hf hfWaiter fun s =>
    if s.hf.rising then (if s.hf.riseEnd ≤ s.time then fieldUp iAnt drive s else s)
    else if hfLit s && s.hf.nextStep.isNone && !driveHeld s then fieldSettled iAnt drive s
    else s

/-! ## The field has fallen (R369, R406, R411, R413, R668) -/

/-- The HF packet that waited for the end of the fall: an action 1 lights the field anew, unless the packet is to
end. -/
def hfFellPacket (s : State) : State :=
  match s.hfLane.exec with
  | none => s
  | some e =>
    match e.phase with
    | .fieldFall =>
      if Packet8 e.pkt 0 ≠ 1 then finish .hf 0 (hfFieldBody s) none s
      else if (stopDue s e).isSome then s
      else hfLight e s
    | .runWait vals body =>
      if (stopDue s e).isSome then s
      else if e.pkt.opcode = 0x0306 then tuneLight body s
      else hfRunLight e vals s
    | .runFall body => finish .hf 0 body none s
    | _ => s

/-- A LEASE_RELEASE that waited for a fall. -/
def releaseFell (c : Chain) (s : State) : State :=
  let ph : Phase := match c with
    | .hf => .fieldFall
    | .uhf => .carrierFall
  if (s.houseLane.exec.map fun e => e.phase) = some ph then finish .house 0 [] none s else s

/-- The card handling of a lane finds no card after a fall, and ends (R588, R589, R610). -/
def deselectFell (l : LaneId) (s : State) : State :=
  s |> withWaiting l houseWaiter fun s =>
    match execOf s l with
    | some e =>
      match e.phase with
      | .deselect op => if (stopDue s e).isSome then s else deselectGo l op s
      | _ => s
    | none => s

/-- What follows the end of the field. -/
def hfFell (s : State) : State :=
  peerFieldDown (deselectFell .hf (deselectFell .house (hfFellPacket (releaseFell .hf s))))

def execHfFieldFallDone (s : State) : Host.Outcome State Fault Refusal :=
  .next <| s |> withWaiting .hf hfWaiter fun s =>
    match s.hf.falling with
    | none => s
    | some cause => if s.hf.fallEnd ≤ s.time then hfFell (hfFieldGone cause s) else s

/-! ## The carrier has risen or settled (R419, R459, R462, R574, R575) -/

/-- A detector point begins its hold time with the carrier on. -/
def holdBegins (e : Exec) (s : State) : State :=
  s.onCal fun c => { c with holdUntil := s.time + 1000 * (Packet32 e.pkt 4 / 2 ^ 16) }

/-- What waited for the carrier. -/
def uhfRisen (s : State) : State :=
  match (s.uhfLane.exec.map fun e => (e, e.phase) : Option (Exec × Phase)) with
  | some (_, .carrierRise) | some (_, .settle) => finish .uhf 0 (uhfCarrierBody s) none s
  | some (_, .channel) =>
    if s.uhf.nextChannel.isSome then uhfBoundary s else finish .uhf 0 (uhfChannelBody s) none s
  | some (e, .runRise vals _) =>
    let r := runOf e.pkt vals s
    setPhase .uhf (.runFall r.1) (uhfFall .off r.2)
  | some (e, .runOn vals _) => runNow .uhf e vals s
  | some (e, .calHold _) => holdBegins e s
  | _ => uhfRelease s

/-- The chain is in RX, and the towpath measures the carrier anew. -/
def carrierUp (fwd : Int) (rl : Nat) (s : State) : State :=
  let s1 := s.onUhf fun u => { u with on := true, rising := false, radio := .rx, fwd := fwd }
  uhfRisen (rlMeasured rl (addDue .uhf [.null, .offset, .noise] s1))

/-- A new output has settled. -/
def carrierSettled (fwd : Int) (s : State) : State :=
  let s1 := s.onUhf fun u => { u with fwd := fwd }
  if (s.uhfLane.exec.map fun e => e.phase) = some .settle then finish .uhf 0 (uhfCarrierBody s1) none s1 else s1

/-- The rise ends no sooner than R417 says; in a frame and its reply window the drive is held (R438). -/
def execCarrierRiseDone (fwd : Int) (rl : Nat) (s : State) : Host.Outcome State Fault Refusal :=
  .next <| s |> withWaiting .uhf uhfWaiter fun s =>
    if s.uhf.rising then (if s.uhf.riseEnd ≤ s.time then carrierUp fwd rl s else s)
    else if uhfLit s && s.uhf.nextPower.isNone && !uhfInFrame s then carrierSettled fwd s
    else s

/-! ## The carrier has fallen (R419, R425, R431, R459, R462) -/

/-- The UHF packet that waited for the end of the fall. -/
def uhfFellPacket (s : State) : State :=
  match s.uhfLane.exec with
  | none => s
  | some e =>
    match e.phase with
    | .carrierFall =>
      if Packet8 e.pkt 0 ≠ 1 then finish .uhf 0 (uhfCarrierBody s) none s
      else if (stopDue s e).isSome then s
      else uhfLight e s
    | .channel => finish .uhf 0 (uhfChannelBody s) none s
    | .runWait vals _ => if (stopDue s e).isSome then s else uhfRunLight e vals s
    | .runFall body => finish .uhf 0 body none s
    | .calHold _ => uhfTryRise s
    | _ => s

/-- What follows the end of the carrier: the way back on a hop, a rest or a relock, else the packets that
waited. -/
def uhfFell (why : FallFor) (s : State) : State :=
  match why with
  | .hop | .rest | .relock => afterMove why s
  | _ => uhfFellPacket (releaseFell .uhf (channelAtFall s))

def execCarrierFallDone (s : State) : Host.Outcome State Fault Refusal :=
  .next <| s |> withWaiting .uhf uhfWaiter fun s =>
    match s.uhf.falling with
    | none => s
    | some why => if s.uhf.fallEnd ≤ s.time then uhfFell why (uhfCarrierGone s) else s

end Sys2Proof.Machine
end

