-- ==== Sys2Proof/Machine/Power.lean ====
section
/-! DEFINITION. The supply, the hold-up estimate, the thermal sensor, the clock monitor, the spread option and
the VIO monitors (R36–R66, R94, R111–R125, R847–R849, R865). -/

namespace Sys2Proof.Machine

open Sys2Proof

/-! ## Early warning (R36, R40–R44, R865) -/

/-- The comparator works in every state but DEEP_STANDBY, OFF and the first steps of start-up (R78, R865). -/
def comparatorOn (s : State) : Bool := s.pwr.armed && s.pwr.state ∈ [.run, .boot, .retain, .lpcd]

/-- VIN falls through the threshold: the filter starts, or starts again where VIN had only reached the hysteresis
band. In an episode the 1 ms is over at once, also for a dip shorter than the filter (log 172). -/
def execVinBelowThreshold (vin : Nat) (s : State) : Host.Outcome State Fault Refusal :=
  withinRating vin <|
    if !comparatorOn s || decide (cfg s 0x100 ≤ vin) then s
    else s.onPwr fun p =>
      { p with
        vin := vin, below := true, aboveAt := none
        warnAt := if p.warn then p.warnAt else nowAon s
        filterAt := nowAon s + 2
        warnCommit := if p.warn then p.warnCommit else commitRunning s }

/-- SAM n draws on VPA in the given classes. -/
def samInClass (s : State) (n : Nat) (cls : List Nat) : Bool :=
  let m := if n = 0 then s.sam0 else s.sam1
  m.stage != .off && cls.contains m.cls

/-- SAM packets of the house lane that use SAM n end with a status. -/
def stopSam (n st : Nat) (s : State) : State :=
  let f := fun (e : Exec) =>
    if (e.pkt.opcode = 0x0800 ∨ e.pkt.opcode = 0x0801) ∧ Packet8 e.pkt 0 = n ∧ e.stop = none then { e with stop := some st }
    else e
  s.onHouseLane fun x => { x with exec := x.exec.map f, susp := x.susp.map f }

/-- A powered SAM in one of the classes is deactivated, its packet ending with a status. -/
def shedSam (cls : List Nat) (st n : Nat) (s : State) : State :=
  if samInClass s n cls then samOff n (stopSam n st s) else s

/-- Step 2 of R40. -/
def shedLoad (s : State) : State :=
  let s1 := (s.onHfLane (stopTransmit s 0x42)).onUhfLane (stopTransmit s 0x42)
  shedSam [1] 0x42 1 (shedSam [1] 0x42 0 (uhfFall .off (hfFall 2 (peerFieldLost s1))))

/-- The filter of 2 µs has expired with VIN still below. -/
def execVinEarlyWarn (vin : Nat) (s : State) : Host.Outcome State Fault Refusal :=
  withinRating vin <|
    if !comparatorOn s || !s.pwr.below || s.pwr.warn || decide (cfg s 0x100 ≤ vin) || decide (nowAon s < s.pwr.filterAt) then s
    else
      shedLoad ((raise 1 (min 65535 (vin / 10) + 2 ^ 16 * b2n s.pwr.warnCommit) s).onPwr fun p =>
        { p with vin := vin, warn := true, aboveAt := none })

/-- Hysteresis of 0.3 V on the rising side; in an episode the 1 ms starts (R43). -/
def execVinAboveHysteresis (vin : Nat) (s : State) : Host.Outcome State Fault Refusal :=
  withinRating vin <|
    if !comparatorOn s || decide (vin ≤ cfg s 0x100 + 300) then s
    else s.onPwr fun p =>
      { p with vin := vin, below := false, aboveAt := if p.warn then some (nowAon s) else none }

/-- VIN has stayed above for 1 ms: the episode ends (R43, R44). -/
def execVinRecovered (vin : Nat) (s : State) : Host.Outcome State Fault Refusal :=
  withinRating vin <|
    match s.pwr.aboveAt with
    | none => s
    | some t =>
      if comparatorOn s ∧ s.pwr.warn ∧ t + 1000 ≤ nowAon s ∧ cfg s 0x100 + 300 < vin then
        raise 2 (min 65535 (vin / 10) + 2 ^ 16 * min 255 ((nowAon s - s.pwr.warnAt) / 10000))
          (s.onPwr fun p => { p with vin := vin, warn := false, aboveAt := none })
      else s

/-! ## VPA (R59) -/

/-- Fences of both chains with a cause, and the end of the SAMs that draw on VPA. -/
def vpaLost (cause detail : Nat) (s : State) : State :=
  shedSam [1, 2] 0x23 1 (shedSam [1, 2] 0x23 0 (fenceUnit 1 cause detail (fenceUnit 0 cause detail s)))

/-- The buck regulates from start-up step 3 on. -/
def execVpaFault (s : State) : Host.Outcome State Fault Refusal :=
  .next (if inService s then vpaLost 3 0 s else s)

/-! ## Hold-up estimate (R46, R49–R52, R86) -/

/-- The falling UVLO threshold of the estimate, in mV. -/
def uvlof (s : State) : Nat := ((calF s).map (·.uvlof)).getD 8600

/-- The CK-PWR trim, always that of CAL-F (R539); without it CK-PWR runs untrimmed (R86). -/
def ckPwrTrim (s : State) : Option Nat := (calF s).map (·.ckPwr)

/-- C_HOLD in units of 0.1 µF. -/
def capHold (s : State) : Nat := s.aon.cHold.getD (if s.pwr.capNom then 10 * cfg s 0x105 else 0)

/-- E_HOLD in µJ times 10^10. -/
def eHoldRaw (s : State) (vhold : Nat) : Nat :=
  if capHold s < 100 ∨ vhold ≤ uvlof s then 0 else 425 * capHold s * (vhold * vhold - uvlof s * uvlof s)

/-- P_SHED in mW times the number of samples held: their sum over the last 16 ms, at least 250 mW each (R46). -/
def shedSum (l : List Int) : Nat := max (250 * l.length) l.sum.toNat

/-- Once every 100 µs. -/
def execHoldupUpdate (vhold pIn pVpa : Nat) (s : State) : Host.Outcome State Fault Refusal :=
  .next <|
    if s.pwr.state ∈ [.off, .deepStandby] ∨ nowAon s < s.pwr.holdAt then s
    else
      let l := (((pIn : Int) - pVpa) :: s.pwr.shed).take 160
      let e := eHoldRaw s vhold
      s.onPwr fun p =>
        { p with
          vhold := vhold, shed := l, holdAt := nowAon s + 100, eHold := roundDiv e (10 ^ 10)
          tHold := roundDiv (1000 * e * l.length) (10 ^ 10 * shedSum l) }

/-- R51: at power-on and after DEEP_STANDBY. -/
def execCholdMeasured (c : Nat) (s : State) : Host.Outcome State Fault Refusal :=
  .next <|
    if coresRun s = true ∧ s.aon.startCause ∈ [0, 3] ∧ s.pwr.capNom = false then s.onAon fun a => { a with cHold := some c }
    else s

/-! ## Thermal sensor (R61–R66, R562, R744) -/

/-- Source 3 on the way up and 5 °C below. -/
def thermWarn (t : Int) (s : State) : State :=
  let thr : Int := cfg s 0x106
  if !s.therm.warned ∧ thr ≤ t then
    raise 3 (tempByte t + 2 ^ 8) (s.onTherm fun x => { x with warned := true })
  else if s.therm.warned ∧ t ≤ thr - 5 then raise 3 (tempByte t) (s.onTherm fun x => { x with warned := false })
  else s

/-- At 135 °C: source 4 and both chains fenced, once until the temperature is below it again. -/
def thermTrip (t : Int) (s : State) : State :=
  if t < 135 then s.onTherm fun x => { x with tripped := false }
  else if s.therm.tripped then s
  else fenceUnit 1 4 0 (fenceUnit 0 4 0 (raise 4 (tempByte t) (s.onTherm fun x => { x with tripped := true })))

/-- A synthesiser recalibration becomes due (R562). -/
def thermRecal (s : State) : State :=
  if cfg s 0x403 ≤ absDiff (tempByte s.therm.temp) s.cal.uhf.refTemp then s.onTow fun t => { t with recalDue := true } else s

def thermRead (t : Int) (s : State) : State :=
  thermTrip t (thermRecal (refit (thermWarn t (s.onTherm fun x => { x with temp := t }))))

/-- One sample every 1 ms. An implausible one fences the sensor; of a fenced sensor it is a further cause where the one
before was plausible (R751), and its readings otherwise serve its self-test alone. -/
def execThermalSample (t : Int) (s : State) : Host.Outcome State Fault Refusal :=
  .next <|
    if !inService s || decide (s.time < s.therm.at_ + 1000) then s
    else
      let s1 := s.onTherm fun x => { x with at_ := s.time, raw := t, missed := false }
      if implausible t && !(fenced s 11 && implausible s.therm.raw) then fenceUnit 11 13 0 s1
      else if fenced s 11 then s1
      else thermRead t s1

/-- No new reading for 10 ms fences the sensor, once; of a fenced sensor it is a further cause (R744, R751). -/
def execThermalReadingTimeout (s : State) : Host.Outcome State Fault Refusal :=
  .next <|
    if inService s = true ∧ s.therm.missed = false ∧ readingLate s = true then
      fenceUnit 11 13 0 (s.onTherm fun x => { x with missed := true })
    else s

/-! ## Clock monitor (R111–R122) -/

/-- Nominal frequency of a domain in kHz (R92); 0 for one that is not monitored. -/
def nominalKhz : Clock → Nat
  | .xo => 27120
  | .hftx => 54240
  | .hfrx => 13560
  | .uhfbb => 32000
  | .core => 240000
  | .fab => 120000
  | .sec => 96000
  | .lpd => 2000
  | .pwr => 2200
  | _ => 0

/-- Nominal count in a window times 1000, and the window in µs (R111): 16 µs, for CK-AON 2 ms at 32.768 kHz. -/
def windowUs : Clock → Nat
  | .aon => 2000
  | _ => 16

def nominalMilli (k : Clock) : Nat :=
  match k with
  | .aon => 65536
  | _ => 16 * nominalKhz k

/-- Outside ±12.5 % of the nominal count. -/
def countBad (k : Clock) (n : Nat) : Bool := decide (nominalMilli k < 8 * absDiff (1000 * n) (nominalMilli k))

/-- Clocks that the monitor watches: not the ring oscillators and the port clocks, nor the clock of a chain in
SLEEP or STANDBY (R111, R122). -/
def monitored (s : State) : Clock → Bool
  | .rnga | .rngb | .pa | .pb => false
  | .hftx | .hfrx => !chainRests s .hf
  | .uhfbb => !chainRests s .uhf
  | _ => true

/-- One window of a clock, no sooner than its length after the one before: a second bad window in a row declares the
clock lost. A loss that stays is declared again only after a good window (log 173). -/
def countWindow (s : State) (x : Clock × Nat) : State :=
  let i := x.1.ctorIdx
  if !monitored s x.1 || decide (s.time < nth s.clk.next i 0) then s
  else
    s.onClk fun c =>
      if countBad x.1 x.2 then
        { c with next := modAt c.next i (fun _ => s.time + windowUs x.1), bad := modAt c.bad i fun n => min 2 (n + 1) }
      else
        { c with next := modAt c.next i (fun _ => s.time + windowUs x.1), bad := modAt c.bad i (fun _ => 0)
                 lost := modAt c.lost i fun _ => false }

/-- Clocks declared lost in this window, in the order of R92. -/
def newlyLost (s : State) : List Clock :=
  [Clock.aon, .xo, .hftx, .hfrx, .uhfbb, .core, .fab, .sec, .lpd, .pwr].filter fun k =>
    nth s.clk.bad k.ctorIdx 0 == 2 && !nth s.clk.lost k.ctorIdx false

def markLost (ks : List Clock) (s : State) : State :=
  ks.foldl (fun s k => s.onClk fun c => { c with lost := modAt c.lost k.ctorIdx fun _ => true }) s

/-- The loss calls for a reset (R113). -/
def lossResets (s : State) : Clock → Bool
  | .aon => !s.aon.crystal
  | .xo | .core | .fab | .lpd => true
  | _ => false

/-- Source 7 and its record (R114, R780). -/
def clockFault (k : Clock) (outcome : Nat) (s : State) : State :=
  let pay := k.ctorIdx + 16 * outcome
  logRecord 5 7 0xFF pay 0 (raise 7 pay s)

/-- A monitored count starts anew. -/
def clockFresh (k : Clock) (s : State) : State :=
  s.onClk fun c => { c with bad := modAt c.bad k.ctorIdx (fun _ => 0), lost := modAt c.lost k.ctorIdx fun _ => false }

/-- A loss that does not reset: fall-back, whose new source is watched from its first window on, or fences. The HF
field is off with the fence where its clock still drove it (R112). -/
def lossActs (s : State) (k : Clock) : State :=
  match k with
  | .aon => clockFault k 0 (clockFresh .aon (s.onAon fun a => { a with crystal := false }))
  | .hftx | .hfrx =>
    let s1 := fenceUnit 0 2 k.ctorIdx (clockFault k 1 s)
    if hfEmits s1 then hfFell (hfFieldGone 3 s1) else s1
  | .uhfbb => fenceUnit 1 2 k.ctorIdx (clockFault k 1 s)
  | .sec =>
    let s1 := clockFault k 1 s
    let s2 := if fenced s1 4 then s1 else raise 81 2 s1
    fenceUnit 6 2 7 (fenceUnit 5 2 7 (fenceUnit 4 2 7 s2))
  | .pwr => (vpaLost 2 k.ctorIdx (clockFault k 1 s)).onPwr fun p => { p with vpaOn := false }
  | _ => s

/-- The reset for lost clocks, after which each is reported (R114, R115). -/
def clockReset (ks : List Clock) (s : State) : State := resetWatchdog 3 4 (s.onAon fun a => { a with lostClocks := ks })

/-- Once field and carrier have fallen, a loss of CK-XO resets the part (R113). -/
def xoReset (s : State) : State :=
  if s.clk.xoLost ≠ [] ∧ hfEmits s = false ∧ uhfEmits s = false then clockReset s.clk.xoLost s else s

/-- CK-XO is lost: field and carrier fall on the PLLs' holdover (R113). -/
def xoLoss (ks : List Clock) (s : State) : State :=
  xoReset (uhfFall .off (hfFall 3 ((markLost ks s).onClk fun c => { c with xoLost := ks })))

/-- A loss that resets the part at once. -/
def resetsNow (s : State) (k : Clock) : Bool := k != .xo && lossResets s k

/-- R119: one loss that calls for a reset makes all of them a reset. A further loss during the falls for CK-XO joins it
(log 238). -/
def clockLosses (ks : List Clock) (s : State) : State :=
  if ks.any (resetsNow s) then clockReset (s.clk.xoLost ++ ks) s
  else if s.clk.xoLost ≠ [] then (markLost ks s).onClk fun c => { c with xoLost := c.xoLost ++ ks }
  else if ks.contains .xo then xoLoss ks s
  else ks.foldl lossActs (markLost ks s)

/-- The monitor works from start-up step 2 or 3 on, in recovery service too (R122). -/
def monitorOn (s : State) : Bool := inService s || s.pwr.state == .recovery

def execClockMonitorWindow (counts : List (Clock × Nat)) (s : State) : Host.Outcome State Fault Refusal :=
  .next <|
    if !monitorOn s then s
    else
      let s1 := counts.foldl countWindow s
      clockLosses (newlyLost s1) s1

/-- The check of the external crystal over 1 s: within ±500 ppm it is the source of CK-AON, else the internal RC
is (R94). -/
def execAonCrystalSelect (s : State) (ok : Bool := true) : Host.Outcome State Fault Refusal :=
  .next (if s.pwr.state = .off then s else s.onAon fun a => { a with crystal := ok })

/-- The drivers hold their outputs off; frame and field end without the shaped fall, and source 17 comes with the
fence (R112, R406). -/
def execHfDriverClockStop (s : State) : Host.Outcome State Fault Refusal :=
  .next <|
    if hfEmits s then
      hfFell ((hfFieldOut (hfFall 3 (s.onHfLane (stopTransmit s 0x13)))).onHf fun h => { h with cut := true })
    else s

/-! ## Spread spectrum (R123, R124) -/

/-- What field 0x0103 asks for takes effect at the turning point. -/
def execSpreadTurningPoint (s : State) : Host.Outcome State Fault Refusal :=
  .next (s.onClk fun c => { c with spreadOn := c.spreadOn && cfg s 0x103 == 1 })

/-! ## VIO monitors (R847–R849) -/

/-- VIO at `mv`, at or above 1.71 V for the last `us` µs: present after 10 µs; else the last declaration stays (R847).
-/
def execVioPresent (p : Port) (s : State) (mv : Nat := 1710) (us : Nat := 10) : Host.Outcome State Fault Refusal :=
  .next (if 1710 ≤ mv ∧ 10 ≤ us then onPort p (fun q => { q with vio := true }) s else s)

/-- The TRUNC of a transaction that loses VIO, with the whole words that wait for its end; a transaction that had no
effect any more reports nothing. `cut` is the address of a transaction that the state does not hold (R197, R212, R849).
-/
def vioCut (p : Port) (cut : Option Nat) (s : State) : State :=
  let s1 := onPort p (fun q => { q with stall := none, burst := none }) s
  match (portSt s p).burst, (portSt s p).stall with
  | some o, _ => match o.kind with
    | .live | .misaligned => lateWords o (txError p o 2 (cut.getD o.addr) s1)
    | .silent | .dead => lateWords o s1
  | none, some st => portError p 2 (cut.getD st.addr) s1
  | none, none => match cut with
    | some a => portError p 2 a s1
    | none => s1

/-- VIO at `mv`: below 1.5 V it is absent, and a transaction in progress ends as TRUNC; between the levels the last
declaration stays (R847, R849). -/
def execVioAbsent (p : Port) (cut : Option Nat) (s : State) (mv : Nat := 0) : Host.Outcome State Fault Refusal :=
  .next <|
    if 1500 ≤ mv then s
    else onPort p (fun q => { q with vio := false, stall := none, burst := none, rdata := [] })
      (if portUp s p then vioCut p cut s else s)

end Sys2Proof.Machine
end

