-- ==== Sys2Proof/Machine/Sam.lean ====
section
/-! DEFINITION. The SAM interfaces: activation and its ATR, exchanges by T=0 and T=1, leases, card detect and the
current limit (R809–R826, R833–R837). -/

namespace Sys2Proof.Machine

open Sys2Proof

/-! ## Clock and waiting times (R813, R819, R820) -/

/-- The divisor of 120 MHz for a clock field in kHz. -/
def samDiv (khz : Nat) : Nat := max 15 (min 120 (ceilDiv 120000 khz))

/-- WT of T=0, or BWT of T=1 (ISO/IEC 7816-3), in µs. -/
def samWt (m : Sam) : Nat :=
  if m.proto = 0 then 8 * m.wi * m.fi * m.div
  else ceilDiv (11 * m.fi * m.div) (120 * m.di) + 2976 * 2 ^ m.wi * m.div

/-- CWT of T=1 (ISO/IEC 7816-3), in µs. -/
def samCwt (m : Sam) : Nat := ceilDiv ((11 + 2 ^ m.cwi) * m.fi * m.div) (120 * m.di)

/-! ## ATR (ISO/IEC 7816-3, as R814, R817, R818 and R820 name it) -/

/-- Fi and Di by their codes in TA1; 0 where a code is reserved. -/
def fiOf (c : Nat) : Nat := nth [372, 372, 558, 744, 1116, 1488, 1860, 0, 0, 512, 768, 1024, 1536, 2048] c 0
def diOf (c : Nat) : Nat := nth [0, 1, 2, 4, 8, 16, 32, 64, 12, 20] c 0

/-- One group of interface bytes: TA, TB, TC and TD where the map announces them. -/
structure AtrGroup where
  ta : Option Nat
  tb : Option Nat
  tc : Option Nat
  td : Option Nat
deriving DecidableEq, Repr

/-- The byte that a bit of the map announces, and the bytes after it. -/
def announced (on : Bool) (bs : List Byte) : Option Nat × List Byte :=
  if on then (bs.head?.map (·.toNat), bs.drop 1) else (none, bs)

/-- Groups of interface bytes, and what follows them. -/
def atrGroups : Nat → Nat → List Byte → List AtrGroup × List Byte
  | 0, _, bs => ([], bs)
  | k + 1, y, bs =>
    let a := announced (bit y 0) bs
    let b := announced (bit y 1) a.2
    let c := announced (bit y 2) b.2
    let d := announced (bit y 3) c.2
    let g : AtrGroup := ⟨a.1, b.1, c.1, d.1⟩
    match d.1 with
    | none => ([g], d.2)
    | some td =>
      let r := atrGroups k (td / 16) d.2
      (g :: r.1, r.2)

def noGroup : AtrGroup := ⟨none, none, none, none⟩

/-- What an ATR says: its protocol, the offer of TA1, specific mode, IFSC, WI or BWI, CWI, and whether T=1 uses
CRC. -/
structure AtrInfo where
  valid : Bool
  proto : Nat
  fi : Nat
  di : Nat
  specific : Option Nat
  ifsc : Nat
  wi : Nat
  bwi : Nat
  cwi : Nat
  crc : Bool
deriving DecidableEq, Repr

/-- TCK is there where a protocol other than T=0 is offered, and makes the sum over the bytes after TS 0. -/
def tckOk (gs : List AtrGroup) (hist : Nat) (rest bytes : List Byte) : Bool :=
  if gs.any (fun g => g.td.any fun t => t % 16 != 0) then
    rest.length == hist + 1 && (bytes.drop 1).foldl (· ^^^ ·) 0 == 0
  else rest.length == hist

/-- Fi and Di that the interface takes up of an offer (R818). -/
def offered (ta1 : Nat) : Nat × Nat :=
  let f := fiOf (ta1 / 16)
  let d := diOf (ta1 % 16)
  if f = 0 ∨ d = 0 ∨ f < 8 * d then (372, 1) else (f, d)

def atrInfo (bytes : List Byte) : AtrInfo :=
  let t0 := (nth bytes 1 0).toNat
  let r := atrGroups 4 (t0 / 16) (bytes.drop 2)
  let g := fun k => nth r.1 k noGroup
  let t := ((g 0).td.map (· % 16)).getD 0
  let o := offered ((g 0).ta.getD 0x11)
  { valid := decide (2 ≤ bytes.length) && decide (bytes.length ≤ 33) && (nth bytes 0 0 == 0x3B || nth bytes 0 0 == 0x3F)
      && tckOk r.1 (t0 % 16) r.2 bytes
    proto := t, fi := o.1, di := o.2, specific := (g 1).ta, ifsc := (g 2).ta.getD 32
    wi := (g 1).tc.getD 10, bwi := ((g 2).tb.map (· / 16)).getD 4, cwi := ((g 2).tb.map (· % 16)).getD 13
    crc := ((g 2).tc.map fun c => bit c 0).getD false }

/-! ## SAM_POWER (R812–R818, R835) -/

/-- The executing packet that uses interface n, with its progress. -/
def samUser (s : State) (n : Nat) : Option Exec :=
  match s.houseLane.exec with
  | none => none
  | some e =>
    match e.phase with
    | .samPower op => if op.n = n then some e else none
    | .samXchg op => if op.n = n then some e else none
    | _ => none

/-- Body of SAM_POWER; while the interface is off, what follows the class is not stated. -/
def samPowerBody (s : State) (n : Nat) : List Byte :=
  let m := samSt s n
  if m.stage = .off then le 1 0 ++ le 6 (freeBelow s (2 ^ 48)) ++ le 1 0 ++ le 8 (freeNth s 1 (2 ^ 64))
  else
    le 1 m.cls ++ le 1 m.proto ++ le 2 m.fi ++ le 1 m.di ++ le 1 m.atr.length ++ le 1 m.ifsc ++ le 1 0
      ++ le 4 (120000000 / m.div) ++ le 4 (samWt m)

def samPowerEnd (op : SamPowerOp) (status : Nat) (s : State) : State :=
  finish .house status (samPowerBody s op.n) none s.useFree

/-- The budget reserve of a class (R55). -/
def classReserve (cls : Nat) : Nat := if cls = 1 then 500 else if cls = 2 then 400 else 0

/-- The reserve fits beside the grants of both chains (R53–R55), outside a warning episode (R42). -/
def reserveFits (s : State) (cls : Nat) : Bool :=
  let hf := if s.pwr.uhfGrant = 0 then s.pwr.hfGrant else max (cfg s 0x102) s.pwr.hfGrant
  classReserve cls == 0 || (!s.pwr.warn && decide (classReserve cls + hf + s.pwr.uhfGrant ≤ chainBudget s))

/-- Activation of one class begins (R814). -/
def samActivate (op : SamPowerOp) (s : State) : State :=
  if !reserveFits s op.cls then samPowerEnd op 0x42 (samDown op.n s)
  else
    let d := samDiv (cfg s (0x700 + op.n))
    setPhase .house (.samPower op) (onSam op.n (fun m =>
      { m with
        stage := .atrWait, cls := op.cls, atr := [], proto := 0, fi := 372, di := 1, ifsc := 32, wi := 10
        div := d, crc := false, waitAt := some (s.time + 205 + ceilDiv (40450 * d) 120)
        upAt := some s.time, rstAt := s.time + 205 + ceilDiv (450 * d) 120 }) s)

/-- Sn_RST goes low and high again with Sn_VCC kept. -/
def samWarm (op : SamPowerOp) (s : State) : State :=
  setPhase .house (.samPower op) (onSam op.n (fun m =>
    { m with
      stage := .atrWait, atr := [], proto := 0, fi := 372, di := 1, ifsc := 32, wi := 10, crc := false
      waitAt := some (s.time + ceilDiv (40450 * m.div) 120), rstAt := s.time + ceilDiv (450 * m.div) 120 }) s)

/-- No valid ATR: the next class after the off time, or the end. -/
def samAtrFailed (op : SamPowerOp) (status : Nat) (s : State) : State :=
  let s1 := samDown op.n s
  match op.tryNext with
  | [] => samPowerEnd op status s1
  | c :: cs =>
    setPhase .house (.samPower { op with cls := c, tryNext := cs }) (onSam op.n (fun m => { m with stage := .offWait }) s1)

/-- The lease of interface n is the packet's, and no FORCE waits for it (R811, R812). -/
def samLeased (s : State) (n tenant : Nat) : Bool :=
  (samSt s n).lease == some tenant && (samSt s n).releaseTo.isNone

def samPower (e : Exec) (s : State) : State :=
  let p := e.pkt
  let n := Packet8 p 0
  let act := Packet8 p 1
  let cls := Packet8 p 2
  if 1 < n ∨ 2 < act ∨ 3 < cls then finish .house 0x11 [] none s
  else if !samLeased s n p.tenant then finish .house 0x14 [] none s
  else
    let op : SamPowerOp :=
      { n := n, pps := bit (Packet8 p 3) 0, cls := if cls = 0 then 3 else cls
        tryNext := if cls = 0 then [2, 1] else [], off := Packet32 p 4, ppsSent := false, warm := act == 2 }
    if act = 0 then samPowerEnd op 0 (samDown n s)
    else if act = 1 then samActivate op (samDown n s)
    else if (samSt s n).stage = .ready then samWarm { op with cls := (samSt s n).cls, tryNext := [] } s
    else finish .house 0x23 (samPowerBody s n) none s.useFree

def execSamPower (s : State) : Host.Outcome State Fault Refusal :=
  .next (onFresh .house 0x0800 samPower s)

/-- SAM_POWER ends with the interface in use, its ATR in the pound. -/
def samInUse (op : SamPowerOp) (tenant status : Nat) (s : State) : State :=
  let s1 := onSam op.n (fun m => { m with stage := .ready, waitAt := none }) s
  samPowerEnd op status (if op.off = 0 then s1 else poundWrite tenant op.off (samSt s op.n).atr s1)

/-- A block of the IFS exchange goes out, and its answer is awaited. -/
def samIfsFor (op : SamPowerOp) (times : Nat) (s : State) : State :=
  setPhase .house (.samPower op) (onSam op.n (fun m => { m with stage := .ifsWait, waitAt := some (s.time + times * samWt m) }) s)

/-- S(IFS request) failed: two retransmissions, then S(RESYNCH) once. Then the command ends, and the interface stays
powered with the length of 32 that holds before any request (log 242). -/
def samIfsError (op : SamPowerOp) (tenant status : Nat) (s : State) : State :=
  if op.tries < 2 then samIfsFor { op with tries := op.tries + 1 } 1 s
  else if !op.resynched then samIfsFor { op with resynched := true } 1 s
  else samInUse op tenant status s

/-- What answers S(IFS request), and its S(RESYNCH). -/
def samIfsNext (op : SamPowerOp) (tenant : Nat) (rx : SamRx) (s : State) : State :=
  match rx with
  | .sIfs => samInUse op tenant 0 (onSam op.n (fun m => { m with ifsd := cfg s 0x705 }) s)
  | .sWtx m => samIfsFor op (max 1 m) s
  | .sResynch => if op.resynched then samIfsFor { op with tries := 0 } 1 s else samIfsError op tenant 0x23 s
  | .parity | .edcError => samIfsError op tenant 0x22 s
  | _ => samIfsError op tenant 0x23 s

/-- Activation is done: its parameters are in force. With T=1, S(IFS request) with the IFSD of field 0x0705 follows
(R820). -/
def samReady (op : SamPowerOp) (tenant : Nat) (atr : List Byte) (i : AtrInfo) (proto fi di : Nat) (s : State) : State :=
  let s1 := onSam op.n (fun m =>
    { m with
      stage := .ready, atr := atr, proto := proto, fi := fi, di := di, ifsc := i.ifsc, crc := i.crc
      ifsd := 32, cwi := i.cwi, wi := if proto = 1 then i.bwi else i.wi, waitAt := none }) s
  if proto = 1 then samIfsFor { op with tries := 0, resynched := false } 1 s1 else samInUse op tenant 0 s1

/-- The valid ATR of an activation: specific mode, PPS, or the defaults (R817, R818). -/
def samAtr (op : SamPowerOp) (tenant : Nat) (atr : List Byte) (ppsOk : Bool) (s : State) : State :=
  let i := atrInfo atr
  match i.specific with
  | some ta2 =>
    if bit ta2 4 then samReady op tenant atr i (ta2 % 16) 372 1 s else samReady op tenant atr i (ta2 % 16) i.fi i.di s
  | none =>
    if !op.pps || op.ppsSent then samReady op tenant atr i i.proto 372 1 s
    else if ppsOk then samReady op tenant atr i i.proto i.fi i.di s
    else samActivate { op with ppsSent := true, tryNext := [] } (samDown op.n s)

/-- Sn_RST is high: step 3 of R814 is over. -/
def rstHigh (s : State) (n : Nat) : Bool := decide ((samSt s n).rstAt ≤ s.time)

def execSamAtrReceived (n : Nat) (atr : List Byte) (ppsOk : Bool) (s : State) : Host.Outcome State Fault Refusal :=
  .next <| s |> withWaiting .house (samWaiter n) fun s =>
    match samUser s n with
    | none => s
    | some e =>
      match e.phase with
      | .samPower op =>
        if (samSt s n).stage ≠ .atrWait || !rstHigh s n then s
        else if (atrInfo atr).valid then samAtr op e.pkt.tenant atr ppsOk s
        else samAtrFailed op 0x23 s
      | _ => s

def execSamAtrTimeout (n : Nat) (s : State) : Host.Outcome State Fault Refusal :=
  .next <| s |> withWaiting .house (samWaiter n) fun s =>
    match samUser s n with
    | none => s
    | some e =>
      match e.phase with
      | .samPower op =>
        if (samSt s n).stage = .atrWait ∧ windowOver s (samSt s n).waitAt = true then samAtrFailed op 0x20 s else s
      | _ => s

def execSamClassRetry (n : Nat) (s : State) : Host.Outcome State Fault Refusal :=
  .next <| s |> withWaiting .house (samWaiter n) fun s =>
    match samUser s n with
    | none => s
    | some e =>
      match e.phase with
      | .samPower op =>
        if (samSt s n).stage = .offWait ∧ (samSt s n).offAt + 10000 ≤ s.time then samActivate op s else s
      | _ => s

/-! ## SAM_EXCHANGE (R819–R823, R836) -/

/-- The wait for the next answer begins. -/
def samWaitFor (op : SamXchgOp) (times : Nat) (s : State) : State :=
  setPhase .house (.samXchg op) (onSam op.n (fun m => { m with waitAt := some (s.time + times * samWt m) }) s)

/-- Response bytes to the pound, as far as the maximum allows, and the reply. Without status bytes SW1 and SW2 are
not stated. -/
def samXchgEnd (op : SamXchgOp) (status : Nat) (sw : Option (Byte × Byte)) (s : State) : State :=
  match s.houseLane.exec with
  | none => s
  | some e =>
    let bs := op.rsp.take op.rspMax
    let swBytes := match sw with
      | some (a, b) => [a, b]
      | none => le 2 (freeBelow s (2 ^ 16))
    finish .house (if op.rspMax < op.rsp.length then 0x23 else status)
      (le 2 bs.length ++ le 1 (min 255 op.retrans) ++ le 1 (min 255 op.waits) ++ swBytes ++ le 2 0) none
      (State.useFree (poundWrite e.pkt.tenant op.rspOff bs (onSam op.n (fun m => { m with waitAt := none }) s)))

/-- An exchange fails. After 0x20 or 0x23 in T=1 the interface stays powered; what T=0 does is not stated. -/
def samXchgFail (op : SamXchgOp) (status : Nat) (s : State) : State :=
  let s1 := samXchgEnd op status none s
  if (samSt s op.n).proto = 0 ∧ freeNth s 1 2 = 1 then samOff op.n s1 else s1

/-- The last two bytes of a response. -/
def lastTwo (bs : List Byte) : Option (Byte × Byte) :=
  match bs.reverse with
  | b :: a :: _ => some (a, b)
  | _ => none

/-- A T=0 command: the header of 5 bytes goes out, then the data after its procedure byte. -/
def t0Send (op : SamXchgOp) (cmd : List Byte) (s : State) : State :=
  samWaitFor { op with cmd := cmd, rest := cmd.drop 5, tries := 0 } 1 s

/-- The status words of a T=0 command, with the automatic commands of AUTO_GR. -/
def t0Status (op : SamXchgOp) (sw1 sw2 : Byte) (s : State) : State :=
  if op.autoGr ∧ sw1 = 0x61 then t0Send op [nth op.cmd 0 0, 0xC0, 0, 0, sw2] s
  else if op.autoGr ∧ sw1 = 0x6C then t0Send op (op.cmd.take 4 ++ [sw2]) s
  else samXchgEnd { op with rsp := op.rsp ++ [sw1, sw2] } 0 (some (sw1, sw2)) s

def t0Next (op : SamXchgOp) (rx : SamRx) (s : State) : State :=
  match rx with
  | .ack => samWaitFor { op with rest := [], tries := 0 } 1 s
  | .null => samWaitFor { op with waits := op.waits + 1, tries := 0 } 1 s
  | .data bs => samWaitFor { op with rsp := op.rsp ++ bs, tries := 0 } 1 s
  | .sw a b => t0Status op a b s
  | .parity =>
    if op.tries < 3 then samWaitFor { op with tries := op.tries + 1, retrans := op.retrans + 1 } 1 s
    else samXchgFail op 0x22 s
  | _ => samXchgFail op 0x23 s

/-- Sends the next I-block of a T=1 command. -/
def t1Send (op : SamXchgOp) (s : State) : State :=
  samWaitFor { op with rest := op.rest.drop (samSt s op.n).ifsc, tries := 0 } 1 s

/-- A block failed: two retransmissions, then S(RESYNCH) once, then the end. -/
def t1Error (op : SamXchgOp) (status : Nat) (s : State) : State :=
  if op.tries < 2 then samWaitFor { op with tries := op.tries + 1, retrans := op.retrans + 1 } 1 s
  else if !op.resynched then samWaitFor { op with resynched := true } 1 s
  else samXchgFail op status s

def t1Next (op : SamXchgOp) (rx : SamRx) (s : State) : State :=
  match rx with
  | .rBlock err => if err then t1Error op 0x22 s else if op.rest = [] then t1Error op 0x23 s else t1Send op s
  | .iBlock more inf =>
    if (samSt s op.n).ifsd < inf.length then t1Error op 0x23 s else
    let op1 := { op with rsp := op.rsp ++ inf, rest := [], tries := 0 }
    if more then samWaitFor op1 1 s
    else match lastTwo op1.rsp with
      | some sw => samXchgEnd op1 0 (some sw) s
      | none => samXchgFail op1 0x23 s
  | .sWtx m => samWaitFor { op with waits := op.waits + 1 } (max 1 m) s
  | .sIfs => samWaitFor op 1 s
  | .sResynch => if op.resynched then t1Send { op with rest := op.cmd, rsp := [] } s else t1Error op 0x23 s
  | .parity | .edcError => t1Error op 0x22 s
  | _ => t1Error op 0x23 s

def samExchange (e : Exec) (s : State) : State :=
  let p := e.pkt
  let n := Packet8 p 0
  let len := Packet16 p 2
  let m := Packet16 p 12
  if 1 < n ∨ len < 4 ∨ 4096 < len ∨ m < 2 ∨ 4096 < m then finish .house 0x11 [] none s
  else if !samLeased s n p.tenant then finish .house 0x14 [] none s
  else if (samSt s n).stage ≠ .ready then finish .house 0x23 [] none s
  else
    let cmd := poundRead s p.tenant (Packet32 p 4) len
    let op : SamXchgOp :=
      { n := n, autoGr := bit (Packet8 p 1) 0, cmd := cmd, rest := cmd, rsp := [], rspOff := Packet32 p 8
        rspMax := m, retrans := 0, waits := 0, tries := 0, resynched := false }
    if (samSt s n).proto = 0 then t0Send op cmd s else t1Send op s

def execSamExchange (s : State) : Host.Outcome State Fault Refusal :=
  .next (onFresh .house 0x0801 samExchange s)

/-- What a block of T=1 counts as whose characters came up to `gap` µs apart: one that broke CWT is a failed block
(R820; log 201). -/
def samBlock (m : Sam) (rx : SamRx) (gap : Nat) : SamRx := if m.proto ≠ 0 ∧ samCwt m < gap then .bad else rx

/-- What a character or a block is to the packet that waits for it. A packet that is to stop does so here, between two
of them (R286, R821). -/
def samRx (n : Nat) (rx : SamRx) (e : Exec) (s : State) : State :=
  let m := samSt s n
  match e.phase, m.stage, stopDue s e with
  | .samXchg op, .ready, some st => samXchgEnd op st none s
  | .samXchg op, .ready, none => if m.proto = 0 then t0Next op rx s else t1Next op rx s
  | .samPower op, .ifsWait, some st => samPowerEnd op st (samDown n s)
  | .samPower op, .ifsWait, none => samIfsNext op e.pkt.tenant rx s
  | _, _, _ => s

def execSamRxBlock (n : Nat) (rx : SamRx) (s : State) (gap : Nat := 0) : Host.Outcome State Fault Refusal :=
  .next <| s |> withWaiting .house (samWaiter n) fun s =>
    match samUser s n with
    | none => s
    | some e => samRx n (samBlock (samSt s n) rx gap) e s

def execSamWaitTimeout (n : Nat) (s : State) : Host.Outcome State Fault Refusal :=
  .next <| s |> withWaiting .house (samWaiter n) fun s =>
    match samUser s n with
    | none => s
    | some e =>
      match e.phase with
      | .samXchg op =>
        if (samSt s n).stage = .ready ∧ windowOver s (samSt s n).waitAt = true then samXchgFail op 0x20 s else s
      | .samPower op =>
        if (samSt s n).stage = .ifsWait ∧ windowOver s (samSt s n).waitAt = true then samIfsError op e.pkt.tenant 0x20 s
        else s
      | _ => s

/-! ## SAM_LEASE (R811, R822, R837) -/

def samLeaseBody (s : State) (n : Nat) : List Byte :=
  le 1 ((samSt s n).lease.getD 0xFF) ++ le 1 (b2n ((samSt s n).stage != .off && (samSt s n).stage != .offWait)) ++ le 2 0

/-- The lease passes, and the command ends. -/
def samLeaseGive (n tenant : Nat) (s : State) : State :=
  let s1 := onSam n (fun m => { m with lease := some tenant, releaseTo := none }) s
  finish .house 0 (samLeaseBody s1 n) none s1

/-- FORCE: the former holder's SAM packet, which can only be suspended now, finishes first. Until then the command is
suspended too, and each of its later turns looks again. -/
def samLeaseForce (n : Nat) (e : Exec) (s : State) : State :=
  match (samSt s n).lease with
  | none => samLeaseGive n e.pkt.tenant s
  | some h =>
    if h ≠ e.pkt.tenant ∧ samExecuting s h n = true then
      (onSam n (fun m => { m with releaseTo := some e.pkt.tenant }) s).onHouseLane fun l =>
        { l with exec := none, susp := l.susp ++ [{ e with phase := .leaseEnd, suspended := true }] }
    else samLeaseGive n e.pkt.tenant s

/-- Release: the interface deactivates, then the lease becomes free. A suspended SAM packet of the caller ends. -/
def samRelease (n : Nat) (s : State) : State :=
  let s1 := onSam n (fun m => { m with lease := none, releaseTo := none }) (samDown n (stopSam n 0x14 s))
  finish .house 0 (samLeaseBody s1 n) none s1

def samLease (e : Exec) (s : State) : State :=
  let p := e.pkt
  let n := Packet8 p 0
  let act := Packet8 p 1
  if 1 < n ∨ 1 < act then finish .house 0x11 [] none s
  else if act = 1 then
    (if (samSt s n).lease = some p.tenant then samRelease n s else finish .house 0x14 (samLeaseBody s n) none s)
  else if bit (Packet8 p 2) 0 then samLeaseForce n e s
  else if (samSt s n).lease.isNone then samLeaseGive n p.tenant s
  else finish .house 0x14 (samLeaseBody s n) none s

def execSamLease (s : State) : Host.Outcome State Fault Refusal :=
  .next (onFresh .house 0x0802 samLease s)

/-! ## Card detect and current limit (R745, R810, R824, R826, R833) -/

/-- An event payload of source 98 or 99. -/
def samEvent (n kind : Nat) (s : State) : State := raise (98 + n) (0xFF + kind * 2 ^ 8) s

def cardInserted (n : Nat) (s : State) : State := samEvent n 1 (onSam n (fun m => { m with present := true }) s)

/-- Removal deactivates at once, and an exchange in progress ends with 0x20. -/
def cardRemoved (n : Nat) (s : State) : State :=
  let s1 := samEvent n 2 (onSam n (fun m => { m with present := false }) s)
  if (samSt s n).stage = .off then s1 else samDown n (stopSam n 0x20 s1)

/-- What a level of Sn_DET says by the polarity of fields 0x0702 and 0x0703. -/
def detPresent (s : State) (n : Nat) (high : Bool) : Bool := decide (cfg s (0x702 + n) = 1) == high

/-- Sn_DET is watched from start-up step 10 (R826). -/
def detArmed (s : State) : Bool :=
  s.pwr.state == .run || (s.pwr.state == .boot && s.pwr.boot.any fun b => decide (10 < b.stage))

/-- A level of Sn_DET, stable for the debounce time of field 0x0704. -/
def execSamCardDetect (n : Nat) (high : Bool) (s : State) (stableUs : Nat := 100000) :
    Host.Outcome State Fault Refusal :=
  .next <|
    let present := detPresent s n high
    if !detArmed s ∨ 1 < n ∨ (samSt s n).present = present ∨ stableUs < 1000 * cfg s 0x704 then s
    else if present then cardInserted n s
    else cardRemoved n s

/-- The interface draws current. -/
def samPowered (s : State) (n : Nat) : Bool := samSupplied (samSt s n)

/-! ## The lines of an interface (R814, R815) -/

/-- A line that came up `up` µs after SAM_ADMITTED, and goes down `down` µs after a deactivation (log 243). -/
def samLineUp (m : Sam) (up down now : Nat) : Bool :=
  match m.upAt, m.downAt with
  | some t, _ => decide (t + up ≤ now)
  | none, some (t, d) => decide (t + up ≤ d ∧ now < d + down)
  | none, none => false

/-- Sn_VCC is enabled, and Sn_VCC is within R809, the moment from which Sn_CLK runs and Sn_IO is released. -/
def samVccOn (m : Sam) (now : Nat) : Bool := samLineUp m 5 3 now
def samVccGood (m : Sam) (now : Nat) : Bool := samLineUp m 205 3 now
def samClkRuns (m : Sam) (now : Nat) : Bool := samLineUp m 205 1 now
def samIoFree (m : Sam) (now : Nat) : Bool := samLineUp m 205 2 now
def samRstHigh (m : Sam) (now : Nat) : Bool := m.upAt.isSome && decide (m.rstAt ≤ now)

def execSamCurrentLimitActive (n : Nat) (s : State) : Host.Outcome State Fault Refusal :=
  .next <|
    if 1 < n ∨ samPowered s n = false then s
    else samEvent n 3 (onSam n (fun m => { m with limitAt := some s.time }) s)

def execSamOvercurrent (n : Nat) (s : State) : Host.Outcome State Fault Refusal :=
  .next <|
    if 1 < n then s
    else
      match (samSt s n).limitAt with
      | none => s
      | some t => if t + 1000 ≤ s.time then fenceUnit (8 + n) 14 0 s else s

end Sys2Proof.Machine
end

