-- ==== Sys2Proof/Machine/Yield.lean ====
section
/-! DEFINITION. Admission with its resumed packets, and yield points: where a packet stops, is suspended, or goes on
with what it waited for (R279–R289, R607, R748, R821). -/

namespace Sys2Proof.Machine

open Sys2Proof

/-! ## Where a yield point lies (R281, R282, R607, R821) -/

/-- The lane's packet waits for an NV job that has begun. -/
def jobRuns (s : State) (l : LaneId) : Bool := s.nv.job.any fun j => j.lane == some l

/-- A frame of the lane's chain is in flight. -/
def laneInFrame (s : State) : LaneId → Bool
  | .hf => hfInFrame s
  | .uhf => uhfInFrame s
  | .house => hfOwner s == some .house && hfInFrame s

/-- The output of the lane's chain falls. -/
def laneFalls (s : State) : LaneId → Bool
  | .hf => s.hf.falling.isSome
  | .uhf => s.uhf.falling.isSome
  | .house => s.hf.falling.isSome || s.uhf.falling.isSome

/-- The executing packet can yield: not inside a frame, a fall that it waits for, an NV program or erase, or the
self-tests of UNFENCE. -/
def atYield (s : State) (l : LaneId) (e : Exec) : Bool :=
  !laneInFrame s l && (match e.phase with
    | .nv _ | .breaking _ | .cipherUse _ | .stageUse | .keyErase => !jobRuns s l
    | .fieldFall | .carrierFall | .runFall _ | .runWait _ _ => !laneFalls s l
    | .testing _ => false
    | _ => true)

/-- Phases in which a packet can be suspended: all but the waits that the hardware ends within 12.1 ms, a fall, a rise
of the field, a settling, a measurement or the self-tests of UNFENCE, which have no yield point inside (R282;
log 189). -/
def suspendable : Phase → Bool
  | .sense _ | .fieldRise | .fieldFall | .carrierFall | .runWait _ _ | .runFall _ | .runOn _ _ | .tuneWait _
  | .testing _ => false
  | _ => true

/-! ## Stops (R286, R608, R748) -/

/-- The carrier that a packet waits for does not come. -/
def dropRise (s : State) : State :=
  if uhfEmits s then s else giveUpRise s

/-- A detector point is let go; the carrier goes on at the power in force, or at what fits of it. -/
def dropHold (s : State) : State :=
  let s1 := dropRise (s.onCal fun c => { c with holding := none })
  if uhfLit s1 then uhfReturn s1 else s1

/-- What a packet that stops leaves behind. -/
def stopEffect (l : LaneId) (st : Nat) (e : Exec) (s : State) : State :=
  match e.phase with
  | .iso op => if st = 0x15 then onCard op.handle (fun c => { c with state := 4 }) s else s
  | .calHold _ => dropHold s
  | .sense _ => stopSense s
  | .tuneWait _ => s.onHf fun h => { h with nextCodes := none }
  | .calOsc => s.onCal fun c => { c with osc := none }
  | .carrierRise => dropRise s
  | .runRise _ _ => if l = .uhf then dropRise s else s
  | .emuRespond => s.onEmu fun m => { m with rest := [] }
  | .specWait _ => s.onSpec fun m => { m with queue := m.queue.filter fun q => q.2 != some l }
  | .peerStart => hfIdle (peerOff s)
  | .peerXchg | .peerSwap => peerAlone s
  | .draw _ => if e.pkt.opcode = 0x0512 then swapDropped s else s
  | .samPower op => samDown op.n s
  | .samXchg op => onSam op.n (fun m => { m with waitAt := none }) s
  | .leaseEnd => if e.pkt.opcode = 0x0802 then onSam (Packet8 e.pkt 0) (fun m => { m with releaseTo := none }) s else s
  | .nv _ | .breaking _ | .cipherUse _ | .stageUse | .keyErase =>
    stopNv l st e s
  | _ => s

/-- The frame that a packet still held is not sent. -/
def dropHeld (l : LaneId) (s : State) : State :=
  match l with
  | .hf => s.onHf fun h => { h with held := none }
  | .uhf => s.onUhf fun u => { u with held := none }
  | .house => if hfOwner s = some .house then s.onHf fun h => { h with held := none } else s

/-- Body of a packet that stops: that of its chapter for an exchange cut off, or none. -/
def stopBody (s : State) (st : Nat) (e : Exec) : List Byte :=
  match e.phase with
  | .iso op => isoBody op (st == 0x15)
  | .emuRespond => emuRespondBody s
  | .peerXchg => if e.pkt.opcode = 0x0511 then exchangeBody s 0 else []
  | .peerSwap => swapBody s false
  | .samPower op => samPowerBody (samDown op.n s) op.n
  | .nv _ | .breaking _ | .cipherUse _ | .stageUse | .keyErase => []
  | _ => endBody s e

/-- The packet of a lane ends at its yield point. -/
def stopHere (l : LaneId) (st : Nat) (e : Exec) (s : State) : State :=
  finish l st (stopBody s st e) none (dropHeld l (stopEffect l st e s)).useFree

/-! ## What a packet has lost (R63, R442, R584) -/

/-- The carrier is neither on nor on its way. -/
def carrierGone (s : State) : Bool := !uhfEmits s && !s.uhf.wantOn

/-- The status of a packet that has lost what it works with. -/
def lostStatus (s : State) (l : LaneId) (e : Exec) : Option Nat :=
  let field := fun (_ : Unit) => if hfUp s then none else some 0x42
  let carrier := fun (_ : Unit) => if !carrierGone s then none else some (if s.uhf.blocked then 0x23 else 0x42)
  match e.phase with
  | .poll _ | .activate _ | .raw _ | .iso _ | .fieldRise => field ()
  | .settle => if l = .hf then field () else carrier ()
  | .runRise _ _ | .runOn _ _ => if l = .hf then field () else carrier ()
  | .inventory _ | .access _ | .select _ | .carrierRise | .calHold _ => carrier ()
  | .channel => if carrierGone s then some 0 else none
  | .peerStart | .peerXchg | .peerSwap => if s.peer.isNone then some 0x23 else none
  | .emuRespond => if s.emu.armed then none else some 0x23
  | .samPower op => if (samSt s op.n).stage = .off then some 0x23 else none
  | .samXchg op => if (samSt s op.n).stage = .off then some 0x23 else none
  | _ => none

/-! ## Waits that a yield point looks at again -/

/-- A LEASE_RELEASE with FIELD_KEEP that waits for the holder's packet (R244). Where the lease leaves its holder
meanwhile by a revocation, it is answered 0x00 (log 51). -/
def releaseAgain (e : Exec) (s : State) : State :=
  let c := chainOf (Packet8 e.pkt 0)
  if (leaseOf s c).holder ≠ some e.pkt.tenant then finish .house 0 [] none s
  else if holderExecuting c s then s
  else if (leaseOf s c).queue = [] then releaseNow c s
  else releaseKeep c s

/-- A PREEMPT_LEASE whose revocation has become void: the lease has left its holder by another way. -/
def preemptAgain (e : Exec) (s : State) : State :=
  if (leaseOf s (chainOf (Packet8 e.pkt 0))).revoke.isNone then finish .house 0 [] none s else s

/-- The packet that executes on a lane goes on with a wait that may be over. -/
def waitAgain (l : LaneId) (e : Exec) (s : State) : State :=
  match e.phase with
  | .done st => finish l st e.partialBody none s
  | .keyErase => if stageWaits s then s else stageUse e s
  | .resetWait => resetAgain s
  | .leaseEnd =>
    if e.pkt.opcode = 0x0201 then releaseAgain e s
    else if e.pkt.opcode = 0x0105 then preemptAgain e s
    else samLeaseForce (Packet8 e.pkt 0) e s
  | .towWait => towWaiter s
  | _ => s

/-! ## YIELD_POINT -/

def yieldPoint (l : LaneId) (e : Exec) (s : State) : State :=
  if !atYield s l e then s
  else
    match stopDue s e with
    | some st => stopHere l st e s
    | none =>
      match lostStatus s l e with
      | some st => stopHere l st e s
      | none =>
        if e.sliceOver && otherEligible s l e.pkt.tenant && suspendable e.phase then suspendHere l e s
        else waitAgain l e s

def execYieldPoint (l : LaneId) (s : State) : Host.Outcome State Fault Refusal :=
  .next (match execOf s l with
    | some e => yieldPoint l e s
    | none => s)

/-! ## PACKET_ADMIT (R279, R281) -/

/-- The frame that a packet holds starts. -/
def releaseHeld (l : LaneId) (s : State) : State :=
  match l with
  | .uhf => uhfRelease (notSooner .uhf s)
  | _ => hfRelease (notSooner .hf s)

/-- A suspended packet goes on: its NV jobs and the frame that it holds start, a draw is tried again, and a wait that is
over has its effect. One that is to stop does so at its yield point, and an inventory past its time limit ends (R616).
-/
def resume (l : LaneId) (s0 : State) : State :=
  let s := if l = .uhf then limitTick s0 else s0
  match execOf s l with
  | none => s
  | some e =>
    if (stopDue s e).isSome then s
    else waitAgain l e (drawAgain l (releaseHeld l (resumeJobs e.pkt.id s)))

/-- The tenant offers a suspended packet. -/
def offersSuspended (s : State) (l : LaneId) (n : Nat) : Bool :=
  match offerOf s l n with
  | some (.susp _) => true
  | _ => false

def execPacketAdmit (l : LaneId) (s : State) : Host.Outcome State Fault Refusal :=
  .next <|
    if s.pwr.state ≠ .run ∨ s.pwr.entry.isSome ∨ (execOf s l).isSome then s
    else match chooseTenant s l with
      | none => s
      | some n => if offersSuspended s l n then resume l (admitFrom l n s) else admitFrom l n s

end Sys2Proof.Machine
end

