-- ==== Sys2Proof/Machine/LowPower.lean ====
section
/-! DEFINITION. SET_POWER_STATE, the entry to a low-power state and the wakes from it, with the WAKE and FDET pins
(R67–R78, R89–R91, R101, R109, R176, R653–R656, R690, R831). -/

namespace Sys2Proof.Machine

open Sys2Proof

/-! ## SET_POWER_STATE (R69, R71, R89–R91) -/

/-- The low-power state of a code. -/
def powerStateOf : Nat → Option PowerState
  | 1 => some .deepStandby
  | 2 => some .retain
  | 3 => some .lpcd
  | _ => none

/-- The suspended packets of a chain's lane stand at a yield point: they end at once. -/
def stopSuspended (l : LaneId) (st : Nat) (s : State) : State :=
  (laneSt s l).susp.foldl (fun s e => replyExec e (e.stop.getD st) (stopBody s st e) none (stopEffect l st e s).useFree)
    (onLane l (fun x => { x with susp := [] }) s)

/-- Step 3 of R71: the packets of both chains' lanes end with 0x42. -/
def stopChains (s : State) : State :=
  stopLane .uhf 0x42 (stopLane .hf 0x42 (stopSuspended .uhf 0x42 (stopSuspended .hf 0x42 s)))

def setPower (e : Exec) (s : State) : State :=
  let code := Packet8 e.pkt 0
  match powerStateOf code with
  | none => finish .house 0x11 [] none s
  | some t =>
    if code = 3 ∧ fenced s 0 = true then finish .house 0x13 [] none s
    else stopChains (finish .house 0 [] none (s.onPwr fun p => { p with entry := some (t, Packet32 e.pkt 4) }))

def execSetPowerState (s : State) : Host.Outcome State Fault Refusal :=
  .next (onFresh .house 0x0006 setPower s)

/-! ## LOW_POWER_ENTRY (R70–R73, R77, R176) -/

/-- The preparation has ended: no NV job and no executing packet is left, and no reset for a lost CK-XO is ahead. -/
def entryReady (s : State) : Bool :=
  s.clk.xoLost == [] && s.nv.job.isNone && s.nv.jobs == [] && s.hfLane.exec.isNone && s.uhfLane.exec.isNone && s.houseLane.exec.isNone

/-- A grant under way does not take place: its waiter is the head of the queue again, and the grant after the wake
carries neither LEASE_AFTER_RESET nor FIELD_LIVE and counts from the fall made now (R73). -/
def undoGrant (c : Chain) (s : State) : State :=
  onLease c (fun l =>
    let due := if l.live then grantDue c s else l.dueAt
    match l.granting with
    | none =>
      if l.queue = [] then { l with live := false, dueAt := due }
      else { l with handover := l.holder.isNone, afterReset := false, live := false, dueAt := due }
    | some w => { l with granting := none, queue := w :: l.queue, handover := true, afterReset := false, live := false }) s

/-- Both chains: leases revoked with reason 6, falls completed, PLLs off. -/
def chainsDown (s : State) : State :=
  let s1 := revokeLease .uhf 6 (revokeLease .hf 6 (uhfFall .off (hfFall 4 s)))
  let s2 := undoGrant .uhf (undoGrant .hf s1)
  let s3 := match s2.hf.falling with
    | some cause => hfFell (hfFieldGone cause s2)
    | none => s2
  let s4 := if s3.uhf.falling.isSome then uhfFell .off (uhfCarrierGone s3) else s3
  (s4.onHf fun h => { h with radio := .sleep, pll := .off }).onUhf fun u => { u with radio := .sleep, synth := .off }

/-- A port A stall ends with a zero word, ABANDON and source 96 with code 4. -/
def abandonStall (s : State) : State :=
  match s.portA.stall with
  | none => s
  | some st => portErrEvent .a 4 st.addr (portErrFlag .a 4 st.addr (drive .a [0] (discardDraw .a st.addr s |>.onPortA fun q => { q with stall := none })))

/-- The event of a wake source (R74). -/
def wakeEvent (w : WakeSrc) (s : State) : State :=
  match w with
  | .pin => raise 104 1 s
  | .fdet => raise 105 1 s
  | _ => s

/-- CK-AON cycles of the wake timer. -/
def wakeCycles (ms : Nat) : Option Nat := if ms = 0 then none else some (ceilDiv (ms * 4096) 125)

/-- Estimates in progress are discarded; credits, counters and values stay (R566). -/
def towSleep (s : State) : State :=
  s.onTow fun t =>
    { t with hf := { t.hf with gather := 0, sum := 0, gatherI := 0, due := t.hf.due.filter (· != .offset) }
             uhf := { t.uhf with gather := 0, sum := 0, gatherI := 0, due := t.uhf.due.filter (· != .irr) } }

/-- A bank of the Basin that holds a page of some pound stays on in RETAIN and LPCD (R67). -/
def bankKept (s : State) (k : Nat) : Bool := (List.range 64).any fun i => (pageOwner s (64 * k + i)).isSome

/-- The other banks are switched off: their contents, and the fences in them, are lost. -/
def banksOff (s : State) : State :=
  let off : List Nat := (List.range 16).filter fun k => !bankKept s k
  State.useFree (s.onBasin fun b =>
    { mem := b.mem.filter fun c => !off.contains (basinBank c.1)
      off := (b.off.filter fun x => !off.contains x.1) ++ off.map fun k => (k, s.free)
      fenced := b.fenced.filter fun w => !off.contains (basinBank w)
      pages := b.pages.filter fun p => !off.contains (p / 64) })

/-- The lines of an interface are down: the entry waits for the course of a deactivation (R71, R815; log 243). -/
def samFell (m : Sam) : Sam := { m with downAt := none }

/-- The state is reached: AON counts, DEEP_STANDBY keeps the wake configuration beside it, and RETAIN and LPCD keep the
rest (R70). -/
def asleep (t : PowerState) (ms : Nat) (s : State) : State :=
  let a := fun (a : Aon) => { a with elapsed := 0, wakeAt := wakeCycles ms }
  let s := (s.onSam0 samFell).onSam1 samFell
  if t = .deepStandby then
    let kept := { surroundings s with time := s.time, aon := s.aon, cfg := cfgSet defaultCfg 0x720 (cfgI s 0x720) }
    ((kept.onAon a).onPwr fun p => { p with state := .deepStandby }).onPortA fun q => { q with rdata := s.portA.rdata }
  else
    (((towSleep (banksOff s)).onAon a).onPwr fun p => { p with state := t, entry := none, vpaOn := false }).onHf
      fun h => { h with lpcd := { h.lpcd with hits := 0, run := false, next := s.time } }

/-- The wake from DEEP_STANDBY, which the wake configuration outlasts as entered (R70; log 237). -/
def wakeReset (s : State) : State := (resetWarm 3 s).onCfg (cfgSet · 0x720 (cfgI s 0x720))

/-- A wake source has asserted during the entry: the wake follows at once (R77). -/
def lateWakes (ws : List WakeSrc) (s : State) : State :=
  let s1 := ws.foldl (fun s w => wakeEvent w s) s
  if ws ≠ [] ∧ s.pwr.state = .deepStandby then wakeReset s1 else s1

def enterLowPower (t : PowerState) (ms : Nat) (s : State) : State :=
  let s1 := abandonStall (samOff 1 (samOff 0 (chainsDown s)))
  lateWakes s.pwr.wakes (asleep t ms s1)

def execLowPowerEntry (s : State) : Host.Outcome State Fault Refusal :=
  .next <|
    match s.pwr.entry with
    | none => s
    | some (t, ms) => if s.pwr.state = .run ∧ entryReady s = true then enterLowPower t ms s else s

/-! ## Wake sources (R74–R77, R655, R831) -/

/-- A wake source asserts. In DEEP_STANDBY it causes a reset, in RETAIN and LPCD a wake, and during an entry it is
latched; otherwise `awake` is its event. -/
def wakeBy (w : WakeSrc) (awake : State → State) (s : State) : State :=
  let latch := fun (s : State) => s.onPwr fun p => { p with wakes := p.wakes ++ [w] }
  match s.pwr.state with
  | .deepStandby => wakeReset (wakeEvent w s)
  | .retain | .lpcd => wakeEvent w (latch s)
  | .run => if s.pwr.entry.isSome then latch s else awake s
  | .boot => awake s
  | _ => s

/-- The active level of WAKE (field 0x0720, R831). -/
def wakeActive (s : State) (high : Bool) : Bool := decide (cfg s 0x720 = 1) == high

/-- The filtered level of WAKE. A change to the active level is an assertion; a change of the polarity field is none
(log 236). -/
def wakeLevel (high : Bool) (s : State) : State :=
  if s.pins.wake = high then s
  else
    let s1 := s.onPins fun p => { p with wake := high }
    if wakeActive s high then wakeBy .pin (raise 104 0) s1 else s1

def execWakeAsserted (s : State) (high : Bool := true) : Host.Outcome State Fault Refusal :=
  .next (wakeLevel high s)

def execWakeReleased (s : State) (high : Bool := false) : Host.Outcome State Fault Refusal :=
  .next (wakeLevel high s)

/-- The part's own field keeps FDET from changing (R654). -/
def fdetBlind (s : State) : Bool :=
  s.hf.radio == .rx || s.hf.radio == .tx || (s.hf.fallEnd != 0 && decide (nowAon s < s.hf.fallEnd + 100))

def execFdetAsserted (s : State) : Host.Outcome State Fault Refusal :=
  .next <|
    if s.pins.fdet || fdetBlind s then s
    else wakeBy .fdet (raise 105 0) (s.onPins fun p => { p with fdet := true })

def execFdetReleased (s : State) : Host.Outcome State Fault Refusal :=
  .next (if fdetBlind s then s else s.onPins fun p => { p with fdet := false })

/-- The timer runs in the low-power states only. -/
def sleeping (s : State) : Bool := s.pwr.state ∈ [.deepStandby, .retain, .lpcd]

def execWakeTimerExpiry (s : State) : Host.Outcome State Fault Refusal :=
  .next <|
    if sleeping s && s.aon.wakeAt.any (fun t => decide (t ≤ s.aon.elapsed)) then
      wakeBy .timer id (s.onAon fun a => { a with wakeAt := none })
    else s

/-- RETAIN is the state or the one being entered. -/
def retainAhead (s : State) : Bool :=
  s.pwr.state == .retain || (s.pwr.state == .run && s.pwr.entry.any fun x => x.1 == .retain)

/-- The transaction itself has no effect (R76); during the entry its B_CSN is latched beside its effect (R77). A
fenced port B wakes the part like any other (log 250). -/
def execRetainPortWake (s : State) : Host.Outcome State Fault Refusal :=
  .next (if retainAhead s ∧ s.portB.vio = true then wakeBy .portB id s else s)

/-! ## LOW_POWER_WAKE (R73, R75, R101, R690) -/

/-- The sources that a failure has not stopped restart; pool and reseed start anew. -/
def rngWake (s : State) : State :=
  (nextBlock true 0 (nextBlock false 0 s)).onRng fun r => 
    { r with pool := [], seeded := false, jitterTest := HealthTest.reset, noiseTest := HealthTest.reset }

/-- Where a queue waits for a chain, its PLL starts at the wake. -/
def chainWake (c : Chain) (s : State) : State :=
  settleRadio c (if (leaseOf s c).handover ∧ (leaseOf s c).queue ≠ [] ∧ fenced s (chainIndex c) = false then
    setPll c .starting s else s)

/-- The wake from RETAIN or LPCD. A bad window of a clock that is no chain's, counted before the entry, still counts
(log 173). -/
def wakeUp (s : State) : State :=
  let t := nowAon s
  let s1 := (s.onTime fun _ => t).onAon fun a => { a with elapsed := 0, wakeAt := none }
  let s2 := (s1.onPwr fun p => { p with state := .run, wakes := [], vpaOn := true }).onTherm fun x => { x with at_ := t, missed := false }
  chainWake .uhf (chainWake .hf (rngWake ((coresStart s2).onHf fun h => { h with lpcd := { h.lpcd with run := false, hits := 0 } })))

def execLowPowerWake (s : State) : Host.Outcome State Fault Refusal :=
  .next (if s.pwr.state ∈ [.retain, .lpcd] ∧ s.pwr.wakes ≠ [] then wakeUp s else s)

end Sys2Proof.Machine
end

