-- ==== Sys2Proof/Machine/Dispatch.lean ====
section
/-! DEFINITION. The meaning of each command: one arm per constructor of Instr, each a direct call of
its meaning. -/

namespace Sys2Proof.Machine

open Sys2Proof

def exec (i : Instr) (s : State) : Host.Outcome State Fault Refusal :=
  match i with
  | .powerOnReset vin => Sys2Proof.Machine.execPowerOnReset vin s
  | .powerGoodLoss => Sys2Proof.Machine.execPowerGoodLoss s
  | .pinReset lowNs => Sys2Proof.Machine.execPinReset lowNs s
  | .uvloFall => Sys2Proof.Machine.execUvloFall s
  | .startUp env => Sys2Proof.Machine.execStartUp env s
  | .crystalStartTimeout => Sys2Proof.Machine.execCrystalStartTimeout s
  | .fwConfirmRetry => Sys2Proof.Machine.execFwConfirmRetry s
  | .fwActivationReset => Sys2Proof.Machine.execFwActivationReset s
  | .vinBelowThreshold vin => Sys2Proof.Machine.execVinBelowThreshold vin s
  | .vinEarlyWarn vin => Sys2Proof.Machine.execVinEarlyWarn vin s
  | .vinAboveHysteresis vin => Sys2Proof.Machine.execVinAboveHysteresis vin s
  | .vinRecovered vin => Sys2Proof.Machine.execVinRecovered vin s
  | .vpaFault => Sys2Proof.Machine.execVpaFault s
  | .holdupUpdate vhold pIn pVpa => Sys2Proof.Machine.execHoldupUpdate vhold pIn pVpa s
  | .choldMeasured c => Sys2Proof.Machine.execCholdMeasured c s
  | .thermalSample t => Sys2Proof.Machine.execThermalSample t s
  | .thermalReadingTimeout => Sys2Proof.Machine.execThermalReadingTimeout s
  | .clockMonitorWindow counts => Sys2Proof.Machine.execClockMonitorWindow counts s
  | .aonCrystalSelect ok => Sys2Proof.Machine.execAonCrystalSelect s ok
  | .hfDriverClockStop => Sys2Proof.Machine.execHfDriverClockStop s
  | .setPowerState => Sys2Proof.Machine.execSetPowerState s
  | .lowPowerEntry => Sys2Proof.Machine.execLowPowerEntry s
  | .wakeTimerExpiry => Sys2Proof.Machine.execWakeTimerExpiry s
  | .wakeAsserted high => Sys2Proof.Machine.execWakeAsserted s high
  | .retainPortWake => Sys2Proof.Machine.execRetainPortWake s
  | .lowPowerWake => Sys2Proof.Machine.execLowPowerWake s
  | .watchdogWarning core => Sys2Proof.Machine.execWatchdogWarning core s
  | .watchdogReset origin reason => Sys2Proof.Machine.execWatchdogReset origin reason s
  | .stormCountClear => Sys2Proof.Machine.execStormCountClear s
  | .vioPresent p mv us => Sys2Proof.Machine.execVioPresent p s mv us
  | .vioAbsent p cut mv => Sys2Proof.Machine.execVioAbsent p cut s mv
  | .portWrite p addr data tail held => Sys2Proof.Machine.execPortWrite p addr data tail s held
  | .portRead p addr tail count fin fast => Sys2Proof.Machine.execPortRead p addr tail count s fin fast
  | .portReadDataReady => Sys2Proof.Machine.execPortReadDataReady s
  | .portStallLimit => Sys2Proof.Machine.execPortStallLimit s
  | .portBadCommand p cmd part => Sys2Proof.Machine.execPortBadCommand p s cmd part
  | .reservedAccess p addr write => Sys2Proof.Machine.execReservedAccess p addr write s
  | .portResetSequence p edges => Sys2Proof.Machine.execPortResetSequence p edges s
  | .portReset p value => Sys2Proof.Machine.execPortReset p value s
  | .paCfgWrite p value => Sys2Proof.Machine.execPaCfgWrite p value s
  | .portErrRead p which => Sys2Proof.Machine.execPortErrRead p which s
  | .timeLoRead p => Sys2Proof.Machine.execTimeLoRead p s
  | .cmdProdWrite p n value => Sys2Proof.Machine.execCmdProdWrite p n value s
  | .rplConsWrite p n value => Sys2Proof.Machine.execRplConsWrite p n value s
  | .evtConsWrite p n value => Sys2Proof.Machine.execEvtConsWrite p n value s
  | .registerWrite p addr value => Sys2Proof.Machine.execRegisterWrite p addr value s
  | .recStage => Sys2Proof.Machine.execRecStage s
  | .recVerify => Sys2Proof.Machine.execRecVerify s
  | .recActivate => Sys2Proof.Machine.execRecActivate s
  | .icDoorbellWrite p value => Sys2Proof.Machine.execIcDoorbellWrite p value s
  | .doorbellArrived => Sys2Proof.Machine.execDoorbellArrived s
  | .coalesceTimeout src => Sys2Proof.Machine.execCoalesceTimeout src s
  | .arbitration => Sys2Proof.Machine.execArbitration s
  | .delivery => Sys2Proof.Machine.execDelivery s
  | .setclrSetPending p value => Sys2Proof.Machine.execSetclrSetPending p value s
  | .setclrClearPending p value => Sys2Proof.Machine.execSetclrClearPending p value s
  | .setclrSetMask p value => Sys2Proof.Machine.execSetclrSetMask p value s
  | .setclrClearMask p value => Sys2Proof.Machine.execSetclrClearMask p value s
  | .icPendWrite p k value => Sys2Proof.Machine.execIcPendWrite p k value s
  | .icMaskWrite p k value => Sys2Proof.Machine.execIcMaskWrite p k value s
  | .icSrcWrite p src value => Sys2Proof.Machine.execIcSrcWrite p src value s
  | .icSyncRead p fast => Sys2Proof.Machine.execIcSyncRead p fast s
  | .icStatusRead p => Sys2Proof.Machine.execIcStatusRead p s
  | .icEvtdropRead p n => Sys2Proof.Machine.execIcEvtdropRead p n s
  | .icClaimRead p t => Sys2Proof.Machine.execIcClaimRead p t s
  | .icEoiWrite p t value => Sys2Proof.Machine.execIcEoiWrite p t value s
  | .icTstatRead p t => Sys2Proof.Machine.execIcTstatRead p t s
  | .rngDataRead p => Sys2Proof.Machine.execRngDataRead p s
  | .rngWaitTimeout => Sys2Proof.Machine.execRngWaitTimeout s
  | .rngStatRead p => Sys2Proof.Machine.execRngStatRead p s
  | .packetFetch => Sys2Proof.Machine.execPacketFetch s
  | .packetAdmit lane => Sys2Proof.Machine.execPacketAdmit lane s
  | .sliceExpiry lane => Sys2Proof.Machine.execSliceExpiry lane s
  | .yieldPoint lane => Sys2Proof.Machine.execYieldPoint lane s
  | .deadlineExpiry => Sys2Proof.Machine.execDeadlineExpiry s
  | .nop => Sys2Proof.Machine.execNop s
  | .getInfo => Sys2Proof.Machine.execGetInfo s
  | .getStatus => Sys2Proof.Machine.execGetStatus s
  | .setConfig => Sys2Proof.Machine.execSetConfig s
  | .getConfig ecc => Sys2Proof.Machine.execGetConfig s ecc
  | .readCounters => Sys2Proof.Machine.execReadCounters s
  | .getFences => Sys2Proof.Machine.execGetFences s
  | .getLog ecc => Sys2Proof.Machine.execGetLog s ecc
  | .stageProtection => Sys2Proof.Machine.execStageProtection s
  | .lockCycle => Sys2Proof.Machine.execLockCycle s
  | .lockCycleDeferredStart => Sys2Proof.Machine.execLockCycleDeferredStart s
  | .protectionWithdrawal => Sys2Proof.Machine.execProtectionWithdrawal s
  | .resetTenant => Sys2Proof.Machine.execResetTenant s
  | .unfence failing rl ecc => Sys2Proof.Machine.execUnfence failing s rl ecc
  | .setWeights => Sys2Proof.Machine.execSetWeights s
  | .preemptLease => Sys2Proof.Machine.execPreemptLease s
  | .charterRead ecc => Sys2Proof.Machine.execCharterRead s ecc
  | .charterWrite => Sys2Proof.Machine.execCharterWrite s
  | .charterSeal => Sys2Proof.Machine.execCharterSeal s
  | .charterBreak => Sys2Proof.Machine.execCharterBreak s
  | .leaseAcquire => Sys2Proof.Machine.execLeaseAcquire s
  | .leaseRelease => Sys2Proof.Machine.execLeaseRelease s
  | .leaseQuery => Sys2Proof.Machine.execLeaseQuery s
  | .leaseGrant c => Sys2Proof.Machine.execLeaseGrant c s
  | .leaseHoldExpiry c => Sys2Proof.Machine.execLeaseHoldExpiry c s
  | .hfPllLocked => Sys2Proof.Machine.execHfPllLocked s
  | .hfPllUnlock => Sys2Proof.Machine.execHfPllUnlock s
  | .hfField iAnt => Sys2Proof.Machine.execHfField iAnt s
  | .hfFieldFallDone => Sys2Proof.Machine.execHfFieldFallDone s
  | .driverCurrentLimit => Sys2Proof.Machine.execDriverCurrentLimit s
  | .powerLoopLimit step => Sys2Proof.Machine.execPowerLoopLimit step s
  | .mismatchMeasurement phi m => Sys2Proof.Machine.execMismatchMeasurement phi m s
  | .hfTune ms iAnt => Sys2Proof.Machine.execHfTune ms iAnt s
  | .hfLpcdArm => Sys2Proof.Machine.execHfLpcdArm s
  | .lpcdMeasurement a n => Sys2Proof.Machine.execLpcdMeasurement a n s
  | .agcWindow c peak clip sof => Sys2Proof.Machine.execAgcWindow c peak clip s sof
  | .externalFieldDetected peak => Sys2Proof.Machine.execExternalFieldDetected s peak
  | .externalFieldGone => Sys2Proof.Machine.execExternalFieldGone s
  | .hfRxFrame res ans meas clipped => Sys2Proof.Machine.execHfRxFrame res ans meas clipped s
  | .replyWindowTimeout c => Sys2Proof.Machine.execReplyWindowTimeout c s
  | .hfPoll => Sys2Proof.Machine.execHfPoll s
  | .hfActivate => Sys2Proof.Machine.execHfActivate s
  | .hfTransceive => Sys2Proof.Machine.execHfTransceive s
  | .hfIsodepExchange => Sys2Proof.Machine.execHfIsodepExchange s
  | .hfDeselect => Sys2Proof.Machine.execHfDeselect s
  | .hf15693Exchange => Sys2Proof.Machine.execHf15693Exchange s
  | .uhfCarrier => Sys2Proof.Machine.execUhfCarrier s
  | .uhfSetChannel => Sys2Proof.Machine.execUhfSetChannel s
  | .carrierFallDone => Sys2Proof.Machine.execCarrierFallDone s
  | .synthLocked => Sys2Proof.Machine.execSynthLocked s
  | .synthUnlock => Sys2Proof.Machine.execSynthUnlock s
  | .synthRecal band => Sys2Proof.Machine.execSynthRecal band s
  | .dwellSoftPoint => Sys2Proof.Machine.execDwellSoftPoint s
  | .hop => Sys2Proof.Machine.execHop s
  | .restEnd => Sys2Proof.Machine.execRestEnd s
  | .dwellLimit => Sys2Proof.Machine.execDwellLimit s
  | .channelAvailable => Sys2Proof.Machine.execChannelAvailable s
  | .lbtSenseDone level => Sys2Proof.Machine.execLbtSenseDone level s
  | .rlMeasurement rl => Sys2Proof.Machine.execRlMeasurement rl s
  | .hardReflection rl => Sys2Proof.Machine.execHardReflection rl s
  | .paCurrentLimit => Sys2Proof.Machine.execPaCurrentLimit s
  | .uhfRxFrame res ans meas => Sys2Proof.Machine.execUhfRxFrame res ans meas s
  | .uhfInventory => Sys2Proof.Machine.execUhfInventory s
  | .uhfSelect => Sys2Proof.Machine.execUhfSelect s
  | .uhfAccess => Sys2Proof.Machine.execUhfAccess s
  | .maskCheckDone bins => Sys2Proof.Machine.execMaskCheckDone bins s
  | .spectrumCheck bins => Sys2Proof.Machine.execSpectrumCheck bins s
  | .captureSamples => Sys2Proof.Machine.execCaptureSamples s
  | .captureTriggered c => Sys2Proof.Machine.execCaptureTriggered c s
  | .captureDone c samples clipped => Sys2Proof.Machine.execCaptureDone c samples clipped s
  | .captureTimeout c => Sys2Proof.Machine.execCaptureTimeout c s
  | .towpathStepStart c => Sys2Proof.Machine.execTowpathStepStart c s
  | .towpathStepEnd c x y iAnt => Sys2Proof.Machine.execTowpathStepEnd c x y iAnt s
  | .towpathStepOverrun c => Sys2Proof.Machine.execTowpathStepOverrun c s
  | .calRun results => Sys2Proof.Machine.execCalRun results s
  | .calGateEnd error => Sys2Proof.Machine.execCalGateEnd error s
  | .xoTrimStep => Sys2Proof.Machine.execXoTrimStep s
  | .calRefinTimeout => Sys2Proof.Machine.execCalRefinTimeout s
  | .calHoldEnd fwd rev => Sys2Proof.Machine.execCalHoldEnd fwd rev s
  | .calStore => Sys2Proof.Machine.execCalStore s
  | .calLoad ecc => Sys2Proof.Machine.execCalLoad s ecc
  | .calStatus => Sys2Proof.Machine.execCalStatus s
  | .towpathConfig => Sys2Proof.Machine.execTowpathConfig s
  | .nvProgramDone mismatch uncorrectable corrected => Sys2Proof.Machine.execNvProgramDone mismatch uncorrectable corrected s
  | .nvEraseDone => Sys2Proof.Machine.execNvEraseDone s
  | .fwStageBlock => Sys2Proof.Machine.execFwStageBlock s
  | .fwVerify ecc => Sys2Proof.Machine.execFwVerify s ecc
  | .fwActivate => Sys2Proof.Machine.execFwActivate s
  | .rngBlockDone noise raw rings counts => Sys2Proof.Machine.execRngBlockDone noise raw s rings counts
  | .reseed => Sys2Proof.Machine.execReseed s
  | .drawTimeout lane => Sys2Proof.Machine.execDrawTimeout lane s
  | .rngRead => Sys2Proof.Machine.execRngRead s
  | .rngKat failedTests => Sys2Proof.Machine.execRngKat failedTests s
  | .rngRestart => Sys2Proof.Machine.execRngRestart s
  | .keyStage => Sys2Proof.Machine.execKeyStage s
  | .keyCommit => Sys2Proof.Machine.execKeyCommit s
  | .keyQuery => Sys2Proof.Machine.execKeyQuery s
  | .keyDestroy => Sys2Proof.Machine.execKeyDestroy s
  | .keyLogRollover => Sys2Proof.Machine.execKeyLogRollover s
  | .cipherAes ecc => Sys2Proof.Machine.execCipherAes s ecc
  | .cipherCmac ecc => Sys2Proof.Machine.execCipherCmac s ecc
  | .fenceEntry unit cause => Sys2Proof.Machine.execFenceEntry unit cause s
  | .faultLogCommit => Sys2Proof.Machine.execFaultLogCommit s
  | .basinScrub addr bits => Sys2Proof.Machine.execBasinScrub addr bits s
  | .samPower => Sys2Proof.Machine.execSamPower s
  | .samAtrReceived n atr ppsOk => Sys2Proof.Machine.execSamAtrReceived n atr ppsOk s
  | .samAtrTimeout n => Sys2Proof.Machine.execSamAtrTimeout n s
  | .samClassRetry n => Sys2Proof.Machine.execSamClassRetry n s
  | .samExchange => Sys2Proof.Machine.execSamExchange s
  | .samRxBlock n rx gap => Sys2Proof.Machine.execSamRxBlock n rx s gap
  | .samWaitTimeout n => Sys2Proof.Machine.execSamWaitTimeout n s
  | .samLease => Sys2Proof.Machine.execSamLease s
  | .samCardDetect n high stableUs => Sys2Proof.Machine.execSamCardDetect n high s stableUs
  | .samOvercurrent n => Sys2Proof.Machine.execSamOvercurrent n s
  | .gpioSet => Sys2Proof.Machine.execGpioSet s
  | .gpioEdge n level stableUs => Sys2Proof.Machine.execGpioEdge n level s stableUs
  | .fdetAsserted => Sys2Proof.Machine.execFdetAsserted s
  | .emuConfigure => Sys2Proof.Machine.execEmuConfigure s
  | .emuArm => Sys2Proof.Machine.execEmuArm s
  | .emuRxFrame f clipped res => Sys2Proof.Machine.execEmuRxFrame f s clipped res
  | .emuWtxTimer => Sys2Proof.Machine.execEmuWtxTimer s
  | .emuRespond => Sys2Proof.Machine.execEmuRespond s
  | .emuDisarm => Sys2Proof.Machine.execEmuDisarm s
  | .peerStart => Sys2Proof.Machine.execPeerStart s
  | .peerExchange => Sys2Proof.Machine.execPeerExchange s
  | .peerRxFrame f meas clipped res => Sys2Proof.Machine.execPeerRxFrame f meas s clipped res
  | .peerRtox => Sys2Proof.Machine.execPeerRtox s
  | .peerRoleSwap => Sys2Proof.Machine.execPeerRoleSwap s
  | .swapBackoffEnd => Sys2Proof.Machine.execSwapBackoffEnd s
  | .swapGapEnd sensed => Sys2Proof.Machine.execSwapGapEnd sensed s
  | .swapReactivationTimeout => Sys2Proof.Machine.execSwapReactivationTimeout s
  | .peerStop => Sys2Proof.Machine.execPeerStop s
  | .readerFrameEnd c => Sys2Proof.Machine.execReaderFrameEnd c s
  | .fieldRiseDone iAnt drive => Sys2Proof.Machine.execFieldRiseDone iAnt s drive
  | .carrierRiseDone fwd rl => Sys2Proof.Machine.execCarrierRiseDone fwd rl s
  | .fdetReleased => Sys2Proof.Machine.execFdetReleased s
  | .wakeReleased high => Sys2Proof.Machine.execWakeReleased s high
  | .lbtBackoffEnd => Sys2Proof.Machine.execLbtBackoffEnd s
  | .otherFieldEnds => Sys2Proof.Machine.execOtherFieldEnds s
  | .samCurrentLimitActive n => Sys2Proof.Machine.execSamCurrentLimitActive n s
  | .spreadTurningPoint => Sys2Proof.Machine.execSpreadTurningPoint s

end Sys2Proof.Machine
end

