-- ==== Sys2Proof/Machine/Tick.lean ====
section
/-! DEFINITION. What passes with time alone, while no command is waiting (R98, R101, R556, R581, R659; log 1). -/

namespace Sys2Proof.Machine

open Sys2Proof

/-- A chain is in RX or TX. -/
def rfOnNow (r : Radio) : Bool := r == .rx || r == .tx

/-- Credit in 0.001 µs after one more µs in RX or TX (R556). -/
def creditGrown (s : State) (k : Nat) : Nat := min (1000 * cfg s 0x402) (k + cfg s 0x401)

/-- One µs of HF in RX or TX: credit and the RF-on time of R581. -/
def hfOnTick (s : State) : State :=
  if rfOnNow s.hf.radio then
    let s1 := onTowLane .hf (fun t => { t with credit := creditGrown s t.credit })
      (s.onHf fun h => { h with rfOn := (h.rfOn + 1) % 1000 })
    if s1.hf.rfOn = 0 then ctrAdd (towCtr .hf 0) 1 s1 else s1
  else s

def uhfOnTick (s : State) : State :=
  if rfOnNow s.uhf.radio then
    let s1 := onTowLane .uhf (fun t => { t with credit := creditGrown s t.credit })
      (s.onUhf fun u => { u with rfOn := (u.rfOn + 1) % 1000 })
    if s1.uhf.rfOn = 0 then ctrAdd (towCtr .uhf 0) 1 s1 else s1
  else s

/-- The window of an initiator's collision avoidance is over (R659). -/
def senseTick (s : State) : State :=
  match s.peer with
  | none => s
  | some p => if p.stage = .sensing ∧ p.until_ ≤ s.time then withWaiting .hf hfWaiter peerSensed s else s

/-- The sensing of an active side before its answer is over (R660). -/
def answerTick (s : State) : State :=
  match s.peer.bind (·.answerAt) with
  | none => s
  | some t => if t ≤ s.time then withWaiting .hf hfWaiter answerLight s else s

/-- Values of HF that waited for the end of a frame that the chain received (R393). -/
def valuesTick (s : State) : State :=
  if s.cal.nextHf.isSome && !hfFrameRuns s then hfTakeValues s else s

/-- A new evaluation cycle of the power budget manager begins (R13). -/
def powerCycle (s : State) : State := s.onPwr fun p => { p with uhfWas := p.uhfGrant }

/-- One µs of service. Of two checks asked for in it, that of HF comes first (R485). -/
def runTick (s : State) : State :=
  s.onTime (· + 1) |> powerCycle |> xoReset |> bgStart |> fencedGrant .hf |> fencedGrant .uhf |> fencedRead |> loopTick |> hfOnTick |> uhfOnTick |> senseTick |> answerTick |> hfSenseTick |> tuneTick |> valuesTick |> calTick |> testTick
    |> hfStart |> uhfChangeTick |> limitTick |> recalTick |> uhfStart

/-- One µs, or in a low-power state one cycle of CK-AON; nothing passes in OFF and in start-up, whose time the rows
that end them bring along. -/
def tick (s : State) : State :=
  match s.pwr.state with
  | .run => runTick s
  | .recovery => s.onTime (· + 1)
  | .deepStandby | .retain | .lpcd => s.onAon fun a => { a with elapsed := a.elapsed + 1 }
  | .boot => bootStep (s.onTime (· + 1))
  | .off | .startup => s

end Sys2Proof.Machine
end

