-- ==== Sys2Proof/Machine/Pins.lean ====
section
/-! DEFINITION. What each pin group shows in each power state (R653, R830, R846–R850). -/

namespace Sys2Proof.Machine

open Sys2Proof

/-- The pin groups of R846. -/
inductive PinGroup where
  | vpa | v18 | vcore | xtal | aonXtal | htx | tuner | hvmid | uhf | portA | bMiso
  | irq (t : Nat) | gpio (n : Nat) | samVcc (n : Nat) | samRst (n : Nat) | samClk (n : Nat) | samIo (n : Nat) | fdet | inputs
deriving DecidableEq, Repr

/-- States of a pin group; `codes` are the switches of the tuner banks. -/
inductive PinState where
  | off | discharged | rising | on | retention | oscillating | clamp | active | codes (series parallel : Nat)
  | highZ | low | high | pulledLow | pulledUp | input
deriving DecidableEq, Repr

def levelPin (b : Bool) : PinState := if b then .high else .low

/-- GPIO pins drive what GPIO_SET has set, else they are inputs (R830). -/
def gpioPin (s : State) (n : Nat) : PinState :=
  if s.gpio.dir.getLsbD n then levelPin (s.gpio.out.getLsbD n) else .highZ

/-- Step 7 of start-up has been done; recovery service does not come to it. -/
def pastStep7 (s : State) : Bool :=
  s.pwr.state != .recovery && (s.pwr.boot.map fun b => decide (7 < b.stage)).getD true

/-- The tuner's switches: open to step 7, and then at the codes in force. -/
def tunerPins (s : State) : PinState := if pastStep7 s then .codes s.cal.hf.series s.cal.hf.parallel else .off

/-- An IRQ pin where the interrupt controller is served; its pull-down holds it while VIO_B is absent (R850). -/
def irqPinState (s : State) (t : Nat) : PinState := if s.portB.vio then levelPin (irqLevel s t) else .pulledLow

/-- FDET is an open-drain output, low while a field is detected, in every power state (R653). -/
def fdetPin (s : State) : PinState := if s.pins.fdet then .low else .highZ

/-- AON1 and AON2 where the crystal is fitted and runs. -/
def aonPins (s : State) : PinState := if s.aon.crystal then .oscillating else .off

/-- OFF. -/
def pinOff (s : State) : PinGroup → PinState
  | .vpa => .discharged
  | .htx => .clamp
  | .portA | .bMiso | .gpio _ | .hvmid => .highZ
  | .irq _ => .pulledLow
  | .samRst _ | .samClk _ | .samIo _ => .low
  | .fdet => fdetPin s
  | .v18 | .vcore | .xtal | .aonXtal | .tuner | .uhf | .samVcc _ | .inputs => .off

/-- Start-up, at each of its steps 1–4. -/
def pinStart (step : Nat) (s : State) : PinGroup → PinState
  | .vpa => if 3 ≤ step then .rising else .discharged
  | .v18 | .vcore => .on
  | .xtal => if 2 ≤ step then .oscillating else .off
  | .aonXtal => aonPins s
  | .portA | .bMiso | .gpio _ | .hvmid => .highZ
  | .irq _ => if s.portB.vio then .low else .pulledLow
  | .samRst _ | .samClk _ | .samIo _ => .low
  | .fdet => fdetPin s
  | .htx | .tuner | .uhf | .samVcc _ => .off
  | .inputs => .input

/-- B_MISO is driven while B_CSN is low over a transaction that the port answers (R206, R846, R849). -/
def misoDriven (s : State) : Bool := portServed s .b && s.portB.burst.any fun o => o.kind != .dead

/-- Output or receiver of the UHF chain at work. -/
def uhfPins (s : State) : PinState :=
  match s.uhf.radio with
  | .sleep | .standby | .synth => .off
  | .listen | .rx | .tx => .active

/-- IDLE and ACTIVE, and recovery service for all but the port A and IRQ pins (R32). -/
def pinRun (s : State) : PinGroup → PinState
  | .vpa => if s.pwr.vpaOn then .on else .discharged
  | .v18 | .vcore => .on
  | .xtal => .oscillating
  | .aonXtal => aonPins s
  | .htx => if hfEmits s then .active else .off
  | .tuner => tunerPins s
  | .hvmid => if s.hf.radio = .sleep then .highZ else .active
  | .uhf => uhfPins s
  | .portA => if portServed s .a then .active else .highZ
  | .bMiso => if misoDriven s then .active else .highZ
  | .irq t => irqPinState s t
  | .gpio n => gpioPin s n
  | .samVcc n =>
    if samVccGood (samSt s n) s.time then .on else if samVccOn (samSt s n) s.time then .rising else .off
  | .samRst n => levelPin (samRstHigh (samSt s n) s.time)
  | .samClk n => if samClkRuns (samSt s n) s.time then .oscillating else .low
  | .samIo n => if samIoFree (samSt s n) s.time then .pulledUp else .low
  | .fdet => fdetPin s
  | .inputs => .input

/-- DEEP_STANDBY. -/
def pinDeep (s : State) : PinGroup → PinState
  | .vpa => .discharged
  | .aonXtal => aonPins s
  | .htx => .clamp
  | .portA | .bMiso | .gpio _ | .hvmid => .highZ
  | .irq _ => .pulledLow
  | .samRst _ | .samClk _ | .samIo _ => .low
  | .fdet => fdetPin s
  | .v18 | .vcore | .xtal | .tuner | .uhf | .samVcc _ => .off
  | .inputs => .input

/-- VPA is on for 200 µs around each measurement of the LPCD state (R846; log 239). -/
def lpcdSupply (s : State) : Bool :=
  let l := s.hf.lpcd
  s.pwr.state == .lpcd
    && (decide (l.next ≤ nowAon s + 100 ∧ nowAon s < l.next + 100) || (l.lastAt != 0 && decide (nowAon s < l.lastAt + 100)))

/-- A measurement of the LPCD state is being made; it takes at most 20 µs (R398, R846). -/
def lpcdPulse (s : State) : Bool :=
  s.pwr.state == .lpcd && s.hf.lpcd.lastAt != 0 && decide (nowAon s < s.hf.lpcd.lastAt + 20)

/-- RETAIN and LPCD. -/
def pinRetain (s : State) : PinGroup → PinState
  | .v18 => .on
  | .vcore => .retention
  | .vpa => if lpcdSupply s then .on else .off
  | .htx => if lpcdPulse s then .active else .off
  | .hvmid => if lpcdPulse s then .active else .highZ
  | .aonXtal => aonPins s
  | .tuner => tunerPins s
  | .portA | .bMiso => .highZ
  | .irq t => irqPinState s t
  | .gpio n => gpioPin s n
  | .samRst _ | .samClk _ | .samIo _ => .low
  | .fdet => fdetPin s
  | .xtal | .uhf | .samVcc _ => .off
  | .inputs => .input

/-- The state of a pin group. -/
def pinState (s : State) (g : PinGroup) : PinState :=
  match s.pwr.state with
  | .off => pinOff s g
  | .startup => pinStart 1 s g
  | .boot | .run | .recovery => pinRun s g
  | .deepStandby => pinDeep s g
  | .retain | .lpcd => pinRetain s g

end Sys2Proof.Machine
end

