-- ==== Sys2Proof/Safety.lean ====
section
/-! DEFINITION. What counts as a safe state, in the terms in which statements speak of it, and when an opcode's row
has a packet to run on. -/

namespace Sys2Proof.Machine

open Sys2Proof

/-! ## Isolation of tenants (R13, R215–R219, R231) -/

/-- No page belongs to the pounds of two tenants in the active protection table. -/
def State.poundsApart (s : State) : Bool :=
  tenants8.all fun n => tenants8.all fun m => n == m || !pagesMeet (placeOf s.pt.active n) (placeOf s.pt.active m)

/-- The Keeper's row of the active table: enabled, with every permission, and reachable through a port. -/
def State.keeperReachable (s : State) : Bool :=
  teWord s.pt.active 0 0 &&& 0xFF01 == 0xFF01 && bits (teWord s.pt.active 0 0) 2 1 != 0

/-- The Basin is in canonical form. -/
def State.basinCanonical (s : State) : Bool := s.basin.wf

/-! ## Ports ready for a transaction -/

/-- The port answers transactions, no read of port A waits for its data, and no transaction of the port is open. -/
abbrev PortOpen (p : Port) (s : State) : Prop := portUp s p = true ∧ s.portA.stall = none ∧ (portSt s p).burst = none

/-- As `PortOpen`, while firmware runs, so that the whole address map answers. -/
abbrev PortReady (p : Port) (s : State) : Prop := PortOpen p s ∧ inService s = true

/-! ## Events that a suspended packet may wait for (R281) -/

/-- An event of the HF chain, on the packet that waits for it, suspended or not. -/
abbrev onHfEvent (f : State → State) (s : State) : State := withWaiting .hf hfWaiter f s

/-- An event of the UHF chain, on the packet that waits for it, suspended or not. -/
abbrev onUhfEvent (f : State → State) (s : State) : State := withWaiting .uhf uhfWaiter f s

/-! ## Packets ready to run -/

/-- The lane's packet has just been admitted for opcode `op`, and nothing stops it before its row runs. -/
abbrev Ready (l : LaneId) (op : Nat) (e : Exec) (s : State) : Prop :=
  freshOn s l op = some e ∧ stopDue s e = none ∧ readsFenced s e.pkt = false ∧ needsFenced s e.pkt = false

/-- As `Ready`, for a tenant that holds the chain's lease. -/
abbrev ReadyLeased (c : Chain) (op : Nat) (e : Exec) (s : State) : Prop :=
  Ready (chainLane c) op e s ∧ holds s c e.pkt.tenant = true

end Sys2Proof.Machine
end

