-- ==== Sys2Proof/Certificates/Slice0/Obligations.lean ====
section
/-! DEFINITION. Statements for the provers. A statement that gives exec's next state as an equation gives with it
all that the command leaves unchanged. -/

open Sys2Proof Sys2Proof.Machine

/-! ## Steps, reset and invariants -/

/-- The command at the front of the queue runs with the queue's rest. -/
def Obligations.StepRunsFront : Prop :=
  ∀ (c : Instr) (cs : List Instr) (s : State),
    step { s with pending := c :: cs } = exec c { s with pending := cs }

/-- On an empty queue one step is one µs in service, in recovery service and in start-up from step 5 on, and one CK-AON
cycle in a low-power state (log 1, the model's choice); in OFF and in steps 1 to 4 nothing passes. -/
def Obligations.EmptyQueueLetsTimePass : Prop :=
  ∀ s : State, s.pending = [] →
    (s.pwr.state = .run ∨ s.pwr.state = .boot → ∃ t, step s = .next t ∧ t.time = s.time + 1 ∧ t.pending = []) ∧
    (s.pwr.state = .recovery → step s = .next { s with time := s.time + 1 }) ∧
    (s.pwr.state = .deepStandby ∨ s.pwr.state = .retain ∨ s.pwr.state = .lpcd →
      step s = .next { s with aon := { s.aon with elapsed := s.aon.elapsed + 1 } }) ∧
    (s.pwr.state = .off ∨ s.pwr.state = .startup → step s = .next s)

/-- R227: after every reset type of R79 both copies of the protection table hold the listed values, and every field
not listed holds 0. -/
def Obligations.ResetTable : Prop :=
  (∀ k, k < 128 → ptWord State.reset.pt.active (0x40 + 4 * k) =
    if k = 0 then 0x0000FF07 else if k = 1 then 0x00100000 else if k = 3 then 0x20 else if k = 4 then 0x800
    else if k = 5 then 0x20 else if k = 6 then 0x1000 else if k = 7 then 0x100 else if k = 64 then 0x00100000
    else if k = 65 then 0xF else 0) ∧
  State.reset.pt.staging = State.reset.pt.active ∧
  (∀ (s : State) (n o r v : Nat),
    (s.pwr.state = .off → v ≤ 72000 → ∃ t, exec (.powerOnReset v) s = .next t ∧ t.pt = State.reset.pt) ∧
    (s.pwr.state ≠ .off → s.pwr.state ≠ .deepStandby →
      ∃ t, exec .powerGoodLoss s = .next t ∧ t.pt = State.reset.pt) ∧
    (s.pwr.state ≠ .off → 2000 ≤ n → ∃ t, exec (.pinReset n) s = .next t ∧ t.pt = State.reset.pt) ∧
    (coresRun s = true → watchdogCause o r = true → r ≠ 0 ∨ halfSince s o = true →
      ∃ t, exec (.watchdogReset o r) s = .next t ∧ t.pt = State.reset.pt) ∧
    (∀ high, s.pwr.state = .deepStandby → s.pins.wake ≠ high → wakeActive s high = true →
      ∃ t, exec (.wakeAsserted high) s = .next t ∧ t.pt = State.reset.pt) ∧
    (s.fw.activateAt = some n → n ≤ s.time → ∃ t, exec .fwActivationReset s = .next t ∧ t.pt = State.reset.pt))

/-- The invariants below hold right after reset. -/
def Obligations.ResetHasInvariants : Prop :=
  State.reset.basinCanonical = true ∧ State.reset.poundsApart = true ∧ State.reset.keeperReachable = true

/-- No step leaves two enabled tenants' pounds with a page in common, and the Keeper stays reachable: the active
table changes only through a lock cycle, which checks both (R228, R231), or a reset. -/
def Obligations.StepKeepsPoundsApart : Prop :=
  ∀ s t : State, s.poundsApart = true → s.keeperReachable = true → step s = .next t →
    t.poundsApart = true ∧ t.keeperReachable = true

/-- Every step keeps the Basin in canonical form. -/
def Obligations.StepKeepsBasinCanonical : Prop :=
  ∀ s t : State, s.basinCanonical = true → step s = .next t → t.basinCanonical = true

/-- Every command has its meaning: none is refused, and the only fault is a supply above the absolute maximum of 72
V (R38, R851) in a row that brings one. No command changes the queue behind it, so a step takes exactly one command.
-/
def Obligations.OnlyBeyondRatingStops : Prop :=
  (∀ (c : Instr) (s : State),
    (∀ r, exec c s ≠ .refused r) ∧
    ((∃ f, exec c s = .fault f) ↔
      (∃ v, (c = .powerOnReset v ∨ c = .vinBelowThreshold v ∨ c = .vinEarlyWarn v ∨ c = .vinAboveHysteresis v ∨
        c = .vinRecovered v) ∧ 72000 < v) ∨ (∃ env, c = .startUp env ∧ 72000 < env.vin))) ∧
  (∀ (c : Instr) (s t : State), exec c s = .next t → t.pending = s.pending)

/-! ## Memory, counters, doorbells and replies -/

/-- What one byte of the Basin reads after a write: the byte written, or what it read before. -/
def Obligations.BasinReadAfterWrite : Prop :=
  ∀ (s : State) (a b : Nat) (vs : List Byte), s.basinCanonical = true →
    basinByte (basinWrite a vs s) b =
      if a ≤ b ∧ b < a + vs.length ∧ b < basinSize then nth vs (b - a) 0 else basinByte s b

/-- R201: an index of 2·N or more, or one that would put the producer more than N ahead of the consumer or behind it, is
ignored, the previous value stays and IDX_ERR is set; any other index is taken over and clears IDX_ERR. CMD_PROD of a
disabled or resetting tenant stays as it is (R234), while RPL_CONS and EVT_CONS are taken over by the same rule, and
reply slots that come free let a reset under way go on (R238); before step 11 of start-up, and in recovery service, a
tenant page takes nothing and no source is raised (R87). R200: ring indices run from 0 to 2·N − 1; a ring is empty when
they are equal and full when they differ by exactly N. -/
def Obligations.RingIndexWrite : Prop :=
  (∀ (p : Port) (n : Nat) (v : Word) (s : State), PortOpen p s → n < 8 → s.pwr.state ≠ .run →
    exec (.cmdProdWrite p n v) s = .next s ∧ exec (.rplConsWrite p n v) s = .next s ∧
    exec (.evtConsWrite p n v) s = .next s) ∧
  (∀ (p : Port) (n : Nat) (v : Word) (s : State), PortReady p s → s.pwr.state = .run → n < 8 → portOf s p n = true →
    (((tenant s n).resetting = true ∨ enabled s n = false) → exec (.cmdProdWrite p n v) s = .next s) ∧
    (let t := tenant s n
    let g := t.place
    let i := v.toNat % 2 ^ 16
    (enabled s n = true → t.resetting = false → exec (.cmdProdWrite p n v) s = .next (onTenant n (fun t =>
      if 2 * g.cmdN ≤ i ∨ g.cmdN < ringUsed i t.cmdCons g.cmdN then { t with idxErr := true }
      else { t with cmdProd := i, idxErr := false }) s)) ∧
    (¬ (2 * g.rplN ≤ i ∨ g.rplN < ringUsed t.rplProd i g.rplN) → exec (.rplConsWrite p n v) s =
      .next (resetAgain (drainTenant n (onTenant n (fun t => { t with rplCons := i, idxErr := false }) s)))) ∧
    (2 * g.rplN ≤ i ∨ g.rplN < ringUsed t.rplProd i g.rplN → exec (.rplConsWrite p n v) s =
      .next (onTenant n (fun t => { t with idxErr := true }) s)) ∧
    (t.resetting = false → drainTenant n s = s) ∧
    ((∀ e, s.houseLane.exec = some e → e.phase ≠ .resetWait) → resetAgain s = s) ∧
    exec (.evtConsWrite p n v) s = .next
      (if 2 * g.evtN ≤ i ∨ g.evtN < ringUsed t.evtProd i g.evtN then onTenant n (fun t => { t with idxErr := true }) s
      else clearMarks n (onTenant n (fun t => { t with evtCons := i, idxErr := false }) s)))) ∧
  (∀ p c n : Nat, 0 < n → p < 2 * n → c < 2 * n →
    (ringUsed p c n = 0 ↔ p = c) ∧ (ringUsed p c n = n ↔ p = c + n ∨ c = p + n) ∧
    (p + 1) % (2 * n) < 2 * n ∧ ((p + 1) % (2 * n) = 0 ↔ p = 2 * n - 1))

/-- R775: a counter that reaches 0xFFFF_FFFF sticks, sets SAT and raises source 12 once with its ID and tenant. -/
def Obligations.CounterSaturates : Prop :=
  ∀ (s : State) (id n : Nat),
    (ctrGet s id + n < 0xFFFFFFFF → ctrGet (ctrAdd id n s) id = ctrGet s id + n ∧
      (ctrAdd id n s).ctr.sat = s.ctr.sat ∧ (ctrAdd id n s).fab = s.fab ∧ (ctrAdd id n s).aon = s.aon) ∧
    (0xFFFFFFFF ≤ ctrGet s id + n → ctrGet (ctrAdd id n s) id = 0xFFFFFFFF ∧ ctrSat (ctrAdd id n s) id = true ∧
      (ctrSat s id = true → (ctrAdd id n s).fab = s.fab ∧ (ctrAdd id n s).aon = s.aon) ∧
      (ctrSat s id = false → ∃ u : State, u.fab = s.fab ∧ u.aon = s.aon ∧
        ctrAdd id n s = raise 12 (id + (if 0x10 ≤ id ∧ id < 0x28 then id % 8 else 0) * 2 ^ 16) u)) ∧
    (∀ k, k ≠ id → ctrGet (ctrAdd id n s) k = ctrGet s k)

/-- Where doorbells wait: at the fabric behind those of their producer, or, while CK-FAB stands, in the AON queue,
which keeps the first four and marks bit 23 of the fourth when more come (R11, R21, R109, R110). -/
def Obligations.DoorbellWaits : Prop :=
  ∀ (s : State) (src pay : Nat),
    (fabStopped s = false → raise src pay s = s.onFab fun f =>
      { f with queues := modAt f.queues (producerIndex (producerOf src)) (· ++ [⟨src, BitVec.ofNat 24 pay, false⟩]) }) ∧
    (fabStopped s = true → s.aon.queue.length < 4 → raise src pay s = s.onAon fun a =>
      { a with queue := a.queue ++ [⟨src, BitVec.ofNat 24 pay, false⟩] }) ∧
    (∀ q1 q2 q3 q4, fabStopped s = true → s.aon.queue = [q1, q2, q3, q4] → raise src pay s = s.onAon fun a =>
      { a with queue := [q1, q2, q3, { q4 with pay := q4.pay ||| 0x800000 }] })

/-- A reply stands whole in the tenant's next reply slot, the producer index moves on by one, and no other byte of
the Basin changes (R268, R270–R273, R276). -/
def Obligations.ReplyStandsInSlot : Prop :=
  ∀ (p : Packet) (start : Nat) (tow susp : Bool) (cs : List Clamp) (st : Nat) (body : List Byte) (own : Option Nat)
    (s : State),
    let t := tenant s p.tenant
    let size := slotSize t.place.rplBig
    let fit := clampsFit size body.length cs
    let content := body ++ (fit.map clampBytes).flatten
    let slot := (replyHeader s p start tow susp cs (replyStatus st cs) content.length
      (decide (fit.length < cs.length)) ++ content).take size
    let a := t.place.baseAddr + t.place.rplOff + (t.rplProd % t.place.rplN) * size
    let u := replyWith p start tow susp cs st body own s
    s.basinCanonical = true → p.tenant < s.tenants.length → 0 < t.place.rplN → a + size ≤ basinSize →
      (∀ i, i < slot.length → basinByte u (a + i) = nth slot i 0) ∧
      (∀ b, b < a ∨ a + slot.length ≤ b → basinByte u b = basinByte s b) ∧
      (tenant u p.tenant) = { t with rplProd := (t.rplProd + 1) % (2 * t.place.rplN) } ∧
      (∀ m, m ≠ p.tenant → tenant u m = tenant s m)

/-- Besides the slot, its ring index, the counters and the doorbells that follow it, a reply changes nothing. What
an answer does to its lane and its tenant's lease: the lane is free, and where no revocation waits on either chain
nothing else than the reply happens; a suspended packet keeps its end until it goes on (R268, R274, R281; log 188). A
packet whose last frame ends past its deadline, or when it is to stop, ends with that status (R286, R748). -/
def Obligations.ReplyFrame : Prop :=
  (∀ (p : Packet) (start : Nat) (tow susp : Bool) (cs : List Clamp) (st : Nat) (body : List Byte) (own : Option Nat)
    (s : State),
    let u := replyWith p start tow susp cs st body own s
    u = { s with basin := u.basin, tenants := u.tenants, ctr := u.ctr, fab := u.fab, aon := u.aon } ∧
    u.aon = { s.aon with queue := u.aon.queue } ∧ (fabStopped s = false → u.aon = s.aon)) ∧
  (∀ (l : LaneId) (st : Nat) (body : List Byte) (own : Option Nat) (e : Exec) (s : State), execOf s l = some e →
    (e.parked = false → s.hfLease.revoke = none → s.uhfLease.revoke = none →
      finish l st body own s = replyWith e.pkt e.start e.towpath e.suspended e.clamps (endStatus s e st) body own
        (onLane l (fun x => { x with exec := none }) s) ∧
      execOf (finish l st body own s) l = none) ∧
    (e.parked = true → finish l st body own s =
      onLane l (fun x => { x with exec := some { e with phase := .done (endStatus s e st), partialBody := body } }) s) ∧
    (endsAtFrame e.phase = false ∨ stopDue s e = none → endStatus s e st = st) ∧
    (∀ due, endsAtFrame e.phase = true → stopDue s e = some due → endStatus s e st = due))

/-! ## Ports and registers -/

/-- One word of a port transaction, its address and data as R164 transfers them: a word that passes its check takes
effect or is read, PORT_RESET and PA_CFG when chip select rises; a word that fails is dropped or reads 0 and raises
source 11 (R160, R175, R184, R185, R188, R205). A misaligned address is ALIGN: a write has no effect and a read gives
zeros (R196, R212). -/
def Obligations.PortWord : Prop :=
  ∀ (p : Port) (ab db : List Byte) (s : State), PortOpen p s → ab.length = 4 → db.length = 4 →
    let addr := addrOf ab []
    let v : Word := BitVec.ofNat 32 (leNat db)
    let taken := (if addr = 0x400040 ∧ s.pwr.state ≠ .recovery then portResetReg v.toNat else id)
      ((if addr = 0x400020 ∧ s.pwr.state ≠ .recovery then paCfgSet v.toNat else id) (writeWord p addr v.toNat s))
    (addr % 4 ≠ 0 → exec (.portWrite p ab db [] false) s = .next (portError p 1 addr s) ∧
      exec (.registerWrite p addr v) s = .next (portError p 1 addr s) ∧
      exec (.portRead p ab [] 1 .whole false) s = .next (drive p [0] (portError p 1 addr s))) ∧
    (addr % 4 = 0 →
    (accessKind s p true addr v.toNat = none →
      exec (.portWrite p ab db [] false) s = .next taken ∧ exec (.registerWrite p addr v) s = .next taken) ∧
    (∀ k, accessKind s p true addr v.toNat = some k →
      exec (.portWrite p ab db [] false) s = .next (accessFault p true k addr s) ∧
      exec (.registerWrite p addr v) s = .next (accessFault p true k addr s)) ∧
    (accessKind s p false addr 0 = none → mustStall s p addr = false →
      exec (.portRead p ab [] 1 .whole false) s =
        .next (drive p [(readWord p addr false s).1] (readWord p addr false s).2)) ∧
    (∀ k, accessKind s p false addr 0 = some k →
      exec (.portRead p ab [] 1 .whole false) s = .next (drive p [0] (accessFault p false k addr s))))

/-- R185: each word of a burst is checked on its own; a word that fails returns 0 or is dropped, and the words that
pass take effect. Here a burst of words of the Basin; a word's bytes come least significant first (R164). -/
def Obligations.BurstWordsCheckedApart : Prop :=
  ∀ (p : Port) (ab : List Byte) (ws : List Word) (s : State), PortReady p s → s.basinCanonical = true →
    ab.length = 4 → ws ≠ [] →
    let addr := addrOf ab []
    addr % 4 = 0 → addr + 4 * ws.length ≤ basinSize →
    (∃ t, exec (.portWrite p ab (ws.map fun w => le 4 w.toNat).flatten [] false) s = .next t ∧
      (∀ i, i < ws.length → basinWord t (addr + 4 * i) =
        if basinKind s p true (addr + 4 * i) = none then (nth ws i 0).toNat else basinWord s (addr + 4 * i)) ∧
      (∀ b, b < addr ∨ addr + 4 * ws.length ≤ b → basinByte t b = basinByte s b)) ∧
    (∃ t, exec (.portRead p ab [] ws.length .whole false) s = .next t ∧
      (portSt t p).rdata = ((List.range ws.length).map fun i =>
        le 4 (if basinKind s p false (addr + 4 * i) = none then basinWord s (addr + 4 * i) else 0)).flatten)

/-- Transactions as they are transferred: the address with its most significant byte first and a word with its least
significant byte first (R164); the command codes of R163 and R179, an extension byte only on port A in 8D-8D-8D; a
transfer that chip select cuts inside its address is TRUNC with the bits received, zeros in place of the others (R196,
R197); one that is held open goes on with the next word (R165, R187); one cut inside a word keeps the whole words before
it and sets TRUNC (R196, R212). A read that ends before its first word is ABANDON, and a misaligned write has no effect,
held open or not (R196, R212). -/
def Obligations.TransfersAndBursts : Prop :=
  (∀ a b c d : Byte, addrOf [a, b, c, d] [] = ((a.toNat * 256 + b.toNat) * 256 + c.toNat) * 256 + d.toNat ∧
    wordsOf [a, b, c, d] = [BitVec.ofNat 32 (a.toNat + 256 * b.toNat + 65536 * c.toNat + 16777216 * d.toNat)]) ∧
  (portCommand true [0x02, 0xFD] = some .write ∧ portCommand true [0x0B, 0xF4] = some .read ∧
    portCommand true [0xFF, 0xFF] = some .reset ∧ portCommand false [0x02] = some .write ∧
    portCommand false [0x0B] = some .read ∧ portCommand false [0xFF] = some .reset) ∧
  (∀ s : State, hasExtension s .b = false ∧ hasExtension s .a = s.portA.mode) ∧
  (∀ (p : Port) (ab db : List Byte) (tail : List Bool) (fin : TxEnd) (n : Nat) (s : State), PortOpen p s →
    (ab.length < 4 → exec (.portWrite p ab db tail false) s = .next (portError p 2 (addrOf ab tail) s) ∧
      exec (.portRead p ab tail n fin false) s = .next (portError p 2 (addrOf ab tail) s)) ∧
    (let addr := addrOf ab []
     let r := burstWrite p addr (wordsOf db) false s
     ab.length = 4 → addr % 4 = 0 →
     (db.length % 4 = 0 → exec (.portWrite p ab db [] true) s =
       .next (onPort p (fun q => { q with
         burst := some
           { addr := (addr + 4 * (wordsOf db).length) % 2 ^ 32, write := true, failed := r.1
             reset := resetWord s p addr (wordsOf db), paCfg := lateWord s p 0x400020 addr (wordsOf db)
             fresh := false, doors := doorsRung s r.2 } }) r.2)) ∧
     (db.length % 4 ≠ 0 → resetWord s p addr (wordsOf db) = 0 → lateWord s p 0x400020 addr (wordsOf db) = none →
       exec (.portWrite p ab db [] false) s =
         .next (portError p 2 ((addr + 4 * (wordsOf db).length) % 2 ^ 32) r.2)) ∧
     (addr + 4 * (wordsOf db).length ≤ 0x400040 → resetWord s p addr (wordsOf db) = 0) ∧
     (addr + 4 * (wordsOf db).length ≤ 0x400020 → lateWord s p 0x400020 addr (wordsOf db) = none) ∧
     exec (.portRead p ab [] 0 .whole false) s =
       .next (portError p 4 addr (discardDraw p addr (drive p [] s)))) ∧
    (let addr := addrOf ab []
     ab.length = 4 → addr % 4 ≠ 0 →
     (db.length % 4 = 0 → exec (.portWrite p ab db [] true) s = .next (onPort p (fun q => { q with
         burst := some
           { addr := (addr + 4 * (wordsOf db).length) % 2 ^ 32, write := true, err := true, fresh := false
             kind := .misaligned } }) (portError p 1 addr s))))) ∧
  (∀ (p : Port) (o : OpenTx) (db : List Byte) (s : State), portUp s p = true → (portSt s p).burst = some o →
    o.write = true → o.kind = .live → o.reset = 0 → o.paCfg = none → db.length % 4 = 0 →
    o.addr + 4 * (wordsOf db).length ≤ 0x400020 →
    let t := onPort p (fun q => { q with burst := none }) s
    exec (.portWrite p [] db [] false) s = .next (burstWrite p o.addr (wordsOf db) o.failed t).2)

/-- R195: a write to PA_CFG from port B is ignored and raises source 11 with KIND = 2. PA_CFG written from port A,
TIME_LO with its latch, and the error registers read (R190, R192, R194, R197). -/
def Obligations.GlobalRegisters : Prop :=
  (∀ (v : Word) (s : State), PortReady .b s →
    exec (.paCfgWrite .b v) s = .next (ctrAdd 7 1 (raise 11 (1 + 2 + 4 * 2 + 16 * bits 0x400020 23 4) s))) ∧
  (∀ (p q : Port) (v : Word) (s : State),
    (PortReady .a s → exec (.paCfgWrite .a v) s = .next (s.onPortA fun x =>
      { x with mode := bit v.toNat 0, latency := max 4 (bits v.toNat 12 8) })) ∧
    (PortReady p s → exec (.timeLoRead p) s = .next (onPort p (fun x =>
      { x with timeHi := BitVec.ofNat 32 (s.time / 2 ^ 32), rdata := le 4 (s.time % 2 ^ 32) }) s)) ∧
    (PortReady p s → ∃ t, exec (.portErrRead p q) s = .next t ∧ (portSt t p).rdata = le 4 (portSt s q).err.toNat ∧
      (portSt t q).err = 0 ∧ (portSt t q).armed = true ∧ (portSt t q).errAddr = (portSt s q).errAddr ∧
      t = { s with portA := t.portA, portB := t.portB }))

/-- Port errors: an unknown command, a command or a reset sequence cut short, an access to a reserved address (R161,
R163, R188, R196, R205, R211). A port reset by the sequence of R205, or by PORT_RESET with its KEY from a port of the
Keeper, port A before port B; a write with another KEY changes nothing (R198, R205–R211). -/
def Obligations.PortErrorsAndResets : Prop :=
  (∀ (p : Port) (cmd : List Byte) (part : Bool) (addr n : Nat) (s : State), PortOpen p s →
    (let k := 1 + b2n (hasExtension s p)
     (k ≤ cmd.length → portCommand (hasExtension s p) (cmd.take k) = none →
       exec (.portBadCommand p cmd part) s = .next (portError p 3 0 s)) ∧
     (cmd.length < k → cmd ≠ [] ∨ part = true →
       exec (.portBadCommand p cmd part) s = .next (portError p 2 0 s)) ∧
     (cmd = [] → part = false → exec (.portBadCommand p cmd part) s = .next s)) ∧
    (0 < n → n < 16 → exec (.portResetSequence p n) s = .next (portError p 2 0 s)) ∧
    (16 ≤ n → exec (.portResetSequence p n) s = .next (resetPort p s)) ∧
    (addr % 4 = 0 → accessKind s p true addr 0 = some 0 →
      exec (.reservedAccess p addr true) s = .next (accessFault p true 0 addr s)) ∧
    (addr % 4 = 0 → accessKind s p false addr 0 = some 0 →
      exec (.reservedAccess p addr false) s = .next (drive p [0] (accessFault p false 0 addr s)))) ∧
  (∀ (p : Port) (v : Word) (s : State), PortReady p s →
    (portOf s p 0 = true → bits v.toNat 15 8 = 0xA5 → exec (.portReset p v) s =
      .next ((if bit v.toNat 1 then resetPort .b else id) ((if bit v.toNat 0 then resetPort .a else id) s))) ∧
    (portOf s p 0 = true → bits v.toNat 15 8 ≠ 0xA5 → exec (.portReset p v) s = .next s))

/-- The stall of port A: the data are ready, or its limit passes, or the RNG is fenced, and an RNG word reads 0 with
TIMEOUT; a read of IC_SYNC waits for the sources that had won before it (R168, R171, R352, R703). RNG_DATA with a word
ready; without one port A stalls and port B reads 0 late, as LATE at its address (log 182); RNG_STAT (R168, R182, R703).
A stalled read that a new transaction ends is ABANDONed, and so is a read that ends before its first word (R168, R196,
R210). -/
def Obligations.PortStallsAndRngReads : Prop :=
  (∀ (st : Stall) (w : Word) (s u : State), s.portA.stall = some st →
    (st.addr = 0x402000 → fenced s 4 = false → rngTakeWord s = some (w, u) →
      exec .portReadDataReady s = .next (endStall st w.toNat u)) ∧
    (st.addr ≠ 0x402000 → st.ahead = 0 ∨ s.ic.flight = [] → exec .portReadDataReady s = .next (endStall st 1 s)) ∧
    (st.addr ≠ 0x402000 → st.since + 1 ≤ s.time →
      exec .portStallLimit s = .next (endStall st 1 (deliverAhead st s))) ∧
    (st.addr = 0x402000 → st.since + cfg s 0x602 ≤ s.time →
      exec .portStallLimit s = .next (endStall st 0 (s.onPortA fun q => { q with rngTimeout := true })) ∧
      exec .rngWaitTimeout s = .next (endStall st 0 (s.onPortA fun q => { q with rngTimeout := true }))) ∧
    (fenced s 4 = true → st.addr = 0x402000 →
      exec .portReadDataReady s = .next (endStall st 0 (s.onPortA fun q => { q with rngTimeout := true }))) ∧
    (portUp s .a = true → s.portA.burst = none → ∀ (ab db : List Byte) (n : Nat) (fin : TxEnd), ab.length = 4 →
      let t := portError .a 4 st.addr (discardDraw .a st.addr (s.onPortA fun q => { q with stall := none }))
      exec (.portRead .a ab [] n fin false) s = exec (.portRead .a ab [] n fin false) t ∧
      exec (.portWrite .a ab db [] false) s = exec (.portWrite .a ab db [] false) t)) ∧
  (∀ (p : Port) (w : Word) (s u : State), PortReady p s → fenced s 4 = false →
    (rngTakeWord s = some (w, u) → exec (.rngDataRead p) s = .next (drive p [w.toNat] u)) ∧
    (p = .a → rngTakeWord s = none → exec (.rngDataRead p) s =
      .next ((rngWait s).onPortA fun q =>
        { q with rdata := [], stall := some ⟨0x402000, 1, .whole, s.time, s.ic.flight.length⟩ })) ∧
    (p = .b → rngTakeWord s = none → exec (.rngDataRead p) s =
      .next (drive .b [0] (portError .b 5 0x402000 ((rngWait s).onPortB fun q => { q with rngTimeout := true })))) ∧
    exec (.rngStatRead p) s = .next (drive p
      [b2n (portSt s p).rngTimeout + 4 * b2n s.rng.waiting + 8 * b2n s.rng.stretched]
      (onPort p (fun q => { q with rngTimeout := false }) s)))

/-- Recovery service: REC_CMD stages, verifies and activates bank A (R153–R155). An NV job moves by its programs and
erases: a page program that is not the last leaves one less, the last body page is read back, the commit word ends
the job; an erase that is not the last leaves one less; between two of them lies a yield point of the packet that waits
for it (R129–R135, R281, R282, R864). FW_STAGE_BLOCK programs a block of the other bank and drops the last verdict;
FW_VERIFY judges that bank; FW_ACTIVATE of a verified bank waits for its activation record, and answers 0x23 without a
verdict (R143–R152). -/
def Obligations.FirmwareAndNvJobs : Prop :=
  (∀ (s u : State), s.pwr.state = .recovery → PortOpen .b s → recBusy s = false →
    let off := s.fw.recOffset.toNat
    let len := s.fw.recLength.toNat
    (stageRangeOk off len = true → nvSubmit (stageJob s false off (basinRead s 0 len) none) s = some u →
      exec .recStage s = .next
        (setRec true (recVerdict s) 0 ((dropAwaited false (off / 4096) u).onFw fun f => { f with verified := false }))) ∧
    exec .recVerify s = .next (setRec false (fwVerdict s s.nv.fwA) 0
      (s.onFw fun f => { f with verified := fwVerdict s s.nv.fwA == 0 })) ∧
    (s.fw.verified = true → s.nv.fwA.act = .erased → nvSubmit (nvJob (.fwAct false 1) none 0x5FE 0) s = some u →
      exec .recActivate s = .next (setRec true (recVerdict s) 0 u))) ∧
  (∀ (j : NvJob) (left k : Nat) (mis unc : Bool) (s : State), nvAwake s = true → s.nv.job = some j →
    (j.stage = .body left → 1 < left → exec (.nvProgramDone mis unc k) s =
      .next (jobYield j (setStage (.body (left - 1)) (programmed j left s)))) ∧
    (j.stage = .body left → left ≤ 1 → hasCommit j.kind = false →
      exec (.nvProgramDone mis unc k) s = .next (jobDone j (programmed j left s))) ∧
    (j.stage = .body left → left ≤ 1 → hasCommit j.kind = true →
      exec (.nvProgramDone false false k) s =
        .next (jobYield j (setStage .commit (ctrAdd 3 k (programmed j left s)))) ∧
      exec (.nvProgramDone true false k) s = .next (jobMismatch j (ctrAdd 3 k (programmed j left s))) ∧
      exec (.nvProgramDone mis true k) s = .next
        (jobMismatch j (logRecord 7 0xFF 0xFF 0 (j.page * 256) (ctrAdd 4 1 (ctrAdd 3 k (programmed j left s)))))) ∧
    (j.stage = .commit → exec (.nvProgramDone mis unc k) s = .next (jobDone j s)) ∧
    (j.stage = .erase left → 1 < left →
      exec .nvEraseDone s = .next (jobYield j (setStage (.erase (left - 1)) (jobErased j left s)))) ∧
    (j.stage = .erase left → left ≤ 1 →
      exec .nvEraseDone s = .next (jobYield j (eraseFinished j (jobErased j left s))))) ∧
  (∀ (j : NvJob) (l : LaneId) (e : Exec) (st : Nat) (s : State),
    (jobPacket j s = none → jobYield j s = s) ∧
    (jobPacket j s = some (l, e) → stopDue s e = none →
      (e.sliceOver = false ∨ otherEligible s l e.pkt.tenant = false → jobYield j s = s) ∧
      (e.sliceOver = true → otherEligible s l e.pkt.tenant = true → jobYield j s = suspendHere l e s)) ∧
    (jobPacket j s = some (l, e) → stopDue s e = some st →
      jobYield j s = wakeJobs (finish l st [] none (stopNv l st e s)))) ∧
  (∀ (e : Exec) (s u : State),
    let b := otherBank s
    let off := Packet32 e.pkt 0
    let len := Packet32 e.pkt 4
    (Ready .house 0x0900 e s → stageRangeOk off len = true →
      nvSubmit (stageJob s b off (poundRead s e.pkt.tenant (Packet32 e.pkt 8) len) (some .house)) s = some u →
      exec .fwStageBlock s = .next (setPhase .house (.nv 0)
        ((dropAwaited b (off / 4096) u).onFw fun f => { f with verified := false }))) ∧
    (∀ ecc : EccRead, let lo := if b then 0x60000 else 0
     let v := eccRead lo (lo + 0x5FE00) ecc s
     Ready .house 0x0901 e s → exec (.fwVerify ecc) s = .next (finish .house 0 (fwVerifyBody v (bankOf v b)) none
      (v.onFw fun f => { f with verified := fwVerdict v (bankOf v b) == 0 }))) ∧
    (let k : JobKind := .fwAct b ((actSeq s s.fw.bankB + 1) % 2 ^ 32)
     Ready .house 0x0902 e s → s.fw.verified = true → (bankOf s b).act = .erased →
      nvSubmit (nvJob k (some .house) (pageOf k) 0) s = some u →
      exec .fwActivate s = .next (setPhase .house (.nv 0) u)) ∧
    (Ready .house 0x0902 e s → s.fw.verified = false → exec .fwActivate s = .next (finish .house 0x23 [] none s)))

/-! ## Interrupt controller -/

/-- R343: a write of source s to IC_EOIt returns s from ACTIVE(t) to IDLE; a write that names a source that is not
ACTIVE(t) has no effect but to set IC_TSTATt.EOI_ERR. -/
def Obligations.EndOfInterrupt : Prop :=
  ∀ (p : Port) (t : Nat) (v : Word) (s : State), PortReady p s → t < 4 → portTarget s p t = true →
    let n := v.toNat % 128
    (srcState s n = .active t → exec (.icEoiWrite p t v) s =
      .next (s.onIc fun i => { i with st := modAt i.st n fun _ => .idle })) ∧
    (srcState s n ≠ .active t → exec (.icEoiWrite p t v) s =
      .next (s.onIc fun i => { i with eoiErr := modAt i.eoiErr t fun _ => true }))

/-- A claim takes the source with the highest PRIO, the lowest number on a tie, with its payload, and makes it
ACTIVE(t); a claim without a source reads 0 (R342). The best candidate has the highest priority, and the lowest
number among those (R333). -/
def Obligations.BestSourceTaken : Prop :=
  (∀ (p : Port) (t n : Nat) (s : State), PortReady p s → t < 4 → portTarget s p t = true →
    (n < 128 → deliveredTo s t n = true →
      (∀ m, m < 128 → deliveredTo s t m = true → srcPrio s m < srcPrio s n ∨ srcPrio s m = srcPrio s n ∧ n ≤ m) →
      exec (.icClaimRead p t) s = .next (drive p [n + 2 ^ 7 + 2 ^ 8 * (nth s.ic.pay n 0).toNat]
        (s.onIc fun i => { i with st := modAt i.st n fun _ => .active t }))) ∧
    ((∀ m, m < 128 → deliveredTo s t m = false) → exec (.icClaimRead p t) s = .next (drive p [0] s))) ∧
  (∀ (s : State) (n : Nat), bestSource s = some n ↔
    n < 128 ∧ candidate s n = true ∧
    ∀ m, m < 128 → candidate s m = true → srcPrio s m < srcPrio s n ∨ srcPrio s m = srcPrio s n ∧ n ≤ m)

/-- The other registers of the controller that a port reads with an effect: IC_SYNC, IC_STATUS, IC_EVTDROPn, IC_TSTATt
(R317, R340, R345, R352). IC_SRC(s) from a port of the Keeper: all 15 bits are taken over, for the sources from 112 on
all but OWNER; a change of OWNER or MODE while the source is not idle is refused with BUSY, and a new PROFILE acts at
once on a count that runs (R322–R324, R326). -/
def Obligations.ControllerRegisters : Prop :=
  (∀ (p : Port) (fast : Bool) (n t : Nat) (s : State), PortReady p s →
    (p = .a ∨ fast = false ∨ s.ic.flight = [] → exec (.icSyncRead p fast) s = .next (drive p [1] (deliverAll s))) ∧
    (p = .b → fast = true → s.ic.flight ≠ [] → exec (.icSyncRead p fast) s = .next (drive p [0] s)) ∧
    exec (.icStatusRead p) s = .next (drive p [b2n s.ic.busy] (s.onIc fun i => { i with busy := false })) ∧
    (n < 8 → exec (.icEvtdropRead p n) s = .next (drive p [ctrGet s (0x10 + n)] (ctrClear (0x10 + n) s))) ∧
    (t < 4 → portTarget s p t = true → exec (.icTstatRead p t) s = .next (drive p [tstat s t]
      (s.onIc fun i => { i with eoiErr := modAt i.eoiErr t fun _ => false })))) ∧
  (∀ (p : Port) (n : Nat) (v : Word) (s : State), PortReady p s → portOf s p 0 = true → n < 128 →
    reservedSrc n = false →
    let w := if n < 112 then v.toNat % 2 ^ 15
      else v.toNat % 2 ^ 8 + bits (icSrc s n) 10 8 * 2 ^ 8 + bits v.toNat 14 11 * 2 ^ 11
    let idle := srcState s n = .idle ∧ pendBit s n = false ∧ nth s.ic.count n 0 = 0
    let same := bits w 11 8 = bits (icSrc s n) 11 8
    (idle ∨ same → exec (.icSrcWrite p n v) s =
      .next (newProfile n (s.onIc fun i => { i with src := modAt i.src n fun _ => BitVec.ofNat 32 w }))) ∧
    (nth s.ic.count n 0 = 0 → newProfile n s = s) ∧
    (¬ idle → ¬ same → exec (.icSrcWrite p n v) s = .next (s.onIc fun i => { i with busy := true })))

/-- R320: a write to IC_PENDi or IC_MASKi changes only the bits of sources whose owner has the writing port in its
port set; every other bit keeps its value, and no fault is raised. IC_SETCLR sets or clears one pending or mask bit
of a source that the port may change, and no other bit (R320, R347). While the controller is fenced a write to a pending
bit is ignored without a fault, and a write to a mask acts as usual (R316). -/
def Obligations.PendingAndMaskBits : Prop :=
  (∀ (p : Port) (i : Nat) (v : Word) (s : State), PortReady p s → i < 4 →
    (fenced s 7 = false → ∃ t, exec (.icPendWrite p i v) s = .next t ∧
      t = s.onIc (fun c => { c with pend := t.ic.pend }) ∧
      ∀ k, k < 128 → t.ic.pend.getLsbD k =
        if 32 * i ≤ k ∧ k < 32 * i + 32 ∧ portOwnsSrc s p k = true then v.getLsbD (k - 32 * i)
        else s.ic.pend.getLsbD k) ∧
    (fenced s 7 = true → exec (.icPendWrite p i v) s = .next s) ∧
    (∃ t, exec (.icMaskWrite p i v) s = .next t ∧ t = s.onIc (fun c => { c with mask := t.ic.mask }) ∧
      ∀ k, k < 128 → t.ic.mask.getLsbD k =
        if 32 * i ≤ k ∧ k < 32 * i + 32 ∧ portOwnsSrc s p k = true then v.getLsbD (k - 32 * i)
        else s.ic.mask.getLsbD k)) ∧
  (∀ (p : Port) (v : Word) (s : State), PortReady p s → v.toNat < 128 → portOwnsSrc s p v.toNat = true →
    (fenced s 7 = false →
      (∃ t, exec (.setclrSetPending p v) s = .next t ∧ t = s.onIc (fun i => { i with pend := t.ic.pend }) ∧
        ∀ k, k < 128 → t.ic.pend.getLsbD k = (s.ic.pend.getLsbD k || decide (k = v.toNat))) ∧
      (∃ t, exec (.setclrClearPending p v) s = .next t ∧ t = s.onIc (fun i => { i with pend := t.ic.pend }) ∧
        ∀ k, k < 128 → t.ic.pend.getLsbD k = (s.ic.pend.getLsbD k && decide (k ≠ v.toNat)))) ∧
    (fenced s 7 = true → exec (.setclrSetPending p v) s = .next s ∧ exec (.setclrClearPending p v) s = .next s) ∧
    (∃ t, exec (.setclrSetMask p v) s = .next t ∧ t = s.onIc (fun i => { i with mask := t.ic.mask }) ∧
      ∀ k, k < 128 → t.ic.mask.getLsbD k = (s.ic.mask.getLsbD k || decide (k = v.toNat))) ∧
    (∃ t, exec (.setclrClearMask p v) s = .next t ∧ t = s.onIc (fun i => { i with mask := t.ic.mask }) ∧
      ∀ k, k < 128 → t.ic.mask.getLsbD k = (s.ic.mask.getLsbD k && decide (k ≠ v.toNat))))

/-- A doorbell on its way: from a port to the fabric, through the fabric to the controller, coalesced, then
arbitrated with the owner that the source has then, then delivered (R21, R312–R315, R326, R333, R334, R337); while no
firmware runs none of it moves (R356, R357). -/
def Obligations.DoorbellPath : Prop :=
  ∀ (p : Port) (v : Word) (d : Doorbell) (n t : Nat) (x : Nat × Nat × Nat × Bool) (rest : List (Nat × Nat × Nat × Bool))
    (s u : State), fenced s 7 = false →
    (PortReady p s → 112 ≤ v.toNat % 2 ^ 8 → v.toNat % 2 ^ 8 < 128 →
      portOf s p ((v.toNat % 2 ^ 8 - 112) / 2) = true → exec (.icDoorbellWrite p v) s =
        .next (enqueue (match p with | .a => .portA | .b => .portB)
          ⟨v.toNat % 2 ^ 8, BitVec.ofNat 24 (v.toNat / 256), true⟩ s)) ∧
    (inService s = true → takeDoorbell s = some (d, u) → exec .doorbellArrived s = .next (arrive d u)) ∧
    (inService s = true → nth s.ic.count n 0 ≠ 0 → nth s.ic.timer n 0 + coalesceTime s n ≤ s.time →
      exec (.coalesceTimeout n) s = .next (s.onIc fun i =>
        { i with count := modAt i.count n fun _ => 0, pend := i.pend ||| (1#128 <<< n) })) ∧
    (inService s = true → bestSource s = some n → chooseTarget s n = some t → exec .arbitration s =
      .next (s.onIc fun i =>
        { i with
          rr := t, pend := i.pend &&& ~~~(1#128 <<< n)
          st := if srcModeC s n then modAt i.st n fun _ => .won t else i.st
          flight := i.flight ++ [(n, t, srcOwner s n, srcModeC s n)] })) ∧
    (inService s = true → s.ic.flight = x :: rest →
      exec .delivery s = .next (deliver x (stallNearer (s.onIc fun i => { i with flight := rest })))) ∧
    (inService s = false → exec .doorbellArrived s = .next s ∧ exec (.coalesceTimeout n) s = .next s ∧
      exec .arbitration s = .next s ∧ exec .delivery s = .next s)

/-- The record of a mode Q doorbell in the owner's event ring, or its drop and count when the ring is full or the
owner disabled (R313, R335, R339, R341). -/
def Obligations.EventRecord : Prop :=
  ∀ (d : Doorbell) (s : State), s.basinCanonical = true → srcOwner s d.src < s.tenants.length →
    let n := srcOwner s d.src
    let t := tenant s n
    let g := t.place
    let a := g.baseAddr + g.evtOff + 16 * (t.evtProd % g.evtN)
    let bytes := le 1 d.src ++ le 1 (b2n t.evtLost + 2 * b2n d.byPort) ++ le 1 n ++ le 1 0
      ++ le 4 t.evtSeq ++ le 4 (stamp s) ++ le 4 d.pay.toNat
    let dropped := enabled s n = false ∨ g.evtN = 0 ∨ ringUsed t.evtProd t.evtCons g.evtN = g.evtN
    (¬ dropped → a + 16 ≤ basinSize →
      (∀ i, i < 16 → basinByte (writeRecord d s) (a + i) = nth bytes i 0) ∧
      (∀ b, b < a ∨ a + 16 ≤ b → basinByte (writeRecord d s) b = basinByte s b) ∧
      tenant (writeRecord d s) n = { t with
        evtProd := (t.evtProd + 1) % (2 * g.evtN), evtSeq := (t.evtSeq + 1) % 2 ^ 32, evtLost := false }) ∧
    (dropped → (writeRecord d s).basin = s.basin ∧
      tenant (writeRecord d s) n = { t with evtSeq := (t.evtSeq + 1) % 2 ^ 32, evtLost := true } ∧
      ctrGet (writeRecord d s) (0x10 + n) = min 0xFFFFFFFF (ctrGet s (0x10 + n) + 1))

/-! ## Packets -/

/-- Fetching visits the tenants round robin, takes the packet out of the ring, and queues it or answers it (R266,
R267, R276–R278). A free lane admits the packet of the tenant that the round robin chooses: the credit falls by one,
the packet leaves the queue and executes from now on with the deadline of R289, a cipher command with the
key slot as it stands then (R279–R281, R709). -/
def Obligations.PacketFetchedAndAdmitted : Prop :=
  (∀ (n : Nat) (s : State), s.pwr.state = .run → s.pwr.entry = none → nextVisit s = some n →
    let v := s.onVisit fun _ => (n + 1) % 8
    let bs := readSlot s n
    let p := packetOfBytes n s.packets s.time bs
    let u := (advanceCons n v).onPackets (· + 1)
    let bad := basinFenced s (nextSlot s n).1 (16 + p.params.length)
    (bad = true → exec .packetFetch s = .next (answer p 0x13 u)) ∧
    (∀ st, bad = false → fetchStatus v n bs p = some st → exec .packetFetch s = .next (answer p st u)) ∧
    (bad = false → fetchStatus v n bs p = none → exec .packetFetch s = .next { u with queue := u.queue ++ [p] })) ∧
  (∀ (l : LaneId) (n : Nat) (p : Packet) (s : State), s.pwr.state = .run → s.pwr.entry = none →
    execOf s l = none → chooseTenant s l = some n → offerOf s l n = some (.head p) → needsFenced s p = false →
    expired s p = false →
    exec (.packetAdmit l) s = .next ((onLane l (fun x =>
      { x with
        credit := modAt (refilled s l) n (· - 1), next := (n + 1) % 8
        exec := some { pkt := holderDeadline s l p, start := s.time % 2 ^ 32, slice := s.time, sliceOver := false
                       suspended := false, towpath := false, clamps := [], stop := none, partialBody := []
                       phase := .fresh, parked := false
                       slot := if p.opcode = 0x0720 ∨ p.opcode = 0x0721 then
                           some (nth s.nv.slots (Packet8 p 0) KeySlot.empty) else none
                       used := nth s.keyUsed (Packet8 p 0) 0, admitted := s.time } }) s).onQueue fun q => q.filter fun r => r.id != p.id))

/-- The tenant that R279 chooses has an eligible packet and credit left, and no tenant between the round robin's
pointer and it has both. -/
def Obligations.RoundRobinChoice : Prop :=
  ∀ (l : LaneId) (n : Nat) (s : State), chooseTenant s l = some n ↔
    ∃ i, i < 8 ∧ n = ((laneSt s l).next + i) % 8 ∧ eligible s l n = true ∧ 0 < nth (refilled s l) n 0 ∧
      ∀ j, j < i → eligible s l (((laneSt s l).next + j) % 8) = false ∨
        nth (refilled s l) (((laneSt s l).next + j) % 8) 0 = 0

/-- The execution slice and the yield point: when the slice is over and another tenant has a packet for the lane,
the packet is suspended at its next yield point; a packet that must stop ends there (R281, R282, R286). A deadline
that has passed marks the executing and suspended packets it concerns with 0x15, which they end with at their next
yield point; here with no packet waiting anywhere (R285, R286). -/
def Obligations.SliceYieldDeadline : Prop :=
  (∀ (l : LaneId) (e : Exec) (st : Nat) (s : State), execOf s l = some e →
    (e.slice + cfg s 0x803 ≤ s.time → otherEligible s l e.pkt.tenant = true →
      exec (.sliceExpiry l) s = .next (onLane l (fun x => { x with exec := some { e with sliceOver := true } }) s)) ∧
    (atYield s l e = true → stopDue s e = none → lostStatus s l e = none → e.sliceOver = true →
      otherEligible s l e.pkt.tenant = true → suspendable e.phase = true →
      exec (.yieldPoint l) s = .next (suspendHere l e s)) ∧
    (s.nv.job = none → s.nv.jobs = [] → suspendHere l e s = onLane l (fun x =>
        { x with exec := none, susp := x.susp ++ [{ e with suspended := true, sliceOver := false }] }) s) ∧
    (stopDue s e = some st ↔ e.stop = some st ∨ e.stop = none ∧ expired s e.pkt = true ∧ st = 0x15) ∧
    (atYield s l e = true → stopDue s e = some st → exec (.yieldPoint l) s =
      .next (finish l st (stopBody s st e) none (dropHeld l (stopEffect l st e s)).useFree))) ∧
  (∀ s : State, s.queue = [] → s.hfLease.queue = [] → s.hfLease.granting = none → s.uhfLease.queue = [] →
    s.uhfLease.granting = none → s.lock.waiting = [] →
    let f := fun (e : Exec) => if expired s e.pkt = true ∧ e.stop = none then { e with stop := some 0x15 } else e
    let g := fun (x : Lane) => { x with exec := x.exec.map f, susp := x.susp.map f }
    exec .deadlineExpiry s =
      .next { s with hfLane := g s.hfLane, uhfLane := g s.uhfLane, houseLane := g s.houseLane })

/-! ## System opcodes -/

/-- The opcodes that only read: each answers at once with status 0x00 and its body, and changes nothing besides
(R298–R303, R262, R570, R785). READ_COUNTERS reads up to 64 counters into the pound, clearing them where it may;
GET_LOG writes the records that it finds there, after what the ECC makes of their chunks (R771, R772, R776, R778, R783,
R784, R786, R787). -/
def Obligations.ReadingOpcodes : Prop :=
  (∀ (e : Exec) (s : State),
    (Ready .house 0x0000 e s → exec .nop s = .next (finish .house 0 [] none s)) ∧
    (Ready .house 0x0001 e s → exec .getInfo s = .next (finish .house 0 (infoBody s e.pkt.tenant) none s)) ∧
    (Ready .house 0x0002 e s → exec .getStatus s = .next (finish .house 0 (statusBody s e.pkt.tenant) none s)) ∧
    (Ready .house 0x0008 e s → exec .getFences s = .next (finish .house 0 (fencesBody s) none s)) ∧
    (Ready .house 0x0202 e s → exec .leaseQuery s = .next (finish .house 0
      (leaseBytes s s.hfLease e.pkt.tenant ++ leaseBytes s s.uhfLease e.pkt.tenant) none s)) ∧
    (Ready .house 0x0603 e s → exec .calStatus s = .next (finish .house 0 (calStatusBody s) none s))) ∧
  (∀ (e : Exec) (s : State),
    let p := e.pkt
    (Ready .house 0x0007 e s → 1 ≤ Packet16 p 2 → Packet16 p 2 ≤ 64 → Packet32 p 8 % 4 = 0 →
      let r := readMany p.tenant (bit (Packet8 p 4) 0) (Packet16 p 2) (Packet16 p 0) s
      exec .readCounters s = .next (finish .house 0 (le 2 (Packet16 p 2) ++ le 2 0) none
        (poundWrite p.tenant (Packet32 p 8) r.1 r.2))) ∧
    (∀ ecc : EccRead, Ready .house 0x0009 e s → 1 ≤ Packet16 p 4 → Packet16 p 4 ≤ 1024 → Packet32 p 8 % 4 = 0 →
      let t := eccRead 0xE9000 0xF9000 ecc s
      let first := Packet32 p 0
      let recs := ((logHeld t).filter fun r => first == 0xFFFFFFFF || seqFrom r.seq first).take (Packet16 p 4)
      inPound t p.tenant (Packet32 p 8) (64 * recs.length) = true → ∀ a b, (logHeld t).head? = some a →
      (logHeld t).getLast? = some b → exec (.getLog ecc) s = .next (finish .house 0
        (le 2 recs.length ++ le 2 0 ++ le 4 a.seq ++ le 4 b.seq ++ le 4 (ctrGet t 0xB)) none
        (poundWrite p.tenant (Packet32 p 8) (recs.map (logBytes p.tenant)).flatten t))))

/-- SET_CONFIG and SET_WEIGHTS apply their entries in order and report the clamps; VALIDATE_ONLY changes no field,
and STORE_DEFAULT waits for the commit of the stored set; GET_CONFIG answers with the values (R290–R296, R304–R310).
-/
def Obligations.ConfigurationOpcodes : Prop :=
  ∀ (e : Exec) (s : State),
    let p := e.pkt
    let n := Packet16 p 0
    let fl := Packet8 p 2
    (Ready .house 0x0003 e s → entriesOk (entryBytes s p) n = true →
      let a := applyEntries p.tenant (entriesOf (entryBytes s p) n) s
      let u0 := if bit fl 2 then s else a.s
      let u1 := if bit fl 0 then
          poundWrite p.tenant (Packet32 p 4 + 8 * n) (a.clamps.map clampBytes).flatten u0 else u0
      let u := onExec .house (fun x => { x with clamps := a.clamps }) u1
      let body := le 2 (if bit fl 2 then 0 else a.count) ++ le 2 0
      (bit fl 1 = false ∨ bit fl 2 = true →
        exec .setConfig s = .next (finish .house (if a.noRoom then 0x42 else 0) body none u)) ∧
      (bit fl 1 = true → bit fl 2 = false → ∀ v,
        nvSubmit (defaultsJob u (a.ids.map fun i => (i, cfgI u i))) u = some v →
        exec .setConfig s = .next (onExec .house (fun x =>
          { x with phase := .nv (if a.noRoom then 0x42 else 0), partialBody := body }) v))) ∧
    (∀ ecc : EccRead, Ready .house 0x0004 e s → 1 ≤ n → n ≤ 255 →
      let t := if bit fl 1 then eccRead 0xDD000 0xE5000 ecc s else s
      let bs := if bit fl 0 then poundRead t p.tenant (Packet32 p 4) (2 * n) else p.params.drop 8
      let res := ((List.range n).map fun k => getOne t (bit fl 1) (fieldOf bs (2 * k) 2)).flatten
      exec (.getConfig ecc) s = .next (if bit fl 0 then
          finish .house 0 [] none (poundWrite p.tenant (align8 (Packet32 p 4 + 2 * n)) res t)
        else finish .house 0 res none t)) ∧
    (Ready .house 0x0104 e s →
      let a := applyEntries p.tenant ((List.range 8).map fun k => (0x810 + k, Packet8 p k)) s
      exec .setWeights s = .next (finish .house 0 (le 2 a.count ++ le 2 0) none
        (onExec .house (fun x => { x with clamps := a.clamps }) a.s)))

/-- A configuration value lies on its field's grid after the range and step checks of R290, inside the field's
limits, and a value that already does is left alone. -/
def Obligations.RangeAndStepChecks : Prop :=
  ∀ (f : FieldDef) (v : Int), 0 < f.step → f.min ≤ f.max → (f.max - f.min) % f.step = 0 →
    let r := checkStep f (checkRange f ⟨v, [], true, false⟩)
    f.min ≤ r.value ∧ r.value ≤ f.max ∧ (r.value - f.min) % f.step = 0 ∧
    (f.min ≤ v → v ≤ f.max → (v - f.min) % f.step = 0 → r.value = v ∧ r.reasons = []) ∧
    (v < f.min → r.value = f.min ∧ r.reasons = [1]) ∧ (f.max < v → r.value = f.max ∧ r.reasons = [2]) ∧
    (f.min ≤ v → v ≤ f.max → 2 * (r.value - v) < f.step ∧ 2 * (v - r.value) ≤ f.step)

/-! ## Tenants, protection and leases -/

/-- STAGE_PROTECTION copies an image of the pound; a lock cycle whose staging copy passes every check of R231 makes
it active, at once or, behind an earlier cycle, when that reaches its step 6 (R228–R232, R256, R257). A lock cycle
that finds a failing check leaves the active table and PT_GEN as they are and answers 0x23 with the check's code
(R228, R231); one that has waited past its deadline ends with 0x15 (R286). -/
def Obligations.ProtectionCycle : Prop :=
  (∀ (e f : Exec) (fs : List Exec) (s : State),
    (Ready .house 0x0100 e s → Packet32 e.pkt 0 % 4 = 0 → exec .stageProtection s = .next (finish .house 0 [] none
      (s.onPt fun t => { t with staging := imageWords (poundRead s e.pkt.tenant (Packet32 e.pkt 0) 512) }))) ∧
    (Ready .house 0x0101 e s → lockBusy s = false →
      lockCheck s (bit (Packet8 e.pkt 0) 0) (Packet32 e.pkt 4) = none →
      let r := recheck (swapTable s)
      let u := startWithdrawal s.pt.active r.2
      exec .lockCycle s = .next (finish .house 0 (lockBody 0 r.1 0 u.pt.gen.toNat) none
        (u.onLock fun k => { k with until_ := lockEnd s true }))) ∧
    (Ready .house 0x0101 e s → lockBusy s = true → exec .lockCycle s =
      .next ((onLane .house (fun x => { x with exec := none }) s).onLock fun k =>
        { k with waiting := k.waiting ++ [{ e with phase := .lockWait }] })) ∧
    (s.lock.waiting = f :: fs → s.lock.until_ ≤ s.time →
      let u := s.onLock fun k => { k with waiting := fs }
      let r := lockRun f.pkt u
      (expired s f.pkt = false → exec .lockCycleDeferredStart s = .next (replyExec f r.1 r.2.1 none r.2.2)) ∧
      (expired s f.pkt = true → exec .lockCycleDeferredStart s = .next (replyExec f 0x15 [] none u)))) ∧
  (∀ (e : Exec) (code off : Nat) (s : State), Ready .house 0x0101 e s → lockBusy s = false →
    lockCheck s (bit (Packet8 e.pkt 0) 0) (Packet32 e.pkt 4) = some (code, off) →
    exec .lockCycle s = .next (finish .house 0x23 (lockBody code 0 off s.pt.gen.toNat) none
      (s.onLock fun k => { k with until_ := lockEnd s false })) ∧ 1 ≤ code ∧ code ≤ 11)

/-- Withdrawals take place once the packets concerned have ended; a tenant reset answers what the tenant has
waiting, releases its leases and says how many packets it discarded; the Keeper's own reset is answered after the last
packet of its ring (R233, R235–R239, R258, R822; log 187). -/
def Obligations.WithdrawalAndReset : Prop :=
  ∀ (w : Nat × Option Chain) (e : Exec) (s : State),
    (s.withdrawn = [w] → withdrawalReady s w = true → exec .protectionWithdrawal s =
      .next (samWithdraw 1 (samWithdraw 0
        (preemptDone .uhf (preemptDone .hf (withdraw w (s.onWithdrawn fun _ => []))))))) ∧
    (let n := Packet8 e.pkt 0
     let body := resetBody (discardCount n e.pkt.id s) (s.hfLease.holder == some n) (s.uhfLease.holder == some n)
     let u := tenantReset n (fun x => x.pkt.tenant == n && x.pkt.id != e.pkt.id) s
     Ready .house 0x0102 e s → n < 8 → resetIdle s n = false →
       (n ≠ 0 ∨ inRing u 0 = 0 → exec .resetTenant s = .next (finish .house 0 body none u)) ∧
       (n = 0 → inRing u 0 ≠ 0 → exec .resetTenant s =
         .next (onExec .house (fun x => { x with phase := .resetWait, partialBody := body }) u))) ∧
    (let n := Packet8 e.pkt 0
     Ready .house 0x0102 e s → n < 8 → resetIdle s n = true →
       exec .resetTenant s = .next (finish .house 0 (resetBody 0 false false) none s))

/-- LEASE_ACQUIRE: a FREE lease starts a grant, a lease in use lets the packet wait behind the others, NO_WAIT or not as
R250 and R260 say, and the holder is told that it has it already. The grant step gives the lease to the first waiter
that is not past its deadline or frees it; LEASE_RELEASE hands the chain over; PREEMPT_LEASE takes it from another
tenant; the maximum hold takes it once a tenant waits (R242–R248, R251, R259, R261). -/
def Obligations.LeaseLife : Prop :=
  (∀ (e : Exec) (s : State), Ready .house 0x0200 e s → Packet8 e.pkt 0 < 2 →
    let c := chainOf (Packet8 e.pkt 0)
    let n := e.pkt.tenant
    let off := onLane .house (fun x => { x with exec := none }) s
    ((leaseOf s c).holder = some n →
      exec .leaseAcquire s = .next (finish .house 0 (acquireBody s c 4) none s)) ∧
    ((leaseOf s c).holder ≠ some n → waiterOf (leaseOf s c) n = none → leaseFree s c = true →
      exec .leaseAcquire s = .next (startGrant c ⟨n, some e⟩ off)) ∧
    ((leaseOf s c).holder ≠ some n → waiterOf (leaseOf s c) n = none → leaseFree s c = false →
      bit (Packet8 e.pkt 1) 0 = true → exec .leaseAcquire s = .next (finish .house 0x14 [] none s)) ∧
    ((leaseOf s c).holder ≠ some n → waiterOf (leaseOf s c) n = none → leaseFree s c = false →
      bit (Packet8 e.pkt 1) 0 = false → exec .leaseAcquire s =
        .next (onLease c (fun l => { l with queue := l.queue ++ [⟨n, some e⟩] }) off))) ∧
  (∀ (c : Chain) (h : Nat) (w : Waiter) (ws : List Waiter) (e : Exec) (s : State),
    ((∀ x y, x ∈ (leaseOf s c).queue ∨ (leaseOf s c).granting = some x → x.exec = some y → expired s y.pkt = false) →
      expireWaits c s = s) ∧
    (expireWaits c s = s → grantReady s c = true → (leaseOf s c).queue = w :: ws → exec (.leaseGrant c) s =
      .next (startGrant c w (onLease c (fun l => { l with queue := ws }) s))) ∧
    (expireWaits c s = s → grantReady s c = true → (leaseOf s c).queue = [] → chainLit s c = false →
      exec (.leaseGrant c) s = .next (freeLease c s)) ∧
    (Ready .house 0x0201 e s → Packet8 e.pkt 0 = chainIndex c → holds s c e.pkt.tenant = true →
      bit (Packet8 e.pkt 1) 0 = false → exec .leaseRelease s = .next (releaseNow c s)) ∧
    (Ready .house 0x0105 e s → Packet8 e.pkt 0 = chainIndex c → bit (Packet8 e.pkt 1) 0 = false →
      (leaseOf s c).holder = some (h + 1) → holderExecuting c s = false →
      exec .preemptLease s = .next (finish .house 0 [] none (revokeLease c 2 s))) ∧
    (holdOver s c = true → holderExecuting c s = false → exec (.leaseHoldExpiry c) s = .next (revokeLease c 1 s)) ∧
    (holdOver s c = true → holderExecuting c s = true →
      exec (.leaseHoldExpiry c) s = .next (onLease c (fun l => { l with revoke := some 1 }) s)))

/-- A grant raises source 24 or 55 with the tenant and its flags, and the waiting LEASE_ACQUIRE is answered with the
maximum hold as it is at the grant; a revocation raises 25 or 56 with its reason and leaves the chain without a holder
(R245, R259, R260). -/
def Obligations.GrantAndRevocation : Prop :=
  ∀ (c : Chain) (w : Waiter) (e : Exec) (r h : Nat) (s : State),
    (leaseOf (grantTo c w s) c).holder = some w.tenant ∧ (leaseOf (grantTo c w s) c).granting = none ∧
    (leaseOf (grantTo c w s) c).grantAt = s.time ∧
    (leaseOf (grantTo c w s) c).hold = cfg s (match c with | .hf => 0x800 | .uhf => 0x801) ∧
    (let l := leaseOf s c
     let u := settleRadio c (raise (match c with | .hf => 24 | .uhf => 55) (w.tenant + 8 * b2n l.afterReset + 16 * b2n l.live)
       (onLease c (fun l =>
         { l with
           holder := some w.tenant, handover := false, granting := none, grantAt := s.time, afterReset := false
           live := false, revoke := none, hold := cfg s (holdField c) }) s))
     (w.exec = none → grantTo c w s = u) ∧
     (w.exec = some e →
       grantTo c w s = replyExec e 0 (acquireBody u c (b2n l.afterReset + 2 * b2n l.live)) none u)) ∧
    ((leaseOf s c).holder = some h →
      revokeLease c r s = startHandover c (r == 3) (raise (match c with | .hf => 25 | .uhf => 56) (h + 16 * r) s) ∧
      (leaseOf (revokeLease c r s) c).holder = none ∧
      (leaseOf (revokeLease c r s) c).handover = true ∧ (leaseOf (revokeLease c r s) c).queue = (leaseOf s c).queue)

/-! ## Supply, resets, clocks and low power -/

/-- The supply falls through the early-warning threshold and comes back: the comparator's crossing, VIN_WARN with
source 1 after the filter of 2 µs and the shedding of RF load, and source 2 after 1 ms above threshold and
hysteresis (R38–R43, R865). Loss of VPA, hold-up figures over the mean of 16 ms, the measured hold capacitor, and the
thermal sensor with its warning, trip, implausible and missing readings (R44, R46, R50–R53, R60–R66, R744, R751). -/
def Obligations.SupplyAndThermal : Prop :=
  (∀ (vin at_ : Nat) (s : State), vin ≤ 72000 → comparatorOn s = true →
    (vin < cfg s 0x100 → exec (.vinBelowThreshold vin) s =
      .next (s.onPwr fun p =>
        { p with
          vin := vin, below := true, aboveAt := none, warnAt := if p.warn then p.warnAt else nowAon s
          filterAt := nowAon s + 2, warnCommit := if p.warn then p.warnCommit else commitRunning s })) ∧
    (vin < cfg s 0x100 → s.pwr.below = true → s.pwr.warn = false → s.pwr.filterAt ≤ nowAon s →
      exec (.vinEarlyWarn vin) s = .next (shedLoad
        ((raise 1 (min 65535 (vin / 10) + 2 ^ 16 * b2n s.pwr.warnCommit) s).onPwr fun p =>
          { p with vin := vin, warn := true, aboveAt := none }))) ∧
    (cfg s 0x100 + 300 < vin → exec (.vinAboveHysteresis vin) s = .next (s.onPwr fun p =>
      { p with vin := vin, below := false, aboveAt := if p.warn then some (nowAon s) else none })) ∧
    (s.pwr.aboveAt = some at_ → at_ + 1000 ≤ nowAon s → s.pwr.warn = true → cfg s 0x100 + 300 < vin →
      exec (.vinRecovered vin) s =
        .next (raise 2 (min 65535 (vin / 10) + 2 ^ 16 * min 255 ((nowAon s - s.pwr.warnAt) / 10000))
          (s.onPwr fun p => { p with vin := vin, warn := false, aboveAt := none })))) ∧
  (∀ (vhold pIn pVpa c : Nat) (t : Int) (s : State),
    (inService s = true → exec .vpaFault s = .next (vpaLost 3 0 s)) ∧
    (s.pwr.state ≠ .off → s.pwr.state ≠ .deepStandby → s.pwr.holdAt ≤ nowAon s →
      let l := (((pIn : Int) - pVpa) :: s.pwr.shed).take 160
      let e := eHoldRaw s vhold
      exec (.holdupUpdate vhold pIn pVpa) s = .next (s.onPwr fun p =>
        { p with
          vhold := vhold, shed := l, holdAt := nowAon s + 100, eHold := roundDiv e (10 ^ 10)
          tHold := roundDiv (1000 * e * l.length) (10 ^ 10 * max (250 * l.length) l.sum.toNat) })) ∧
    (coresRun s = true → (s.aon.startCause = 0 ∨ s.aon.startCause = 3) → s.pwr.capNom = false →
      exec (.choldMeasured c) s = .next (s.onAon fun a => { a with cHold := some c })) ∧
    (inService s = true → s.therm.at_ + 1000 ≤ s.time →
      let u := s.onTherm fun x => { x with at_ := s.time, raw := t, missed := false }
      (fenced s 11 = false → -55 ≤ t → t ≤ 175 → exec (.thermalSample t) s = .next (thermRead t u)) ∧
      (fenced s 11 = false ∨ implausible s.therm.raw = false → (t < -55 ∨ 175 < t) →
        exec (.thermalSample t) s = .next (fenceUnit 11 13 0 u)) ∧
      (fenced s 11 = true → implausible s.therm.raw = true ∨ -55 ≤ t ∧ t ≤ 175 →
        exec (.thermalSample t) s = .next u)) ∧
    (135 ≤ t → s.therm.tripped = false → thermTrip t s = fenceUnit 1 4 0 (fenceUnit 0 4 0
      (raise 4 (tempByte t) (s.onTherm fun x => { x with tripped := true })))) ∧
    (inService s = true → s.therm.missed = false → s.therm.at_ + 10000 ≤ s.time →
      exec .thermalReadingTimeout s = .next (fenceUnit 11 13 0 (s.onTherm fun x => { x with missed := true }))))

/-- The clock monitor's window, which two bad counts in a row turn into a loss, the check of CK-AON's crystal, the stop
of the HF driver clock, the turning point of the spread (R92, R94, R111–R117, R122–R124). The watchdog's warning, at
most once in half a period, the storm count's end, the presence of the ports' supplies, the retry of a firmware
confirmation (R142, R146, R762, R763, R765, R847, R850). -/
def Obligations.ClockAndServiceEvents : Prop :=
  (∀ (counts : List (Clock × Nat)) (k : Clock) (n : Nat) (ok : Bool) (s : State),
    (inService s = true ∨ s.pwr.state = .recovery → let u := counts.foldl countWindow s
      exec (.clockMonitorWindow counts) s = .next (clockLosses (newlyLost u) u)) ∧
    (monitored s k = true → nth s.clk.next k.ctorIdx 0 ≤ s.time → k.ctorIdx < s.clk.bad.length →
      (countBad k n = true → nth (countWindow s (k, n)).clk.bad k.ctorIdx 0 = min 2 (nth s.clk.bad k.ctorIdx 0 + 1)) ∧
      (countBad k n = false → nth (countWindow s (k, n)).clk.bad k.ctorIdx 0 = 0)) ∧
    (countBad .xo n = true ↔ n < 380 ∨ 488 < n) ∧
    (s.pwr.state ≠ .off → exec (.aonCrystalSelect ok) s = .next (s.onAon fun a => { a with crystal := ok })) ∧
    (hfEmits s = true → exec .hfDriverClockStop s = .next
      (hfFell ((hfFieldOut (hfFall 3 (s.onHfLane (stopTransmit s 0x13)))).onHf fun h => { h with cut := true }))) ∧
    exec .spreadTurningPoint s = .next (s.onClk fun c => { c with spreadOn := c.spreadOn && cfg s 0x103 == 1 })) ∧
  (∀ (core : CoreId) (p : Port) (at_ : Nat) (s : State),
    (let o := match core with | .protocol => 0 | .house => 1
     inService s = true →
      (let from_ := (warnedAt s o).getD s.contain.coresFrom
       from_ + (if o = 0 then 10000 else 100000) ≤ s.time → exec (.watchdogWarning core) s = .next (raise 14 (watchdogPayload s 0 o 0) (s.onContain fun c =>
          match core with
          | .protocol => { c with warnP := some s.time }
          | .house => { c with warnH := some s.time }))) ∧
      (s.time < (warnedAt s o).getD s.contain.coresFrom + (if o = 0 then 10000 else 100000) →
        exec (.watchdogWarning core) s = .next s)) ∧
    (s.aon.bootAt = some at_ → at_ + 10000000 ≤ nowAon s →
      exec .stormCountClear s = .next (s.onAon fun a => { a with storm := 0 })) ∧
    (let off := onPort p fun q => { q with vio := false, stall := none, burst := none, rdata := [] }
     ∀ (mv us : Nat) (cut : Option Nat),
      (1710 ≤ mv → 10 ≤ us → exec (.vioPresent p mv us) s = .next (onPort p (fun q => { q with vio := true }) s)) ∧
      (mv < 1710 ∨ us < 10 → exec (.vioPresent p mv us) s = .next s) ∧
      (1500 ≤ mv → exec (.vioAbsent p cut mv) s = .next s) ∧
      (mv < 1500 → portUp s p = false → exec (.vioAbsent p cut mv) s = .next (off s)) ∧
      (mv < 1500 → portUp s p = true → exec (.vioAbsent p cut mv) s = .next (off (vioCut p cut s))) ∧
      ((portSt s p).burst = none → (portSt s p).stall = none → vioCut p none s =
        onPort p (fun q => { q with stall := none, burst := none }) s ∧
        vioCut p (some at_) s = portError p 2 at_ (onPort p (fun q => { q with stall := none, burst := none }) s)) ∧
      (∀ st, (portSt s p).burst = none → (portSt s p).stall = some st → vioCut p none s =
        portError p 2 st.addr (onPort p (fun q => { q with stall := none, burst := none }) s))) ∧
    (s.pwr.state = .run → s.fw.booted = true → s.fw.confirmAt ≤ s.time → exec .fwConfirmRetry s = .next (confirmTry s)) ∧
    (s.time < s.fw.confirmAt → exec .fwConfirmRetry s = .next s) ∧
    (s.fw.onTrial = true → s.fw.confirmFailed = false → confirmRuns s = false →
      (bankOf s s.fw.bankB).conf ≠ .erased →
      confirmTry s = raise 9 (pageOf (.fwConfirm s.fw.bankB s.fw.secver))
        (s.onFw fun f => { f with confirmFailed := true })))

/-- Resets and the start: from OFF through UVLO, by the loss of a power-good, by RESETN, by the watchdog, after an
activation; the fall through UVLO; the sequence of R82 and its repeat when the crystal does not start (R39, R79,
R81, R82, R117, R152). What each reset reaches (R79): a reset that is not a power-on leaves AON with what it holds;
every reset leaves NV as a cut-off job left it; it empties the Basin, the leases and the lanes and clears the
fences, and AON reports its cause. -/
def Obligations.ResetsAndStart : Prop :=
  (∀ (vin n o r at_ : Nat) (env : StartEnv) (s : State),
    (vin ≤ 72000 → s.pwr.state = .off →
      exec (.powerOnReset vin) s = .next (resetPowerOn (s.onPwr fun p => { p with vin := vin }))) ∧
    (s.pwr.state ≠ .off → s.pwr.state ≠ .deepStandby → exec .powerGoodLoss s = .next (resetPowerOn s)) ∧
    (s.pwr.state = .deepStandby → exec .powerGoodLoss s = .next s) ∧
    exec .uvloFall s = .next ((resetPowerOn s).onPwr fun p => { p with state := .off }) ∧
    (s.pwr.state ≠ .off → 2000 ≤ n → exec (.pinReset n) s = .next (resetWarm 1 s)) ∧
    (n < 500 → exec (.pinReset n) s = .next s) ∧
    (s.pwr.state ≠ .off → 500 ≤ n → n < 2000 →
      exec (.pinReset n) s = .next (if freeBelow s 2 = 0 then s.useFree else resetWarm 1 s.useFree)) ∧
    (coresRun s = true → watchdogCause o r = true → r ≠ 0 ∨ halfSince s o = true →
      exec (.watchdogReset o r) s = .next (resetWatchdog o r s)) ∧
    (s.fw.activateAt = some at_ → at_ ≤ s.time → exec .fwActivationReset s = .next (resetWarm 4 s)) ∧
    (env.vin ≤ 72000 → s.pwr.state = .startup → exec (.startUp env) s = .next (startUp env s)) ∧
    (s.pwr.state = .startup →
      exec .crystalStartTimeout s = .next (s.onPwr fun p => { p with state := .startup, testEn1 := false }))) ∧
  (∀ (cause : Nat) (s : State),
    let t := resetWarm cause s
    t.aon = { s.aon with
      startCause := cause, bootAt := none, wakeAt := none, storm := if stormOver s then 0 else s.aon.storm } ∧
    t.nv = nvCut s.nv ∧ (resetPowerOn s).nv = nvCut s.nv ∧
    t.basin.mem = [] ∧ t.hfLease = Lease.reset ∧ t.uhfLease = Lease.reset ∧ t.queue = [] ∧
    t.hfLane = Lane.reset ∧ t.uhfLane = Lane.reset ∧ t.houseLane = Lane.reset ∧ t.pwr.state = .startup ∧
    t.fence = Fences.reset ∧ t.time = s.time ∧ (resetPowerOn s).aon = State.reset.aon)

/-- SET_POWER_STATE accepts a state and stops the chains; the entry follows once every lane is empty and no NV job
runs; the wake brings the part back to RUN with the time that passed (R69–R77). Wake sources: the WAKE pin and FDET
with their events, the timer, a transaction of port B in RETAIN; during an entry a source is latched (R74–R77, R653,
R831). The wake from DEEP_STANDBY, a reset, keeps the wake configuration (R70; log 237, the model's reading). -/
def Obligations.LowPowerAndWakes : Prop :=
  (∀ (e : Exec) (t : PowerState) (ms : Nat) (s : State),
    (Ready .house 0x0006 e s → powerStateOf (Packet8 e.pkt 0) = some t →
      (Packet8 e.pkt 0 = 3 → fenced s 0 = false) → exec .setPowerState s = .next (stopChains (finish .house 0 [] none
        (s.onPwr fun p => { p with entry := some (t, Packet32 e.pkt 4) })))) ∧
    (s.pwr.entry = some (t, ms) → s.pwr.state = .run → s.clk.xoLost = [] → s.nv.job = none → s.nv.jobs = [] → s.hfLane.exec = none →
      s.uhfLane.exec = none → s.houseLane.exec = none → exec .lowPowerEntry s = .next (enterLowPower t ms s)) ∧
    ((s.pwr.state = .retain ∨ s.pwr.state = .lpcd) → s.pwr.wakes ≠ [] → exec .lowPowerWake s = .next (wakeUp s))) ∧
  (∀ (at_ : Nat) (high : Bool) (s : State),
    (s.pins.wake ≠ high → (cfg s 0x720 = 1 ↔ high = true) → exec (.wakeAsserted high) s =
      .next (wakeBy .pin (raise 104 0) (s.onPins fun p => { p with wake := high }))) ∧
    (s.pins.wake ≠ high → (cfg s 0x720 = 1 ↔ high = false) → exec (.wakeReleased high) s =
      .next (s.onPins fun p => { p with wake := high })) ∧
    (s.pins.wake = high → exec (.wakeAsserted high) s = .next s ∧ exec (.wakeReleased high) s = .next s) ∧
    (s.pins.fdet = false → fdetBlind s = false → exec .fdetAsserted s =
      .next (wakeBy .fdet (raise 105 0) (s.onPins fun p => { p with fdet := true }))) ∧
    (fdetBlind s = false → exec .fdetReleased s = .next (s.onPins fun p => { p with fdet := false })) ∧
    (sleeping s = true → s.aon.wakeAt = some at_ → at_ ≤ s.aon.elapsed → exec .wakeTimerExpiry s =
      .next (wakeBy .timer id (s.onAon fun a => { a with wakeAt := none }))) ∧
    (s.pwr.state = .retain ∨ s.pwr.state = .run ∧ (∃ ms, s.pwr.entry = some (.retain, ms)) → s.portB.vio = true →
      exec .retainPortWake s = .next (wakeBy .portB id s)) ∧
    (∀ (w : WakeSrc) (f : State → State),
      (s.pwr.state = .run → s.pwr.entry = none → wakeBy w f s = f s) ∧
      (s.pwr.state = .run → s.pwr.entry ≠ none → wakeBy w f s = s.onPwr fun p => { p with wakes := p.wakes ++ [w] }) ∧
      (s.pwr.state = .retain ∨ s.pwr.state = .lpcd →
        wakeBy w f s = wakeEvent w (s.onPwr fun p => { p with wakes := p.wakes ++ [w] })) ∧
      (s.pwr.state = .deepStandby → wakeBy w f s = wakeReset (wakeEvent w s) ∧
        cfg (wakeReset (wakeEvent w s)) 0x720 = cfg (wakeEvent w s) 0x720)))

/-! ## Containment -/

/-- A fence's entry (R748) sets the unit's bit in FENCE_MAP and no other, and keeps its cause; a further cause of a
fenced unit only adds a log record (R751), and spoils the self-test of a unit under test (R753). UNFENCE tries the units
that its mask names and that are fenced, one self-test after another, each for the time of log 249, the model's choice
within R757's limits; it answers with those back in service and those still fenced: a unit that fails its self-test,
whose cause lasts, or a UHF chain whose return loss is still at or below field 0x0307, stays fenced (R444, R755–R760).
-/
def Obligations.FenceAndUnfence : Prop :=
  (∀ (u cause : Nat) (s : State), s.pwr.state = .run → u < 14 → fenceCause u cause = true → cause ≠ 1 → cause ≠ 16 →
    fenceable s u = true →
    let d := fenceDetail s u cause
    let v := (if u = 4 ∧ (cause = 2 ∨ cause = 8) ∧ fenced s 4 = false then raise 81 2 s else s).useFree
    exec (.fenceEntry u cause) s = .next (fenceUnit u cause d v) ∧
    (fenced s u = true → fenceUnit u cause d v = logRecord 1 0xFF 0xFF 0 0 (testHit u v)) ∧
    (fenced s u = false → (∀ k, k < 14 → fenced (fenceUnit u cause d v) k = (fenced s k || decide (k = u))) ∧
      (s.fence.causes.length = 14 → nth (fenceUnit u cause d v).fence.causes u 0 = cause))) ∧
  (∀ (failing : List Nat) (rl : Nat) (ecc : EccRead) (e : Exec) (s : State), Ready .house 0x0103 e s →
    let named := (List.range 14).filter fun u => bit (Packet16 e.pkt 0) u && fenced s u
    (named = [] → exec (.unfence failing rl ecc) s = .next (finish .house 0 (le 2 0 ++ le 2 0 ++ le 4 0) none s)) ∧
    (∀ u us, named = u :: us → exec (.unfence failing rl ecc) s = .next (setPhase .house (.testing
      { named := named, rest := named, failing := failing, rl := rl, ecc := ecc, endAt := s.time + testTime u
        hit := false }) s))) ∧
  (∀ (e : Exec) (op : TestOp) (u : Nat) (us : List Nat) (s : State), execOf s .house = some e →
    e.phase = .testing op → op.rest = u :: us →
    let t := unfenceOne (if op.hit then u :: op.failing else op.failing) op.rl (testRead u op.ecc s) u
    (s.time < op.endAt → testTick s = s) ∧
    (op.endAt ≤ s.time → us = [] → testTick s = finish .house 0
      (le 2 ((op.named.filter fun u => !fenced t u).map (2 ^ ·)).sum
        ++ le 2 ((op.named.filter (fenced t)).map (2 ^ ·)).sum ++ le 4 0) none t) ∧
    (∀ v vs, op.endAt ≤ s.time → us = v :: vs → testTick s = setPhase .house (.testing
      { op with rest := us, endAt := t.time + testTime v, hit := false }) t) ∧
    (u ≠ 6 → testRead u op.ecc s = s) ∧
    testHit u s = onExec .house (fun x => { x with phase := .testing { op with hit := true } }) s ∧
    (∀ k, k ≠ u → testHit k s = s)) ∧
  (∀ (failing : List Nat) (rl u : Nat) (s : State), u < 14 → fenced s u = true →
    u ∈ failing ∨ causePersists s u = true ∨ reflects s u rl = true →
    fenced (unfenceOne failing rl s u) u = true)

/-- The scrubber: a corrected bit is counted; a double error fences its word, which reads 0 from then on until a
write replaces it, and adds 1 to BASIN_UE (R767–R769). A fault log record waits in the queue of 16 and is lost when
it is full; its commit begins when the gate allows (R779–R782). -/
def Obligations.ScrubAndFaultLog : Prop :=
  (∀ (addr : Nat) (s : State), inService s = true → addr < basinSize → addr / 4 * 4 ∉ s.basin.fenced →
    let a := addr / 4 * 4
    exec (.basinScrub addr 1) s = .next (ctrAdd 1 1 s) ∧
    exec (.basinScrub addr 2) s = .next (doubleError a s) ∧
    (s.basinCanonical = true → basinFenced (wordLost a s) a 4 = true ∧ basinWord (wordLost a s) a = 0 ∧
      ∀ vs, vs.length = 4 → basinFenced (basinWrite a vs (wordLost a s)) a 4 = false)) ∧
  (∀ (kind src ten pay loc : Nat) (r : LogRec) (rs : List LogRec) (s u : State),
    (s.contain.queue.length < 16 → (logRecord kind src ten pay loc s).contain.queue.length =
      s.contain.queue.length + 1 ∧ (logRecord kind src ten pay loc s).contain.lost = false) ∧
    (16 ≤ s.contain.queue.length → (logRecord kind src ten pay loc s).contain.queue = s.contain.queue ∧
      (logRecord kind src ten pay loc s).contain.lost = true) ∧
    (s.pwr.state = .run → logRuns s = false → logAreaFree s = true → s.contain.queue = r :: rs →
      nvSubmit (nvJob (.log r) none (0xE90 + s.nv.logPos / 4) 0) s = some u → exec .faultLogCommit s = .next u))

/-! ## Charter, non-volatile store and firmware -/

/-- CHARTER_READ copies the record's region into the pound; CHARTER_WRITE stops transmission and waits for its
commit; CHARTER_SEAL of a charter in force waits for the seal's commit; CHARTER_BREAK with TEST_EN up stops
transmission, refuses the key store from then on and waits for its erases (R507, R511, R523–R526). A sealed charter
is neither written nor broken: CHARTER_WRITE answers 0x40 with code 1, and the charter in force and its record stay
as they are (R516, R523). -/
def Obligations.CharterOpcodes : Prop :=
  (∀ (e : Exec) (c : Charter) (s u : State),
    (∀ ecc : EccRead, let t := eccRead 0xC0000 0xC1000 ecc s
     Ready .house 0x0106 e s → Packet32 e.pkt 0 % 4 = 0 → exec (.charterRead ecc) s = .next (finish .house 0
        (le 1 (charterState t) ++ le 1 ((t.chr.inForce.map (·.profile)).getD 0xFF) ++ le 1 (storedCode t) ++ le 1 0
          ++ le 4 ((t.chr.inForce.map (·.gen)).getD 0)) none
        (poundWrite e.pkt.tenant (Packet32 e.pkt 0) (charterRegion t) t))) ∧
    (let bs := charterSource s e.pkt
     let k : JobKind := .charter { charterOf bs with gen := nextGeneration s }
     Ready .house 0x0107 e s → charterParamsOk e.pkt = true → s.chr.sealed = false → charterCode bs true = 0 →
      gateOk s k = true → nvSubmit (nvJob k (some .house) (pageOf k) 1) (stopTransmission s) = some u →
      exec .charterWrite s = .next (onExec .house (fun x =>
        { x with phase := .nv 0, partialBody := charterWriteBody 0 (nextGeneration s) }) u)) ∧
    (let k : JobKind := .sealCharter c.gen
     Ready .house 0x0108 e s → s.chr.inForce = some c → s.chr.sealed = false → s.nv.sealPage = .erased →
      nvSubmit (nvJob k (some .house) (pageOf k) 0) s = some u →
      exec .charterSeal s = .next (setPhase .house (.nv 0) u)) ∧
    (Ready .house 0x0108 e s → s.chr.inForce = none → exec .charterSeal s = .next (finish .house 0x40 [] none s)) ∧
    (Ready .house 0x0109 e s → s.pins.testEn = true → s.pwr.testEn1 = true →
      nvSubmit (nvJob .breakCharter (some .house) (pageOf .breakCharter) 17)
        (((stopTransmission s).onHouseLane stopKeys).onChr fun k => { k with keysDead := true }) = some u →
      exec .charterBreak s = .next (setPhase .house (.breaking 17) u)) ∧
    (Ready .house 0x0109 e s → (s.pins.testEn = false ∨ s.pwr.testEn1 = false) →
      exec .charterBreak s = .next (finish .house 0x40 [] none s))) ∧
  (∀ (e : Exec) (s : State), Ready .house 0x0107 e s → charterParamsOk e.pkt = true → s.chr.sealed = true →
    ∃ t, exec .charterWrite s = .next t ∧ t = finish .house 0x40 (charterWriteBody 1 0) none s ∧
      t.chr = s.chr ∧ t.nv.charter = s.nv.charter)

/-! ## Random numbers, keys and ciphers -/

/-- The raw input of a block that passes its health tests goes into the pool, 512 conditioned bits up to 4096; one that
fails raises source 80, clears the source's tests and stops it at the limit of field 0x0600 (R680–R690, R696). The
expander instantiates from 384 pool bits and reseeds from 256; a draw that has waited 100 ms ends its packet with 0x30;
RNG_READ fills its request; RNG_KAT reports the failing tests and fences on them; RNG_RESTART starts stopped sources
(R689–R706). -/
def Obligations.NoiseAndRngOpcodes : Prop :=
  (∀ (noise : Bool) (raw : List Byte) (rings : List (Nat × Nat)) (counts : List Nat) (test : Nat) (s : State),
    sourceOn s noise = true → fabStopped s = false → blockNext s noise ≤ s.time → raw.length = rawLength noise →
    let r := blockTest noise (testSt s noise) raw rings counts
    (r.1 = 0 → exec (.rngBlockDone noise raw rings counts) s = .next (blockPassed noise raw (setTest noise r.2 s))) ∧
    (r.1 ≠ 0 → exec (.rngBlockDone noise raw rings counts) s = .next (blockFailed noise r.1 s)) ∧
    (r.1 = 3 → noise = false ∧ ∃ x, x ∈ rings ∧ (x.1 < 200 ∨ 1000 < x.1 ∨ x.2 < 200 ∨ 1000 < x.2)) ∧
    blockPassed noise raw s = nextBlock noise 0 ((setFails noise 0 s).onRng fun r =>
      { r with pool := if 8 * r.pool.length + 512 ≤ 4096 then r.pool ++ conditioned noise raw else r.pool }) ∧
    (sourceFails s noise + 1 < cfg s 0x600 → blockFailed noise test s =
      nextBlock noise 50 (raise 80 (b2n noise + 2 * test + 16 * min 15 (sourceFails s noise + 1))
        (setTest noise HealthTest.reset (setFails noise (sourceFails s noise + 1) s))))) ∧
  (∀ (l : LaneId) (since t : Nat) (e : Exec) (s : State),
    (s.pwr.state = .run ∨ s.pwr.state = .boot → fenced s 4 = false →
      (s.rng.instantiated = false → 384 ≤ poolBits s → exec .reseed s = .next (serveDraws (rngInstantiate s))) ∧
      (s.rng.instantiated = true → s.rng.stretched = true → 256 ≤ poolBits s →
        exec .reseed s = .next (serveDraws (rngReseed s)))) ∧
    (rngInstantiate s).rng.pool = s.rng.pool.drop 48 ∧ (rngReseed s).rng.pool = s.rng.pool.drop 32 ∧
    (execOf s l = some e → lateDrawer s l e = true → since + 100000 ≤ s.time →
      (e.phase = .draw since → exec (.drawTimeout l) s = .next (if e.pkt.opcode = 0x0512 then
          finish l 0x30 (swapBody s false) none (swapDropped s) else finish l 0x30 e.partialBody none s)) ∧
      (∀ key, e.phase = .cipherDraw key since → exec (.drawTimeout l) s = .next (finish l 0x30 [] none s)) ∧
      (∀ op, e.phase = .inventory op → op.draw = some since →
        exec (.drawTimeout l) s = .next (finish l 0x30 (invBody op (freeBelow s 256)) none s.useFree)) ∧
      (∀ r b, e.phase = .peerSwap → s.peer = some r → r.drawAt = some (since, b) →
        exec (.drawTimeout l) s = .next (finish l 0x30 (swapBody s false) none (peerAlone s)))) ∧
    (Ready .house 0x0700 e s → 1 ≤ Packet32 e.pkt 0 → Packet32 e.pkt 0 ≤ 65536 → Packet32 e.pkt 8 % 4 = 0 →
      exec .rngRead s = .next (readFrom e 0 s.time s)) ∧
    (Ready .house 0x0701 e s → exec (.rngKat t) s =
      .next (finish .house 0 (le 1 (t % 32) ++ le 3 0) none (katFences t s)) ∧
      (t % 32 = 0 → katFences t s = s)) ∧
    (Ready .house 0x0702 e s → fenced s 4 = false →
      let j := bit (Packet8 e.pkt 0) 0 && !s.rng.jitterOn
      let n := bit (Packet8 e.pkt 0) 1 && !s.rng.noiseOn
      let u := s.onRng fun r =>
        { r with
          jitterFails := if j then 0 else r.jitterFails, noiseFails := if n then 0 else r.noiseFails, started := true
          jitterOn := r.jitterOn || bit (Packet8 e.pkt 0) 0, noiseOn := r.noiseOn || bit (Packet8 e.pkt 0) 1
          jitterNext := if j then s.time + 129 else r.jitterNext
          noiseNext := if n then s.time + 512 else r.noiseNext
          jitterTest := if j then HealthTest.reset else r.jitterTest
          noiseTest := if n then HealthTest.reset else r.noiseTest }
      exec .rngRestart s =
        .next (finish .house 0 (le 1 (b2n u.rng.jitterOn + 2 * b2n u.rng.noiseOn) ++ le 3 0) none u)))

/-- The key store: a slot is staged into its shadow, committed by an ACTIVATE entry, queried, destroyed; the log
rolls over before it is full (R711–R741). A cipher opcode runs with the key of its admission in a slot that the caller
owns and whose usage allows it, below the slot's ceiling at once and at it behind a USE entry; without the permission of
the slot it is refused. A slot whose record reads invalid is EMPTY, with source 85 (R707–R712, R718–R722, R729, R741,
R772; log 258). -/
def Obligations.KeyAndCipherOpcodes : Prop :=
  (∀ (e : Exec) (h : Shadow) (st : Nat) (s u : State), s.chr.keysDead = false →
    let n := e.pkt.tenant
    let k := Packet8 e.pkt 0
    let parent := Packet8 e.pkt 7
    let bar := if Packet8 e.pkt 6 = 1 then useBar s n parent 3 else none
    (Ready .house 0x0710 e s → stageOk e.pkt = true → slotOpen s n k = true →
      (n = 0 ∨ Packet8 e.pkt 3 = n) → (slotOf s k).version < Packet16 e.pkt 4 →
      (bar = some st → exec .keyStage s = .next (finish .house st [] none s)) ∧
      (bar = none → stageWaits s = true → exec .keyStage s = .next (setPhase .house .keyErase s)) ∧
      (bar = none → stageWaits s = false → (Packet8 e.pkt 6 = 0 ∨ atCeiling s parent = false) →
        exec .keyStage s = .next (stageGo e s)) ∧
      (bar = none → stageWaits s = false → Packet8 e.pkt 6 = 1 → atCeiling s parent = true →
        useSubmit parent s = some u → exec .keyStage s = .next (setPhase .house .stageUse u))) ∧
    (Ready .house 0x0711 e s → k < 64 → slotOpen s n k = true → shadowOf s k = some h → (n = 0 ∨ h.owner = n) →
      entrySubmit (.keyActivate k h) (some .house) s = some u → exec .keyCommit s = .next (onExec .house (fun x =>
        { x with phase := .nv 0, partialBody := le 2 h.version ++ le 2 0 }) u)) ∧
    (Ready .house 0x0712 e s → k < 64 → slotOpen s n k = true →
      exec .keyQuery s = .next (finish .house 0 (keyQueryBody s k) none s)) ∧
    (Ready .house 0x0713 e s → k < 64 → (n = 0 ∨ (slotOf s k).state ≠ 0 ∧ (slotOf s k).owner = n) →
      entrySubmit (.keyDestroy k) (some .house) s = some u →
      exec .keyDestroy s = .next (onExec .house (fun x => { x with phase := .nv 0, partialBody := [] }) u)) ∧
    (s.pwr.state = .run → s.nv.keyLog = .valid → s.nv.keyLogFree < 8 → keyCommitRuns s = false → fenced s 6 = false →
      (rollJob s).bind (nvSubmit · s) = some u → exec .keyLogRollover s = .next u)) ∧
  (∀ (ecc : EccRead) (e : Exec) (st : Nat) (s0 u : State), s0.chr.keysDead = false →
    let n := e.pkt.tenant
    let k := Packet8 e.pkt 0
    let s := if keyStands s0 e then keyRead ecc k s0 else s0
    let x := if keyStands s0 e && !keyStands s e then slotOf s k else admittedSlot s e
    let below := keyStands s e = false ∨ atCeiling s k = false
    let aesUse := if Packet8 e.pkt 1 ≤ 1 then 0 else 1
    let cmacOk := k < 64 ∧ 4 ≤ Packet8 e.pkt 2 ∧ Packet8 e.pkt 2 ≤ 16 ∧ Packet32 e.pkt 4 ≤ 65536
    (Ready .house 0x0720 e s0 → aesOk e.pkt = true → barOf x (usedBy s e) n aesUse = none → below →
      (bit (Packet8 e.pkt 2) 0 = false → exec (.cipherAes ecc) s0 = .next (cipherRun e x.key s)) ∧
      (bit (Packet8 e.pkt 2) 0 = true → exec (.cipherAes ecc) s0 = .next (cipherDraw e x.key s.time s))) ∧
    (Ready .house 0x0720 e s0 → aesOk e.pkt = true → barOf x (usedBy s e) n aesUse = none → ¬ below →
      useSubmit k s = some u → exec (.cipherAes ecc) s0 = .next (setPhase .house (.cipherUse x.key) u)) ∧
    (Ready .house 0x0720 e s0 → aesOk e.pkt = true → barOf x (usedBy s e) n aesUse = some st →
      exec (.cipherAes ecc) s0 = .next (finish .house st [] none s)) ∧
    (Ready .house 0x0721 e s0 → cmacOk → barOf x (usedBy s e) n 2 = none → below →
      exec (.cipherCmac ecc) s0 = .next (cipherRun e x.key s)) ∧
    (Ready .house 0x0721 e s0 → cmacOk → barOf x (usedBy s e) n 2 = none → ¬ below →
      useSubmit k s = some u → exec (.cipherCmac ecc) s0 = .next (setPhase .house (.cipherUse x.key) u)) ∧
    (Ready .house 0x0721 e s0 → cmacOk → barOf x (usedBy s e) n 2 = some st →
      exec (.cipherCmac ecc) s0 = .next (finish .house st [] none s)) ∧
    (recordGone s0 k = false → dropGone k s0 = s0) ∧
    (recordGone s0 k = true → ∃ t, dropGone k s0 = keyIncomplete k 3 (slotOf s0 k).owner t ∧
      slotOf t k = { slotOf s0 k with state := 0, key := [], kcv := [], page := 255 }))

/-! ## SAM interfaces and pins -/

/-- SAM_POWER activates an interface of the caller's lease; an ATR that comes is taken over, one that does not come
ends the class, and the next class follows 10 ms after the deactivation (R810–R818). SAM_EXCHANGE sends its command
in the protocol of the interface; each answer moves the exchange on, and an answer that stays out ends it with 0x20
(R819–R823). -/
def Obligations.SamActivationAndExchange : Prop :=
  (∀ (e : Exec) (op : SamPowerOp) (n : Nat) (atr : List Byte) (pps : Bool) (s : State),
    (Ready .house 0x0800 e s → Packet8 e.pkt 0 = n → n < 2 → samLeased s n e.pkt.tenant = true →
      1 ≤ Packet8 e.pkt 2 → Packet8 e.pkt 2 ≤ 3 → Packet8 e.pkt 1 = 1 → exec .samPower s = .next (samActivate
        { n := n, pps := bit (Packet8 e.pkt 3) 0, cls := Packet8 e.pkt 2, tryNext := [], off := Packet32 e.pkt 4
          ppsSent := false, warm := false } (samDown n s))) ∧
    (samUser s n = some e → e.phase = .samPower op → (samSt s n).stage = .atrWait →
      (rstHigh s n = true → (atrInfo atr).valid = true →
        exec (.samAtrReceived n atr pps) s = .next (samAtr op e.pkt.tenant atr pps s)) ∧
      (rstHigh s n = true → (atrInfo atr).valid = false → exec (.samAtrReceived n atr pps) s = .next (samAtrFailed op 0x23 s)) ∧
      (windowOver s (samSt s n).waitAt = true → exec (.samAtrTimeout n) s = .next (samAtrFailed op 0x20 s))) ∧
    (samUser s n = some e → e.phase = .samPower op → (samSt s n).stage = .offWait →
      (samSt s n).offAt + 10000 ≤ s.time → exec (.samClassRetry n) s = .next (samActivate op s))) ∧
  (∀ (e : Exec) (op : SamXchgOp) (n : Nat) (rx : SamRx) (s : State),
    (let len := Packet16 e.pkt 2
     let cmd := poundRead s e.pkt.tenant (Packet32 e.pkt 4) len
     let o : SamXchgOp :=
       { n := n, autoGr := bit (Packet8 e.pkt 1) 0, cmd := cmd, rest := cmd, rsp := [], rspOff := Packet32 e.pkt 8
         rspMax := Packet16 e.pkt 12, retrans := 0, waits := 0, tries := 0, resynched := false }
     Ready .house 0x0801 e s → Packet8 e.pkt 0 = n → n < 2 → 4 ≤ len → len ≤ 4096 → 2 ≤ Packet16 e.pkt 12 →
      Packet16 e.pkt 12 ≤ 4096 → samLeased s n e.pkt.tenant = true → (samSt s n).stage = .ready →
      exec .samExchange s = .next (if (samSt s n).proto = 0 then t0Send o cmd s else t1Send o s)) ∧
    (samUser s n = some e → e.phase = .samXchg op → (samSt s n).stage = .ready →
      (∀ gap, stopDue s e = none → exec (.samRxBlock n rx gap) s =
        let b := samBlock (samSt s n) rx gap
        .next (if (samSt s n).proto = 0 then t0Next op b s else t1Next op b s)) ∧
      (∀ gap st, stopDue s e = some st → exec (.samRxBlock n rx gap) s = .next (samXchgEnd op st none s)) ∧
      (windowOver s (samSt s n).waitAt = true → exec (.samWaitTimeout n) s = .next (samXchgFail op 0x20 s))) ∧
    (∀ (pw : SamPowerOp), samUser s n = some e → e.phase = .samPower pw → (samSt s n).stage = .ifsWait →
      (∀ gap, stopDue s e = none → exec (.samRxBlock n rx gap) s =
        .next (samIfsNext pw e.pkt.tenant (samBlock (samSt s n) rx gap) s)) ∧
      (windowOver s (samSt s n).waitAt = true →
        exec (.samWaitTimeout n) s = .next (samIfsError pw e.pkt.tenant 0x20 s))) ∧
    (∀ m : Sam, samBlock m rx 0 = rx ∧ (m.proto ≠ 0 → ∀ gap, samCwt m < gap → samBlock m rx gap = .bad)))

/-- SAM_LEASE gives a free interface and takes it back; a card comes and goes; a current limit is reported and,
after 1 ms, fences the interface (R808–R810, R822, R825, R833). GPIO_SET changes direction and level of the caller's
pins and answers with the levels; a change at an input pin raises its source where field 0x0714 + pin selects the
edge (R827–R832). What FDET, IRQ, GPIO, VPA and port pins show in every power state (R653, R830, R846, R850). -/
def Obligations.SamLeaseAndPins : Prop :=
  (∀ (e : Exec) (n at_ stable : Nat) (high : Bool) (s : State), n < 2 →
    (Ready .house 0x0802 e s → Packet8 e.pkt 0 = n → Packet8 e.pkt 1 = 0 → bit (Packet8 e.pkt 2) 0 = false →
      (samSt s n).lease = none → exec .samLease s = .next (samLeaseGive n e.pkt.tenant s)) ∧
    (Ready .house 0x0802 e s → Packet8 e.pkt 0 = n → Packet8 e.pkt 1 = 1 → (samSt s n).lease = some e.pkt.tenant →
      exec .samLease s = .next (samRelease n s)) ∧
    (detArmed s = true → (samSt s n).present = false → (cfg s (0x702 + n) = 1 ↔ high = true) →
      1000 * cfg s 0x704 ≤ stable → exec (.samCardDetect n high stable) s =
      .next (raise (98 + n) (0xFF + 1 * 2 ^ 8) (onSam n (fun m => { m with present := true }) s))) ∧
    (detArmed s = true → (samSt s n).present = true → (samSt s n).stage = .off →
      (cfg s (0x702 + n) = 1 ↔ high = false) → 1000 * cfg s 0x704 ≤ stable → exec (.samCardDetect n high stable) s =
      .next (raise (98 + n) (0xFF + 2 * 2 ^ 8) (onSam n (fun m => { m with present := false }) s))) ∧
    (samPowered s n = true → exec (.samCurrentLimitActive n) s =
      .next (raise (98 + n) (0xFF + 3 * 2 ^ 8) (onSam n (fun m => { m with limitAt := some s.time }) s))) ∧
    ((samSt s n).limitAt = some at_ → at_ + 1000 ≤ s.time →
      exec (.samOvercurrent n) s = .next (fenceUnit (8 + n) 14 0 s))) ∧
  (∀ (e : Exec) (n stable : Nat) (level : Bool) (s : State),
    (let w := fun i => BitVec.ofNat 4 (Packet8 e.pkt i)
     let u := s.onGpio fun g => { g with dir := maskedBits (w 0) (w 1) g.dir, out := maskedBits (w 0) (w 2) g.out }
     Ready .house 0x0810 e s → (∀ i, i < 4 → bit (Packet8 e.pkt 0) i = true → pinOwnedBy s i e.pkt.tenant = true) →
      exec .gpioSet s = .next (finish .house 0 (le 1 (ownLevels u e.pkt.tenant) ++ le 3 0) none u)) ∧
    (n < 4 → s.gpio.level.getLsbD n ≠ level → cfg s 0x718 ≤ stable → ∃ t, exec (.gpioEdge n level stable) s = .next t ∧
      (∀ k, k < 4 → t.gpio.level.getLsbD k = if k = n then level else s.gpio.level.getLsbD k) ∧
      t.gpio.dir = s.gpio.dir ∧ t.gpio.out = s.gpio.out ∧
      (s.pwr.state = .run → s.gpio.dir.getLsbD n = false → edgeSelected s n level = true →
        t = raise (100 + n) (b2n level) (setPinLevel n level s)) ∧
      (s.gpio.dir.getLsbD n = true ∨ edgeSelected s n level = false → t = setPinLevel n level s))) ∧
  (∀ (n : Nat) (s : State),
    (pinState s .fdet = if s.pins.fdet then .low else .highZ) ∧
    (s.portB.vio = false → s.pwr.state ≠ .startup → pinState s (.irq n) = .pulledLow) ∧
    (s.portB.vio = true → inService s = true → pinState s (.irq n) = levelPin (irqLevel s n)) ∧
    (s.pwr.state ≠ .off → s.pwr.state ≠ .startup → s.pwr.state ≠ .deepStandby →
      pinState s (.gpio n) = if s.gpio.dir.getLsbD n then levelPin (s.gpio.out.getLsbD n) else .highZ) ∧
    (s.pwr.state = .off ∨ s.pwr.state = .startup ∨ s.pwr.state = .deepStandby →
      pinState s (.gpio n) = .highZ ∧ pinState s .portA = .highZ ∧ pinState s .bMiso = .highZ) ∧
    (s.pwr.state = .off ∨ s.pwr.state = .deepStandby → pinState s .vpa = .discharged ∧ pinState s .htx = .clamp) ∧
    (s.pwr.state ≠ .run → s.pwr.state ≠ .boot → s.pwr.state ≠ .recovery → pinState s .uhf = .off))

/-- The chains, the interfaces and their waits go on while a packet is suspended (R281, R607, R821): an event that
concerns a suspended packet takes effect on it, and the lane's own packet keeps its lane; its end waits until it goes on
(log 188). -/
def Obligations.EventsReachSuspendedPackets : Prop :=
  (∀ (l : LaneId) (who : Exec → Bool) (f : State → State) (e : Exec) (s : State),
    (execOf s l = some e → who e = true → withWaiting l who f s = f s) ∧
    ((∀ x, x ∈ (laneSt s l).susp → who x = false) → withWaiting l who f s = f s) ∧
    ((∀ x, execOf s l = some x → who x = false) → (laneSt s l).susp.find? who = some e →
      withWaiting l who f s = onLane l (parkOut (execOf s l)) (f (onLane l (parkIn e) s)))) ∧
  (∀ (e : Exec) (op : SamXchgOp) (n gap : Nat) (rx : SamRx) (s : State),
    (∀ x, s.houseLane.exec = some x → samWaiter n x = false) → s.houseLane.susp.find? (samWaiter n) = some e →
    e.phase = .samXchg op → (samSt s n).stage = .ready → stopDue s e = none →
    let u := onLane .house (parkIn e) s
    let b := samBlock (samSt s n) rx gap
    exec (.samRxBlock n rx gap) s = .next (onLane .house (parkOut s.houseLane.exec)
      (if (samSt s n).proto = 0 then t0Next op b u else t1Next op b u))) ∧
  (∀ (st : Nat) (body : List Byte) (e : Exec) (s : State), s.houseLane.exec = none → s.houseLane.susp = [] →
    e.parked = false →
    onLane .house (parkOut none) (finish .house st body none (onLane .house (parkIn e) s)) =
      onLane .house (fun x => { x with exec := none, susp := [{ e with phase := .done st, partialBody := body }] }) s)

/-! ## HF chain -/

/-- HF_FIELD puts the field on, with and without sensing first, changes its power and puts it off; its rise and fall
end; the PLL locks and unlocks; the driver's current limit and the power loop's (R361–R371, R395–R397, R406–R412). -/
def Obligations.HfFieldOnAndOff : Prop :=
  ∀ (e : Exec) (iAnt drive cause step t : Nat) (s : State),
    (let v := Packet32 e.pkt 4
     let u := if v = 0 then s else powerApply .hf 0x200 v (powerCheck s e.pkt.tenant false 0x200 v) s
     ReadyLeased .hf 0x0300 e s → Packet8 e.pkt 0 = 0 →
      (hfEmits s = true → exec (.hfField iAnt) s = .next (setPhase .hf .fieldFall (hfFall 0 u))) ∧
      (hfEmits s = false → exec (.hfField iAnt) s = .next (finish .hf 0 (hfFieldBody u) none u))) ∧
    (let v := Packet32 e.pkt 4
     let c := powerCheck s e.pkt.tenant true 0x200 v
     let u := powerApply .hf 0x200 v c s
     let k := cfg u 0x200 / 31250
     ReadyLeased .hf 0x0300 e s → hfBusy s = false → (charter s).isSome = true → c.noRoom = false →
      (Packet8 e.pkt 0 = 1 → hfUp s = false → hfAllowed s = true → s.hf.falling = none →
        (bit (Packet8 e.pkt 1) 0 = false →
          exec (.hfField iAnt) s = .next (setPhase .hf .fieldRise (hfRise k 65 u))) ∧
        (bit (Packet8 e.pkt 1) 0 = true → exec (.hfField iAnt) s = .next (setPhase .hf (.sense (u.time + 100))
          (setHfGrant (hfDraw u k) (u.onHf fun h => { h with nextStep := some k }))))) ∧
      (Packet8 e.pkt 0 = 2 → hfUp s = true →
        exec (.hfField iAnt) s = .next (setPhase .hf .settle (hfNewStep k u)))) ∧
    (s.hfLane.exec = some e → e.phase = .sense t → stopDue s e = none → t ≤ s.time →
      (s.hf.ext = true → hfSenseTick s = finish .hf 0x23 (hfFieldBody s) none
        (hfIdle (setHfGrant 0 (s.onHf fun h => { h with nextStep := none })))) ∧
      (s.hf.ext = false →
        hfSenseTick s = setPhase .hf .fieldRise (hfRise (s.hf.nextStep.getD 0) 60 s))) ∧
    (s.hf.rising = true → s.hf.riseEnd ≤ s.time →
      exec (.fieldRiseDone iAnt drive) s = .next (onHfEvent (fieldUp iAnt drive) s)) ∧
    (hfLit s = true → s.hf.rising = false → s.hf.nextStep = none → driveHeld s = false →
      exec (.fieldRiseDone iAnt drive) s = .next (onHfEvent (fieldSettled iAnt drive) s)) ∧
    ((loopSettled iAnt drive s).hf.drive = min 1023 drive ∧
      (setpointMet s iAnt = true → (loopSettled iAnt drive s).hf.limited = false)) ∧
    (s.hf.falling = some cause → s.hf.fallEnd ≤ s.time →
      exec .hfFieldFallDone s = .next (onHfEvent (fun x => hfFell (hfFieldGone cause x)) s)) ∧
    (s.hf.pll = .starting → exec .hfPllLocked s = .next (grantLocked .hf (settleRadio .hf (setPll .hf .locked s)))) ∧
    (s.hf.pll = .locked → exec .hfPllUnlock s = .next (fenceUnit 0 5 0 s)) ∧
    (hfEmits s = true → s.hf.drive = 0 → exec .driverCurrentLimit s = .next (fenceUnit 0 6 0 s)) ∧
    (s.hf.drive ≠ 0 → exec .driverCurrentLimit s = .next s) ∧
    (hfLit s = true → s.hf.rising = false → s.hf.limited = false → loopLimited s = true →
      let u := raise 21 (min 64 step) (s.onHf fun h => { h with limited := true })
      (s.hf.wait = none → exec (.powerLoopLimit step) s = .next u) ∧
      (s.hf.wait.isSome = true → exec (.powerLoopLimit step) s = .next (raise 39 3 u)))

/-- The matching measurement, HF_TUNE, HF_LPCD_ARM, an LPCD measurement and an AGC window (R373–R393, R398–R405). An
external field is seen and lost while the chain listens, against the threshold of field 0x020A and 6 dB below it
(R389, R391, R396, R650). -/
def Obligations.HfMeasurements : Prop :=
  (∀ (phi : Int) (m a n peak : Nat) (ms : List (Int × Nat)) (iAnt : Nat) (c : Chain) (e : Exec) (s : State),
    (measureDue s = true →
      (mismatched s phi m = false → exec (.mismatchMeasurement phi m) s = .next (s.onHf fun h =>
        { h with phi := phi, mag := m, measAt := s.time + 100, bad := 0, alarm := false })) ∧
      (mismatched s phi m = true → s.hf.bad < 2 ∨ s.hf.alarm = true →
        exec (.mismatchMeasurement phi m) s = .next (s.onHf fun h =>
          { h with phi := phi, mag := m, measAt := s.time + 100, bad := h.bad + 1 })) ∧
      (mismatched s phi m = true → 2 ≤ s.hf.bad → s.hf.alarm = false → exec (.mismatchMeasurement phi m) s =
        .next (autoRetune (raise 19 (mismatchPayload phi m) (s.onHf fun h =>
          { h with phi := phi, mag := m, measAt := s.time + 100, bad := h.bad + 1, alarm := true }))))) ∧
    (ReadyLeased .hf 0x0306 e s → Packet8 e.pkt 0 = 2 → Packet8 e.pkt 1 ≤ 63 → Packet8 e.pkt 2 ≤ 63 →
      let u := abandonRetune s
      let body := tuneOutcome e ms iAnt u
      (hfFrameRuns u = false → exec (.hfTune ms iAnt) s = .next (finish .hf 0 body none (tuneApply e body u))) ∧
      (hfFrameRuns u = true → exec (.hfTune ms iAnt) s = .next (setPhase .hf (.tuneWait body)
        (u.onHf fun h => { h with nextCodes := some (Packet8 e.pkt 1, Packet8 e.pkt 2) })))) ∧
    (let fl := Packet8 e.pkt 5
     Ready .hf 0x0307 e s → 10 ≤ Packet16 e.pkt 0 → Packet16 e.pkt 0 ≤ 1000 → 1 ≤ Packet8 e.pkt 2 →
      1 ≤ Packet8 e.pkt 3 → Packet8 e.pkt 3 ≤ 63 → 1 ≤ Packet8 e.pkt 4 → Packet8 e.pkt 4 ≤ 4 →
      bit fl 0 = true → bit fl 2 = false → holds s .hf e.pkt.tenant = true → hfEmits s = false → hfBusy s = false →
      exec .hfLpcdArm s = .next (finish .hf 0 (lpcdBody (lpcdStore e.pkt s)) none (lpcdStore e.pkt s))) ∧
    (fenced s 0 = false → s.hf.lpcd.next ≤ nowAon s → baselining s = none → s.hf.lpcd.run = true →
      (lpcdDiscard s = false → exec (.lpcdMeasurement a n) s = .next (lpcdCompare a n s)) ∧
      (lpcdDiscard s = true → exec (.lpcdMeasurement a n) s = .next (lpcdNext (1000 * s.hf.lpcd.period) s))) ∧
    (fenced s 0 = true ∨ nowAon s < s.hf.lpcd.next → exec (.lpcdMeasurement a n) s = .next s) ∧
    (let v := agcView s c
     let ext := fun x => match c with
       | .hf => extWindow peak x
       | .uhf => x
     v.auto = true → v.runs = true →
      (0 < v.gain → v.high ≤ peak → exec (.agcWindow c peak false false) s =
        .next (onHfEvent (fun x => ext (gainStep c (v.gain - 1) false x)) s)) ∧
      (0 < v.gain → exec (.agcWindow c peak true false) s =
        .next (onHfEvent (fun x => ext (gainStep c (v.gain - 2) true x)) s)) ∧
      (v.gain < v.top → peak < v.high → peak < v.low → v.dwellDone = true →
        exec (.agcWindow c peak false false) s =
          .next (onHfEvent (fun x => ext (gainStep c (v.gain + 1) false x)) s)) ∧
      (∀ clip, exec (.agcWindow c peak clip true) s = .next (onHfEvent (fun x => ext (captureSof c (sofSeen c x))) s))) ∧
    ((agcView (sofSeen .hf s) .hf).runs = false ∧ (s.uhf.radio ≠ .listen → (agcView (sofSeen .uhf s) .uhf).runs = false))) ∧
  (∀ (peak : Nat) (s : State), s.hf.radio = .listen →
    (exec (.externalFieldDetected peak) s = .next (onHfEvent (extWindow peak) s)) ∧
    (extCode s ≤ peak → extLowCode s ≤ peak → s.hf.ext = false → extWindow peak s =
      peerFieldSeen (emuField (raise 22 1 (s.onHf fun h => { h with ext := true, extSeen := s.time })))) ∧
    (peak < extCode s → extLowCode s ≤ peak → extWindow peak s = s.onHf fun h => { h with extSeen := s.time }) ∧
    (peak < extCode s → peak < extLowCode s → extWindow peak s = s) ∧
    (s.hf.ext = true → s.hf.extSeen + 1000 ≤ s.time → exec .externalFieldGone s =
      .next (onHfEvent (fun x => emuFieldLost (raise 22 0 (x.onHf fun h => { h with ext := false }))) s)) ∧
    (s.time < s.hf.extSeen + 1000 → exec .externalFieldGone s = .next (onHfEvent id s)))

/-- HF_POLL and HF_ACTIVATE send their first frame: the request of the first technology asked for, not before the
guard time of the field; the wake-up of the card's technology (R592–R601). The exchange opcodes of a lit field send
their frame with its reply window; HF_DESELECT with DROP forgets its cards at once (R602, R610–R612). -/
def Obligations.CardOpcodes : Prop :=
  (∀ (e : Exec) (c : Card) (s : State), hfBusy s = false → hfLit s = true → s.hf.rising = false →
    let b := Packet8 e.pkt
    (let op : PollOp :=
       { tech := 0, wake := bit (b 1) 0, techs := b 0, nSlots := b 2, off := Packet32 e.pkt 8
         afi := if bit (b 1) 1 then some (BitVec.ofNat 8 (b 3)) else none
         level := 0, known := [], uid := [], atqa := 0, slot := 0, collided := false, repeats := 0
         masks := [], found := 0, more := false, collLeft := false, probing := false }
     ReadyLeased .hf 0x0301 e s → b 0 ≠ 0 → b 2 ≤ 4 → Packet32 e.pkt 8 % 4 = 0 → exec .hfPoll s =
       .next (startTech op (if bit (b 0) 0 then 0 else if bit (b 0) 1 then 1 else 2)
         (max s.time (s.hf.onAt + cfg s 0x220)) s)) ∧
    (let woken := fun (c : Card) =>
       { c with state := 1, cid := 0xFF, dsi := 0, dri := 0, fsci := 0, fwi := 0, sfgi := 0 }
     let op : ActivateOp :=
       { handle := b 0, level := b 1, dsi := b 2, dri := b 3, fsdi := b 4, cid := b 5, copy := bit (b 6) 0
         off := Packet32 e.pkt 8, cascade := 0, answer := [], lq := 0, evm := 1000 }
     ReadyLeased .hf 0x0302 e s → 1 ≤ b 0 → b 0 ≤ 8 → b 1 ≤ 1 → b 2 ≤ 3 → b 3 ≤ 6 → b 4 ≤ 12 →
      (b 5 ≤ 14 ∨ b 5 = 0xFF) → cardOf s (b 0) = some c → c.state ≠ 3 → c.state ≠ 4 →
      (c.tech = 0 → cidClash s (b 0) (if b 1 = 1 then 0xFF else b 5) = false → exec .hfActivate s =
        .next (actSend op .wupa (onCard (b 0) woken s))) ∧
      (c.tech = 1 → b 1 = 0 → cidClash s (b 0) (b 5) = false → exec .hfActivate s =
        .next (actSend op (.reqb true none 0) (onCard (b 0) woken s))) ∧
      (c.tech = 2 → b 1 = 1 → exec .hfActivate s = .next (actSend op (.select15 c.uid) s)))) ∧
  (∀ (e : Exec) (c : Card) (s : State), hfBusy s = false → hfLit s = true → s.hf.rising = false →
    let b := Packet8 e.pkt
    let n := Packet16 e.pkt 4
    let m := Packet16 e.pkt 6
    let t := Packet32 e.pkt 16
    (ReadyLeased .hf 0x0303 e s → b 0 ≤ 8 → (if b 0 = 0 then b 2 ≤ 2 else b 2 = 0) → 1 ≤ n → n ≤ 4096 → 1 ≤ m →
      m ≤ 4096 → 100 ≤ t → t ≤ 5000000 → bit (b 1) 2 = false → rawHandleOk s (b 0) false = true →
      exec .hfTransceive s = .next (hfSend (.raw (poundRead s e.pkt.tenant (Packet32 e.pkt 8) n)
          (if b 0 = 0 then b 2 else ((cardOf s (b 0)).map (·.tech)).getD 0) (bit (b 1) 0) false
          (((if b 0 = 0 then none else cardOf s (b 0)).map (·.dsi)).getD 0)
          (((if b 0 = 0 then none else cardOf s (b 0)).map (·.dri)).getD 0)) t
        (setPhase .hf (.raw ⟨m, Packet32 e.pkt 12, false, bit (b 1) 1, b 0⟩) s))) ∧
    (ReadyLeased .hf 0x0308 e s → b 0 ≤ 8 → n ≤ 4092 → request15 (b 0) (bit (b 2) 1) n ≤ 4096 → 1 ≤ m →
      m ≤ 4096 → 100 ≤ t → t ≤ 5000000 →
      rawHandleOk s (b 0) true = true →
      exec .hf15693Exchange s = .next (hfSend (.req15 (b 1) (bit (b 2) 0) (bit (b 2) 1)
          (if bit (b 2) 1 then none else if b 0 = 0 then none else (cardOf s (b 0)).map (·.uid))
          (poundRead s e.pkt.tenant (Packet32 e.pkt 8) n)) (max t response15)
        (setPhase .hf (.raw ⟨m, Packet32 e.pkt 12, true, true, b 0⟩) s))) ∧
    (let op : IsoOp :=
       { handle := b 0, rest := poundRead s e.pkt.tenant (Packet32 e.pkt 8) (Packet32 e.pkt 4), last := .sDeselect
         num := c.num, receiving := false, retries := 0, deselecting := none, rspOff := Packet32 e.pkt 12
         rspMax := t, rspLen := 0, sent := 0, received := 0, retrans := 0, wtx := 0, overflow := false, lq := 0
         evm := 1000 }
     ReadyLeased .hf 0x0304 e s → 1 ≤ b 0 → b 0 ≤ 8 → 1 ≤ Packet32 e.pkt 4 → Packet32 e.pkt 4 ≤ 65535 → 1 ≤ t →
      t ≤ 65535 → cardOf s (b 0) = some c → c.state = 3 →
      exec .hfIsodepExchange s = .next (isoNextBlock op c s)) ∧
    (ReadyLeased .hf 0x0305 e s → 1 ≤ b 0 → b 0 ≤ 8 → cardOf s (b 0) = some c →
      (b 1 = 1 → exec .hfDeselect s =
        .next (finish .hf 0 (deselectBody ⟨[], 0, 0, false⟩) none (dropCard (b 0) s))) ∧
      (b 1 = 0 → exec .hfDeselect s = .next (deselectGo .hf ⟨[b 0], 0, 0, false⟩ s))))

/-- The reader's frame ends and opens its reply window; a received frame is counted, starts the minimum gap and moves
the exchange on, and so does the window's end (R367, R487–R493, R800). -/
def Obligations.ReaderFrames : Prop :=
  ∀ (f : HfFrame) (g : UhfFrame) (res : FrameResult) (ans : HfAnswer) (ua : UhfAnswer) (m : RxMeas) (clip : Bool)
    (at_ : Nat) (s : State),
    (s.hf.tx = some f → exec (.readerFrameEnd .hf) s = .next (onHfEvent (fun x => hfSentFrame f
      ((if hfEmits x then captureFrameEnd .hf else id) (x.onHf fun h =>
        { h with tx := none, radio := if hfEmits x then .rx else .listen }))) s)) ∧
    (s.uhf.tx = some g → uhfNoReply g = false → exec (.readerFrameEnd .uhf) s =
      .next ((captureFrameEnd .uhf (s.onUhf fun u => { u with tx := none, radio := .rx })).onUhf fun u =>
        { u with wait := some (s.time + u.waitLen) })) ∧
    (res ≠ .noSof → s.hf.wait = some at_ → s.hf.tx = none → hfBusy s = false →
      let r := rxJudged s res ans
      let q := linkQuality s r m (hfNoise s)
      exec (.hfRxFrame res ans m clip) s = .next (hfContinue r (some ans) q.1 q.2 (cardHeard q.1 q.2
        (hfBoundary ((gatherHf r q.1 m.carrier (clipEvents clip (countHf r s.useFree))).onHf fun h =>
          { h with wait := none, sof := false, gapNs := 1000 * s.time + hfGap s }))))) ∧
    ((hfOwner s).bind (execOf s) = none → rxJudged s res ans = res) ∧
    (res ≠ .noSof → s.uhf.wait = some at_ → s.uhf.tx = none → uhfLit s = true →
      let q := linkQuality s res m (uhfNoise s)
      exec (.uhfRxFrame res ua m) s = .next (uhfContinue res (some ua) q.1 q.2
        (uhfBoundary ((gatherUhf res q.1 (countUhf res s.useFree)).onUhf fun u =>
          { u with wait := none, sof := false, gapNs := 1000 * s.time + uhfGap s })))) ∧
    (s.hf.wait = some at_ → at_ ≤ s.time → exec (.replyWindowTimeout .hf) s = .next (onHfEvent hfSilence s)) ∧
    (s.uhf.wait = some at_ → at_ ≤ s.time → exec (.replyWindowTimeout .uhf) s = .next (uhfSilence s))

/-! ## UHF chain -/

/-- UHF_CARRIER puts the carrier on and off, UHF_SET_CHANNEL chooses the channel, with its divider, and the rise and
fall end (R419–R431, R441–R444, R457). -/
def Obligations.UhfCarrierOnAndOff : Prop :=
  ∀ (e : Exec) (fwd : Int) (rl : Nat) (why : FallFor) (s : State),
    (let v := Packet32 e.pkt 4
     let u := if v = 0 then s else powerApply .uhf 0x300 v (powerCheck s e.pkt.tenant false 0x300 v) s
     let w := uhfFall .off u
     ReadyLeased .uhf 0x0403 e s → Packet8 e.pkt 0 = 0 →
      (uhfEmits s = true → exec .uhfCarrier s = .next (setPhase .uhf .carrierFall w)) ∧
      (uhfEmits s = false → exec .uhfCarrier s = .next (finish .uhf 0 (uhfCarrierBody w) none w))) ∧
    (let v := Packet32 e.pkt 4
     let c := powerCheck s e.pkt.tenant true 0x300 v
     let u := powerApply .uhf 0x300 v c s
     ReadyLeased .uhf 0x0403 e s → Packet8 e.pkt 0 = 1 → s.uhf.blocked = false → (charter s).isSome = true →
      channelOk s s.uhf.mode s.uhf.index = true → carrierOn s = false → uhfAllowed s = true →
      s.uhf.falling = none → c.noRoom = false →
      exec .uhfCarrier s = .next (uhfTryRise (setPhase .uhf .carrierRise
        (setUhfGrant (uhfDraw u (cfg u 0x300)) (u.onUhf fun x => { x with wantOn := true }))))) ∧
    (let mode := Packet8 e.pkt 0
     let index := Packet8 e.pkt 1
     let u := applyChannel mode index (s.onUhf fun x => { x with riseWait := .none })
     ReadyLeased .uhf 0x0404 e s → mode ≤ 1 → (mode = 1 → index = 0) → channelOk s mode index = true →
      uhfEmits s = false → exec .uhfSetChannel s = .next (finish .uhf 0 (uhfChannelBody u) none (uhfTryRise u))) ∧
    (∀ (i : Nat) (c : Charter), s.chr.inForce = some c →
      let u := setIndex i s
      let d := 6780 * (u.uhf.divN * 2 ^ 24 + u.uhf.divF)
      let f := nth c.raster i 0 * 2 ^ 24
      u.uhf.index = i ∧ u.uhf.divF < 2 ^ 24 ∧ d ≤ f + 3390 ∧ f ≤ d + 3390 ∧
        (s.uhf.synth = .locked → s.uhf.index ≠ i → u.uhf.readyAt = s.time + 45)) ∧
    (s.uhf.rising = true → s.uhf.riseEnd ≤ s.time →
      exec (.carrierRiseDone fwd rl) s = .next (onUhfEvent (carrierUp fwd rl) s)) ∧
    (uhfEmits s = true → s.uhf.falling = none → (uhfFall why s).uhf.fallEnd = s.time + 30) ∧
    (s.uhf.falling.isSome = true → (uhfFall why s).uhf.fallEnd = s.uhf.fallEnd) ∧
    (s.uhf.falling = some why → s.uhf.fallEnd ≤ s.time →
      exec .carrierFallDone s = .next (onUhfEvent (fun x => uhfFell why (uhfCarrierGone x)) s))

/-- The synthesiser locks, unlocks and is recalibrated (R418, R423–R425, R437, R564). Channel visits: the soft point
asks for a hop, the hop moves on, the dwell limit ends the visit with source 52, a rest or a channel's return lets
the carrier rise again (R426–R432). Listening before talk: below the threshold the carrier rises, above it a fixed
channel backs off; reflections and the amplifier's current limit (R433–R436, R439, R440, R520). -/
def Obligations.SynthesiserAndVisits : Prop :=
  (∀ (band : Nat) (s : State),
    (s.uhf.synth = .starting →
      let w := if s.uhf.relock then synthRecal s.uhf.index (freeBelow s 256) s.useFree else s
      let u := settleRadio .uhf (setPll .uhf .locked (w.onUhf fun x => { x with relock := false }))
      exec .synthLocked s = .next (uhfTryRise (grantLocked .uhf (raise 48 (synthPayload u (s.uhf.mode == 1)) u)))) ∧
    (s.uhf.synth = .locked → secondUnlock s = true → exec .synthUnlock s =
      .next (fenceUnit 1 5 0 (raise 49 (synthPayload s true) s))) ∧
    (s.uhf.synth = .locked → secondUnlock s = false → exec .synthUnlock s =
      .next (settleRadio .uhf (setPll .uhf .starting (raise 49 (synthPayload s false)
        (uhfFall .relock (s.onUhf fun u =>
          { u with
            unlockAt := some s.time, relock := true
            riseWait := if resting s || u.riseWait == .channel then u.riseWait else .none })))))) ∧
    (s.tow.recalRun = true → recalMayRun s = true →
      exec (.synthRecal band) s = .next (recalTick (synthRecal s.uhf.index (band % 256) s))) ∧
    (recalMayRun s = true ↔ s.tow.recalDue = true ∧ s.uhf.radio = .synth ∧ s.uhf.synth = .locked ∧ uhfEmits s = false ∧
      s.uhf.held = none ∧ s.uhf.riseWait ≠ .check ∧ s.uhf.riseWait ≠ .change)) ∧
  (∀ (at_ : Nat) (s : State),
    (uhfLit s = true → s.uhf.visitFrom = some at_ → s.uhf.hopDue = false → s.cal.holding = none →
      hardLimit s - hopGuard s ≤ visitTime s →
      exec .dwellSoftPoint s = .next (s.onUhf fun u => { u with hopDue := true })) ∧
    (s.uhf.hopDue = true → uhfLit s = true → uhfInFrame s = false → s.uhf.rising = false →
      exec .hop s = .next (breakRound (moveOn true s))) ∧
    (uhfLit s = true → s.cal.holding = none → s.uhf.visitFrom = some at_ → hardLimit s ≤ visitTime s →
      exec .dwellLimit s = .next (breakRound (moveOn false (raise 52 s.uhf.index s)))) ∧
    (s.uhf.riseWait = .rest → s.uhf.restUntil ≤ s.time → exec .restEnd s =
      .next (uhfTryRise (s.onUhf fun u => { u with riseWait := .none, restUntil := 0 }))) ∧
    (s.uhf.riseWait = .channel → exec .channelAvailable s =
      .next (uhfTryRise (s.onUhf fun u => { u with riseWait := .none })))) ∧
  (∀ (level : Int) (c : Charter) (rl : Nat) (s : State),
    (charter s = some c → s.uhf.riseWait = .lbt → s.uhf.readyAt ≤ s.time → level < c.lbtThr →
      exec (.lbtSenseDone level) s = .next (uhfCheckRise s)) ∧
    (charter s = some c → s.uhf.riseWait = .lbt → s.uhf.readyAt ≤ s.time → c.lbtThr ≤ level → s.uhf.mode = 0 →
      exec (.lbtSenseDone level) s =
        .next (waitRise .backoff (s.onUhf fun u => { u with restUntil := s.time + 1000 * c.lbtBackoff }))) ∧
    (s.uhf.riseWait = .backoff → s.uhf.restUntil ≤ s.time → exec .lbtBackoffEnd s =
      .next (uhfTryRise (s.onUhf fun u => { u with riseWait := .none, restUntil := 0 }))) ∧
    (s.uhf.measAt ≤ s.time → uhfLit s = true → s.uhf.radio = .rx → uhfInFrame s = false →
      (cfg s 0x307 ≤ rl → exec (.rlMeasurement rl) s = .next (s.onUhf fun u =>
        { u with rl := rl, measAt := s.time + 100, low := 0, alarm := false, blocked := false })) ∧
      (rl < cfg s 0x307 → s.uhf.low < 2 ∨ s.uhf.alarm = true → exec (.rlMeasurement rl) s = .next (s.onUhf fun u =>
        { u with rl := rl, measAt := s.time + 100, low := u.low + 1 })) ∧
      (rl < cfg s 0x307 → 2 ≤ s.uhf.low → s.uhf.alarm = false → exec (.rlMeasurement rl) s =
        .next (reflectedAction (raise 50 (reflectedPayload s rl false) (s.onUhf fun u =>
          { u with rl := rl, measAt := s.time + 100, low := u.low + 1, alarm := true }))))) ∧
    (uhfEmits s = true → rl < 10 → exec (.hardReflection rl) s =
      .next (fenceUnit 1 7 0 (raise 50 (reflectedPayload s rl true) s))) ∧
    (uhfEmits s = true → exec .paCurrentLimit s = .next (fenceUnit 1 6 0 s)))

/-- UHF_INVENTORY begins its first round, UHF_SELECT keeps or drops a Select command, UHF_ACCESS begins to singulate
its tag (R613–R623, R634, R638). -/
def Obligations.TagOpcodes : Prop :=
  ∀ (e : Exec) (s : State),
    let b := Packet8 e.pkt
    let n := Packet16 e.pkt 4
    let lim := Packet32 e.pkt 8
    (ReadyLeased .uhf 0x0400 e s → b 0 ≤ 3 → b 1 ≤ 2 → b 2 ≤ 3 → 1 ≤ n → n ≤ 4096 → 1 ≤ b 6 → 1 ≤ lim →
      lim ≤ 60000 → carrierOn s = true → exec .uhfInventory s = .next (beginRound
        { session := b 0, target := b 1, sel := b 2, tagEvents := bit (b 3) 0, roundEvents := bit (b 3) 1
          maxRecs := n, emptyRounds := b 6, limitAt := e.slice + 1000 * lim, off := Packet32 e.pkt 12, recs := []
          reads := 0, rounds := 0, emptyRun := 0, newInRound := 0, q := 0, qfp := 0, slots := 0, collided := 0
          empty := 0, targetB := false, stage := .between, draw := none } s)) ∧
    (let len := Packet16 e.pkt 6
     let cmd : SelectCmd :=
       { slot := b 0, target := b 2, action := b 3, bank := b 4, trunc := bit (b 5) 0, ptr := Packet32 e.pkt 8
         len := len, mask := poundRead s e.pkt.tenant (Packet32 e.pkt 12) ((len + 7) / 8) }
     let u := s.onUhf fun x =>
       { x with selects := if b 1 = 1 then insertSelect cmd x.selects else x.selects.filter fun c => c.slot != b 0 }
     ReadyLeased .uhf 0x0402 e s → b 0 ≤ 3 → b 1 ≤ 1 → b 2 ≤ 4 → b 3 ≤ 7 → b 4 ≤ 3 → len ≤ 255 →
      (bit (b 5) 1 = false ∨ carrierOn s = false → exec .uhfSelect s = .next (finish .uhf 0 (selectBody u) none u)) ∧
      (bit (b 5) 1 = true → carrierOn s = true → exec .uhfSelect s = .next (selectGo (selectSlots u) u))) ∧
    (let bs := poundRead s e.pkt.tenant (Packet32 e.pkt 8) (16 * b 1)
     let ops := (List.range (b 1)).map (accessEntry bs)
     ReadyLeased .uhf 0x0401 e s → 2 ≤ b 0 → b 0 ≤ 62 → b 0 % 2 = 0 → 1 ≤ b 1 → b 1 ≤ 8 →
      (List.range (b 1)).all (entryOk s e.pkt.tenant bs) = true →
      inPound s e.pkt.tenant (Packet32 e.pkt 12) (accessSize ops) = true → carrierOn s = true →
      accessFenced s e.pkt.tenant ops = false → exec .uhfAccess s = .next (accessAttempt
        { epc := poundRead s e.pkt.tenant (Packet32 e.pkt 4) (b 0), ops := ops, idx := 0, attempts := 0
          stage := .selectSl, rn := 0, handle := 0, resOff := Packet32 e.pkt 12
          readOff := Packet32 e.pkt 12 + 8 * b 1, lq := 0, evm := 1000 } s))

/-! ## Spectrum, captures, calibration and the towpath -/

/-- A mask check keeps its verdict and lets the frame or the rise go on or refuses it; SPECTRUM_CHECK reports;
captures are begun, triggered, ended and time out (R478–R486, R496–R508). -/
def Obligations.SpectrumAndCaptures : Prop :=
  ∀ (c : Chain) (cs : List (Chain × Option LaneId)) (bins samples : List (Int × Int)) (l : LaneId) (k : Capture) (clip : Bool)
    (e : Exec) (s : State),
    (s.spec.queue = (c, none) :: cs → let r := checkKey s c bins
      let u := keepVerdict c r.1 (s.onSpec fun m => { m with queue := cs })
      let go := if r.1 = 0 then maskPass c else maskFail c r.1 ((r.2.map (·.1)).getD 0)
      exec (.maskCheckDone bins) s = .next (specTurns 3 (checkEnds c go u))) ∧
    (let u := setPhase l (.specWait bins) s
     let r := checkKey u c bins
     s.spec.queue = [] → laneOfFresh s 0x0A01 = l → Ready l 0x0A01 e s → Packet8 e.pkt 0 = chainIndex c →
      bit (Packet8 e.pkt 1) 0 = false →
      Packet32 e.pkt 4 = 0 → r.2.isSome = true → exec (.spectrumCheck bins) s =
        .next (finish l 0 (spectrumBody u r) none (if r.1 = 0 then keepVerdict c 0 u else u))) ∧
    (laneOfFresh s 0x0A00 = l → Ready l 0x0A00 e s → captureOk e.pkt = true → Packet8 e.pkt 0 = chainIndex c →
      Packet8 e.pkt 2 ≠ 0 → holds s c e.pkt.tenant = true → capOf s c = none → radioOf s c ≠ .synth →
      exec .captureSamples s = .next (finish l 0 [] none (onCap c (fun _ => some
        { tenant := e.pkt.tenant, tap := Packet8 e.pkt 1, trigger := Packet8 e.pkt 2, count := Packet16 e.pkt 4
          off := Packet32 e.pkt 8, timeoutAt := s.time + 1000 * Packet16 e.pkt 6, armed := true, cut := false
          stamp := 0, gain := 0, gainChanged := false, carrierOn := litOf s c, wasSynth := false }) s))) ∧
    (capOf s c = some k → k.armed = true → k.cut = false →
      (k.trigger = 1 → exec (.captureTriggered c) s = .next (captureStart c s)) ∧
      (k.trigger = 2 → exec (.captureTriggered c) s = .next s ∧ captureFrameEnd c s = captureStart c s) ∧
      (k.timeoutAt ≤ s.time → exec (.captureTimeout c) s = .next (captureEnd c k [] 1 false s))) ∧
    (capOf s c = some k → k.armed = false → k.cut = false → k.count ≤ samples.length →
      exec (.captureDone c samples clip) s = .next (captureEnd c k (samples.take k.count) 0 clip s))

/-- A towpath step starts where one is due and the delay allows it, ends with its effect, and is abandoned with a
fence when it overruns its duration by 2 µs; TOWPATH_CONFIG reads and clears the counters (R551–R566, R581). -/
def Obligations.TowpathSteps : Prop :=
  ∀ (c : Chain) (k k' : StepKind) (x y : Int) (iAnt : Nat) (e : Exec) (s : State),
    (towNext s c = some k → exec (.towpathStepStart c) s = .next (startStep c k s)) ∧
    (towNext s c = none → exec (.towpathStepStart c) s = .next s) ∧
    ((k ≠ .tuner → startStep c k s = onTowLane c (fun t =>
        { t with step := some k, void := false, stepAt := s.time, due := t.due.filter (· != k) }) s) ∧
      (towLane (startStep c .tuner s) c).tunerAt = s.time + cfg s 0x400) ∧
    ((towLane s c).step = some k → overran s c k = false →
      let v := (onTowLane c (fun t => { t with step := none, void := false }) s).onHf fun h =>
        { h with stepFrom := if c = .hf then none else h.stepFrom }
      let u := towWaiter (ctrAdd (towCtr c 2) 1 (imposeDelay c
        (if (towLane s c).void = true then v else stepEffect c k x y iAnt v)))
      (towNext u c = none → exec (.towpathStepEnd c x y iAnt) s = .next (startHeld c u)) ∧
      (towNext u c = some k' → exec (.towpathStepEnd c x y iAnt) s = .next (startStep c k' u))) ∧
    ((towLane s c).step = some k → s.time < (towLane s c).stepAt + stepLen c k + 2 →
      exec (.towpathStepOverrun c) s = .next s) ∧
    ((towLane s c).step = some k → (towLane s c).stepAt + stepLen c k + 2 ≤ s.time →
      exec (.towpathStepEnd c x y iAnt) s = .next s ∧
      exec (.towpathStepOverrun c) s =
        .next (startHeld .uhf (startHeld .hf (towWaiter (fenceUnit 2 11 0 (imposeDelay c s)))))) ∧
    (let body := (towCounters.map fun i => le 4 (ctrGet s i)).flatten
     Ready .house 0x0604 e s →
      (Packet8 e.pkt 0 = 0 → exec .towpathConfig s = .next (finish .house 0 body none s)) ∧
      (Packet8 e.pkt 0 = 1 → exec .towpathConfig s =
        .next (finish .house 0 body none (towCounters.foldl (fun s i => ctrClear i s) s))) ∧
      (Packet8 e.pkt 0 = 2 → exec .towpathConfig s =
        .next (finish .house 0 body none (discardGather .uhf (discardGather .hf s)))))

/-- CAL_RUN on a lit field, on a dark UHF chain and for the oscillator; the oscillator's gates, steps and missing
reference; the end of a detector point (R544–R550, R571–R577). CAL_STORE commits the values in force to the older
bank, CAL_LOAD takes the named parts of a bank; both wait while a towpath step runs (R567–R570). -/
def Obligations.CalibrationOpcodes : Prop :=
  (∀ (rs : List Int) (e : Exec) (o : OscRun) (err fwd rev : Int) (k : Nat) (own : Bool) (s : State),
    (let r := runOf e.pkt rs (discardGather .hf s)
     laneOfFresh s 0x0600 = .hf → ReadyLeased .hf 0x0600 e s → 1 ≤ Packet8 e.pkt 1 → Packet8 e.pkt 1 ≤ 2 →
      Packet32 e.pkt 4 = 0 → Packet32 e.pkt 8 = 0 → hfBusy s = false → hfLit (discardGather .hf s) = true →
      (discardGather .hf s).hf.rising = false → hfInFrame (discardGather .hf s) = false →
      exec (.calRun rs) s = .next (finish .hf 0 r.1 none r.2)) ∧
    (let u := discardGather .uhf s
     let r := runOf e.pkt rs u
     laneOfFresh s 0x0600 = .uhf → ReadyLeased .uhf 0x0600 e s → 1 ≤ Packet8 e.pkt 1 → Packet8 e.pkt 1 ≤ 2 →
      Packet32 e.pkt 4 = 0 → Packet32 e.pkt 8 = 0 → uhfEmits u = false → u.uhf.wantOn = false →
      exec (.calRun rs) s = .next (finish .uhf 0 r.1 none r.2)) ∧
    (laneOfFresh s 0x0600 = .house → Ready .house 0x0600 e s → Packet8 e.pkt 0 ≤ 2 → Packet8 e.pkt 1 = 0 →
      1 ≤ Packet32 e.pkt 4 → Packet32 e.pkt 4 ≤ 20000000 → Packet32 e.pkt 8 = 0 → s.cal.osc = none →
      exec (.calRun rs) s = .next (setPhase .house .calOsc (s.onCal fun c =>
        { c with osc := some ⟨Packet32 e.pkt 4, 0, 0, 0, c.xoTrim, 0, s.time, false, c.xoTrim⟩ }))) ∧
    (oscRun s = some o → o.target = s.cal.xoTrim → o.gateFrom + 1000000 ≤ s.time →
      exec (.calGateEnd err) s = .next (gateEnd err o s)) ∧
    (oscRun s = some o → o.target ≠ s.cal.xoTrim → o.stepAt ≤ s.time → s.hf.tx = none → s.hf.wait = none →
      s.uhf.tx = none → s.uhf.wait = none → exec .xoTrimStep s = .next (s.onCal fun c =>
        { c with xoTrim := trimToward c.xoTrim o.target, osc := some { o with stepAt := s.time + 1000, gateFrom := s.time } })) ∧
    (oscRun s = some o → o.target = s.cal.xoTrim → o.gateFrom + 2000000 ≤ s.time →
      exec .calRefinTimeout s = .next (oscEnd 0x20 2 o (s.onCal fun c => { c with xoTrim := o.trim0 }))) ∧
    (s.cal.holding = some k → execOf s .uhf = some e → e.phase = .calHold own → holdOverAt s = true →
      exec (.calHoldEnd fwd rev) s = .next (holdDone k own fwd rev s))) ∧
  (∀ (e : Exec) (d : CalData) (s : State),
    (Ready .house 0x0601 e s → stepRuns s = false → exec .calStore s = .next (calStoreGo s)) ∧
    (Ready .house 0x0601 e s → stepRuns s = true → exec .calStore s = .next (setPhase .house .towWait s)) ∧
    (let parts := Packet8 e.pkt 0
     let bank := Packet8 e.pkt 1
     let lo := 0xC1000 + 0x4000 * bank
     ∀ ecc : EccRead, Ready .house 0x0602 e s → 1 ≤ parts → bank ≤ 2 →
      let t := eccRead lo (lo + 0x4000) ecc s
      let s1 := if bit parts 0 then loadHf d bank t else t
      let s2 := if bit parts 1 then loadUhf d bank s1 else s1
      let s3 := if bit parts 2 then loadCommon d bank s2 else s2
      (stepRuns t = false → namedBank t bank = some d →
        exec (.calLoad ecc) s = .next (finish .house 0 [] none (dropAllVerdicts s3))) ∧
      (stepRuns t = false → namedBank t bank = none →
        exec (.calLoad ecc) s = .next (finish .house 0x23 [] none t)) ∧
      (stepRuns t = true → exec (.calLoad ecc) s = .next (setPhase .house .towWait t))))

/-! ## Emulation and peer mode -/

/-- Card emulation: configured, armed, answering a reader in the states of its table, asking for more time,
giving the APDU up when field 0x0233 is used up, answering with a response, disarmed (R640–R652, R672–R675). -/
def Obligations.CardEmulation : Prop :=
  ∀ (e : Exec) (p : EmuProfile) (f : EmuFrame) (clip : Bool) (res : FrameResult) (s : State),
    (let w := Packet32 e.pkt
     let ats := poundRead s e.pkt.tenant (w 20) (Packet8 e.pkt 5)
     let prof : EmuProfile :=
       { uidMode := Packet8 e.pkt 0, maxRate := Packet8 e.pkt 1, atqa := BitVec.ofNat 16 (Packet16 e.pkt 2)
         sak := BitVec.ofNat 8 (Packet8 e.pkt 4), ats := ats
         uid := (e.pkt.params.drop 8).take (uidLen (Packet8 e.pkt 0)), cmdOff := w 24, rspOff := w 28, fwi := atsFwi ats }
     ReadyLeased .hf 0x0500 e s → emuParamsOk e.pkt = true → s.emu.armed = false → exec .emuConfigure s =
      .next (finish .hf 0 [] none (s.onEmu fun _ => { Emu.reset with profile := some prof, owner := e.pkt.tenant }))) ∧
    (ReadyLeased .hf 0x0501 e s → profileOf s e.pkt.tenant = some p → p.uidMode ≠ 3 → hfEmits s = false →
      s.peer = none → s.emu.armed = false →
      exec .emuArm s = .next (finish .hf 0 (le 4 0) none (emuListen p.uid s))) ∧
    (s.emu.armed = true → s.emu.state ≠ 0 → s.hf.tx = none →
      let judged := frameJudged (f == .bad) res
      let g := if judged = .ok then f else .bad
      let heard := fun x => (clipEvents clip (countHf judged x)).onHf fun h => { h with sof := false }
      res ≠ .noSof → exec (.emuRxFrame f clip res) s = .next
        (onHfEvent (fun x => if s.emu.state = 5 then emuProtocol g (heard x) else emuLayer3 g (heard x)) s)) ∧
    (s.emu.wtxOpen = true → exec .emuWtxTimer s = .next s) ∧
    (s.emu.armed = true → s.emu.await = true → s.emu.wtxOpen = false → s.hf.tx = none → s.emu.wtxAt ≤ s.time →
      s.emu.wtx < cfg s 0x233 →
      exec .emuWtxTimer s = .next (emuSend (.emuWtx (cfg s 0x232)) (s.onEmu fun x =>
        { x with wtx := x.wtx + 1, wtxOpen := true, wtxAt := emuWtxPoint s (cfg s 0x232) }))) ∧
    (s.emu.armed = true → s.emu.await = true → s.emu.wtxOpen = false → s.hf.tx = none → s.emu.wtxAt ≤ s.time →
      cfg s 0x233 ≤ s.emu.wtx → exec .emuWtxTimer s = .next (raise 42 1 (s.onEmu fun m =>
        { m with await := false, wtxOpen := false, rest := [], last := none }))) ∧
    (let n := Packet16 e.pkt 0
     let off := (s.emu.profile.map (·.rspOff)).getD 0
     ReadyLeased .hf 0x0502 e s → 1 ≤ n → n ≤ 4096 → s.emu.await = true → inPound s e.pkt.tenant off n = true →
      poundFenced s e.pkt.tenant off n = false →
      exec .emuRespond s = .next (
        let s1 := setPhase .hf .emuRespond (s.onEmu fun m =>
          { m with await := false, rest := poundRead s e.pkt.tenant off n, blocks := 0 })
        if s.emu.wtxOpen then s1 else emuNextBlock s1)) ∧
    (ReadyLeased .hf 0x0503 e s → exec .emuDisarm s = .next (finish .hf 0 [] none (emuOff 3 s)))

/-- Peer mode: a link starts with its draw, exchanges data, asks for more time, stops (R657–R665, R676). A role
swap: the request with its draw, the end of the back-off, the gap, the new initiator's time limit, the end of the
other side's field (R666–R671, R677). -/
def Obligations.PeerLinkAndSwap : Prop :=
  (∀ (e : Exec) (r : PeerRun) (f : PeerFrame) (m : RxMeas) (clip : Bool) (res : FrameResult) (s : State),
    (ReadyLeased .hf 0x0510 e s → Packet8 e.pkt 0 ≤ 1 → Packet8 e.pkt 1 ≤ 1 → Packet8 e.pkt 2 ≤ 2 →
      Packet8 e.pkt 4 ≤ 14 → Packet8 e.pkt 5 ≤ 44 → hfBusy s = false → hfEmits s = false → hfAllowed s = true →
      s.pwr.warn = false → exec .peerStart s = .next (peerDraw s.time e.pkt s)) ∧
    (ReadyLeased .hf 0x0511 e s → Packet32 e.pkt 0 ≤ 4096 → s.peer = some r →
      r.stage = (if r.target then .answerDue else .open) → exec .peerExchange s =
        .next (peerSendData (setPhase .hf .peerXchg (onPeerRun (fun r =>
          { r with
            rest := (if r.swapOk then [0] else []) ++ poundRead s e.pkt.tenant (Packet32 e.pkt 4) (Packet32 e.pkt 0)
            buf := [], stage := if r.target then .open else .reqSent }) s)))) ∧
    (peerHears s = true → res ≠ .noSof → exec (.peerRxFrame f m clip res) s = .next (onHfEvent (peerRx f m clip res) s)) ∧
    (s.peer = some r → answerOwed r = true → s.hf.tx = none → s.hf.held = none →
      let k := 1 + freeBelow s 59
      (s.time ≤ r.rwtEnd → exec .peerRtox s = .next (peerSend (.rtox k)
        (onPeerRun (fun p => { p with rwtEnd := s.time + fwt (cfg s 0x235) k }) s.useFree))) ∧
      (r.rwtEnd < s.time → exec .peerRtox s = .next s)) ∧
    (r.target = true → r.stage = .answerDue → answerOwed r = true) ∧
    (ReadyLeased .hf 0x0513 e s → s.peer = some r → r.target = true → exec .peerStop s = .next (peerEnd s)) ∧
    (ReadyLeased .hf 0x0513 e s → s.peer = some r → r.target = false → Packet8 e.pkt 0 ≤ 1 → r.stage = .open →
      (r.activeMode = true ∨ hfLit s = true) → exec .peerStop s = .next (peerSend
        (if Packet8 e.pkt 0 = 0 then .rlsReq else .dslReq) (setPhase .hf .peerXchg s)))) ∧
  (∀ (e : Exec) (r : PeerRun) (s : State),
    (ReadyLeased .hf 0x0512 e s → swapReady s = true → exec .peerRoleSwap s =
      .next (swapDraw s.time (onPeerRun (fun p => { p with want := true, ties := 0 }) s))) ∧
    (ReadyLeased .hf 0x0512 e s → swapReady s = false → exec .peerRoleSwap s = .next (finish .hf 0x23 [] none s)) ∧
    (s.peer = some r → r.stage = .swapBackoff → r.drawAt = none → r.until_ ≤ s.time →
      exec .swapBackoffEnd s = .next (onHfEvent (fun x => match rngDraw1 1 x with
        | some (ws, u) => backoffEnd (nth ws 0 0).toNat u
        | none => swapWaits false x) s)) ∧
    (s.peer = some r → r.stage = .swapGap → r.drawAt = none → r.until_ ≤ s.time →
      exec (.swapGapEnd true) s = .next (onHfEvent (swapLost 3) s) ∧
      (hfAllowed s = true → exec (.swapGapEnd false) s = .next (onHfEvent swapSense s))) ∧
    (s.peer = some r → r.stage = .swapListen → r.until_ ≤ s.time → s.hf.tx = none → s.hf.held = none →
      exec .swapReactivationTimeout s = .next (onHfEvent (swapLost 2) s)) ∧
    (s.peer = some r → r.activeMode = true → r.otherOn = true →
      let ended := onPeerRun fun p => { p with otherOn := false, otherEnd := s.time }
      (s.hf.held = none → exec .otherFieldEnds s = .next (onHfEvent ended s)) ∧
      (s.hf.held.isSome = true → hfEmits s = false →
        exec .otherFieldEnds s = .next (onHfEvent (fun x => answerSense (ended x)) s))) ∧
    (answerSense s = onPeerRun (fun p => { p with answerAt := some (max s.time (p.otherEnd + 57)) })
      (s.onHf fun h => { h with radio := .listen })) ∧
    (∀ ws u, rngDraw1 1 s = some (ws, u) → swapSense s =
      (onPeerRun (fun p =>
        { p with stage := .sensing, drawAt := none, until_ := s.time + senseTime ((nth ws 0 0).toNat % 4) }) u).onHf
        fun h => { h with radio := .listen, ext := false }) ∧
    (s.peer = some r → r.stage = .sensing →
      (inPeerPhase s .peerStart = true → peerFieldSeen s =
        finish .hf 0x23 [] none (hfFall 0 (hfIdle ((peerOff s).onHf fun h => { h with held := none })))) ∧
      (inPeerPhase s .peerStart = false → peerFieldSeen s = swapLost 3 s)))
end

