-- ==== Sys2Proof/Laws/Memory.lean ====
section
/-! SUPPORT. The Basin: a byte read after a write, and the canonical form that every memory operation keeps. -/

namespace Sys2Proof.Machine

open Sys2Proof

variable {d : Nat → Byte}

theorem cellsFrom_mono {lo lo' : Nat} (h : lo' ≤ lo) : ∀ m, cellsFrom d lo m = true → cellsFrom d lo' m = true
  | [], _ => rfl
  | (k, b) :: m, hm => by
    simp only [cellsFrom, Bool.and_eq_true, decide_eq_true_eq] at hm ⊢
    exact ⟨⟨by omega, hm.1.2⟩, hm.2⟩

theorem cellsFrom_cons (lo k : Nat) (b : Byte) (m : List Host.Cell) :
    cellsFrom d lo ((k, b) :: m) = true ↔ lo ≤ k ∧ b ≠ d k ∧ cellsFrom d (k + 1) m = true := by
  rw [cellsFrom, Bool.and_eq_true, Bool.and_eq_true, decide_eq_true_eq, decide_eq_true_eq, and_assoc]

/-- A write above the bound keeps the form above the bound. -/
theorem cellWrite_from (v : Byte) : ∀ (m : List Host.Cell) (lo a : Nat), lo ≤ a → cellsFrom d lo m = true →
    cellsFrom d lo (cellWrite d m a v) = true
  | [], lo, a, h, _ => by
    rw [cellWrite]
    split
    · rfl
    · rename_i hv
      exact (cellsFrom_cons ..).2 ⟨h, hv, rfl⟩
  | (k, b) :: m, lo, a, h, hm => by
    have hm' := (cellsFrom_cons ..).1 hm
    rw [cellWrite]
    split
    · split
      · exact hm
      · rename_i h1 h2
        exact (cellsFrom_cons ..).2 ⟨h, h2, (cellsFrom_cons ..).2 ⟨h1, hm'.2⟩⟩
    · split
      · split
        · exact cellsFrom_mono (by omega) m hm'.2.2
        · rename_i h2 h3
          subst h2
          exact (cellsFrom_cons ..).2 ⟨h, h3, hm'.2.2⟩
      · exact (cellsFrom_cons ..).2 ⟨hm'.1, hm'.2.1, cellWrite_from v m (k + 1) a (by omega) hm'.2.2⟩

theorem cellWrite_wf (m : List Host.Cell) (a : Nat) (v : Byte) (h : Memory.wf d m = true) :
    Memory.wf d (cellWrite d m a v) = true := cellWrite_from v m 0 a (Nat.zero_le a) h

theorem cellsWrite_wf : ∀ (vs : List Byte) (m : List Host.Cell) (a : Nat), Memory.wf d m = true →
    Memory.wf d (cellsWrite d m a vs) = true
  | [], _, _, h => h
  | v :: vs, m, a, h => by
    simp only [cellsWrite]
    refine cellsWrite_wf vs _ _ ?_
    split
    · exact cellWrite_wf m a v h
    · exact h

theorem cellRead_below : ∀ (m : List Host.Cell) (lo a : Nat), cellsFrom d lo m = true → a < lo → cellRead d m a = d a
  | [], _, _, _, _ => rfl
  | (k, _) :: m, lo, a, hm, ha => by
    have hm' := (cellsFrom_cons ..).1 hm
    rw [cellRead, if_neg (by omega)]
    exact cellRead_below m (k + 1) a hm'.2.2 (by omega)

/-- What one byte reads after one write. -/
theorem cellRead_write (v : Byte) : ∀ (m : List Host.Cell) (lo a b : Nat), cellsFrom d lo m = true →
    cellRead d (cellWrite d m a v) b = if b = a then v else cellRead d m b
  | [], _, a, b, _ => by
    rw [cellWrite]
    split
    · rename_i hv
      split
      · rename_i hb
        rw [cellRead, hb, hv]
      · rfl
    · by_cases hb : b = a
      · rw [if_pos hb, cellRead, if_pos hb.symm]
      · rw [if_neg hb]
        simp only [cellRead, if_neg (Ne.symm hb)]
  | (k, c) :: m, lo, a, b, hm => by
    have hm' := (cellsFrom_cons ..).1 hm
    rw [cellWrite]
    by_cases hb : b = a
    · subst hb
      rw [if_pos rfl]
      split
      · split
        · rename_i h1 hv
          rw [cellRead, if_neg (by omega), cellRead_below m (k + 1) b hm'.2.2 (by omega), hv]
        · rw [cellRead, if_pos rfl]
      · split
        · rename_i _ h2
          subst h2
          split
          · rename_i hv
            rw [cellRead_below m (b + 1) b hm'.2.2 (by omega), hv]
          · rw [cellRead, if_pos rfl]
        · rename_i _ h2
          rw [cellRead, if_neg (fun h => h2 h.symm), cellRead_write v m (k + 1) b b hm'.2.2, if_pos rfl]
    · rw [if_neg hb]
      split
      · split
        · rfl
        · rw [cellRead, if_neg (Ne.symm hb)]
      · split
        · rename_i _ h2
          subst h2
          split
          · conv_rhs => rw [cellRead, if_neg (Ne.symm hb)]
          · rw [cellRead, if_neg (Ne.symm hb), cellRead, if_neg (Ne.symm hb)]
        · rw [cellRead, cellRead, cellRead_write v m (k + 1) a b hm'.2.2, if_neg hb]

theorem Basin.write_wf (b : Basin) (a : Nat) (vs : List Byte) (h : b.wf = true) : (b.write a vs).wf = true :=
  cellsWrite_wf vs b.mem a h

theorem basinWrite_wf (s : State) (a : Nat) (vs : List Byte) (h : s.basin.wf = true) :
    (basinWrite a vs s).basin.wf = true := cellsWrite_wf vs s.basin.mem a h

theorem poundWrite_wf (s : State) (n off : Nat) (vs : List Byte) (h : s.basin.wf = true) :
    (poundWrite n off vs s).basin.wf = true := basinWrite_wf s _ _ h

theorem wordLost_wf (s : State) (a : Nat) (h : s.basin.wf = true) : (wordLost a s).basin.wf = true :=
  cellsWrite_wf _ s.basin.mem a h

/-- Cells of a canonical memory left out, and another reading of unlisted addresses that agrees on those kept. -/
theorem cellsFrom_filter {d' : Nat → Byte} (p : Host.Cell → Bool) (hd : ∀ k b, p (k, b) = true → d' k = d k) :
    ∀ (m : List Host.Cell) (lo : Nat), cellsFrom d lo m = true → cellsFrom d' lo (m.filter p) = true
  | [], _, _ => rfl
  | (k, b) :: m, lo, h => by
    have h' := (cellsFrom_cons ..).1 h
    have ih := cellsFrom_filter p hd m (k + 1) h'.2.2
    rw [List.filter_cons]
    split
    · rename_i hp
      exact (cellsFrom_cons ..).2 ⟨h'.1, hd k b hp ▸ h'.2.1, ih⟩
    · exact cellsFrom_mono (by omega) _ ih

/-- What a bank's addresses read as unlisted is not changed by what is said of other banks. -/
theorem unlisted_filter (l : List (Nat × Nat)) (p : Nat → Bool) (seed k : Nat) (off : List Nat) (hk : p k = true)
    (ho : k ∉ off) :
    ((l.filter fun x => p x.1) ++ off.map fun i => (i, seed)).find? (fun x => x.1 == k) = l.find? fun x => x.1 == k := by
  induction l with
  | nil =>
    simp only [List.filter_nil, List.nil_append, List.find?_nil, List.find?_eq_none]
    intro x hx h
    obtain ⟨i, hi, rfl⟩ := List.mem_map.1 hx
    exact ho (beq_iff_eq.1 h ▸ hi)
  | cons x l ih =>
    by_cases hx : x.1 = k
    · simp [hx, hk]
    · by_cases hp : p x.1 = true
      · simpa [List.filter_cons, hp, hx] using ih
      · simpa [List.filter_cons, hp, hx] using ih

/-- Banks of the Basin that are switched off leave it in canonical form. -/
theorem banksOff_wf (s : State) (h : s.basin.wf = true) : (banksOff s).basin.wf = true := by
  refine cellsFrom_filter _ ?_ s.basin.mem 0 h
  intro k b hk
  have ho : basinBank k ∉ (List.range 16).filter fun k => !bankKept s k := by
    intro hm
    rw [List.contains_iff_mem.2 hm] at hk
    cases hk
  exact congrArg (fun o : Option (Nat × Nat) => match o with | none => 0 | some x => Config.bankByte x.2 k)
    (unlisted_filter s.basin.off (fun i => !((List.range 16).filter fun k => !bankKept s k).contains i) s.free
      (basinBank k) _ hk ho)

theorem reset_wf : State.reset.basin.wf = true := rfl

end Sys2Proof.Machine
end

