-- ==== Sys2Proof/Laws/State.lean ====
section
/-! SUPPORT. What the selected updates leave: an update of one port, one tenant, one lane, one lease, one SAM
interface or one chain's capture, towpath lane or radio changes that unit's field and no other. `simps` in
Machine/Update.lean states the same of the plain updates, one lemma for each field. -/

namespace Sys2Proof.Machine

open Sys2Proof

@[simp] theorem onPort_pending (p : Port) (f : PortSt → PortSt) (s : State) : (onPort p f s).pending = s.pending := by cases p <;> rfl
@[simp] theorem onPort_time (p : Port) (f : PortSt → PortSt) (s : State) : (onPort p f s).time = s.time := by cases p <;> rfl
@[simp] theorem onPort_pwr (p : Port) (f : PortSt → PortSt) (s : State) : (onPort p f s).pwr = s.pwr := by cases p <;> rfl
@[simp] theorem onPort_aon (p : Port) (f : PortSt → PortSt) (s : State) : (onPort p f s).aon = s.aon := by cases p <;> rfl
@[simp] theorem onPort_clk (p : Port) (f : PortSt → PortSt) (s : State) : (onPort p f s).clk = s.clk := by cases p <;> rfl
@[simp] theorem onPort_nv (p : Port) (f : PortSt → PortSt) (s : State) : (onPort p f s).nv = s.nv := by cases p <;> rfl
@[simp] theorem onPort_fw (p : Port) (f : PortSt → PortSt) (s : State) : (onPort p f s).fw = s.fw := by cases p <;> rfl
@[simp] theorem onPort_basin (p : Port) (f : PortSt → PortSt) (s : State) : (onPort p f s).basin = s.basin := by cases p <;> rfl
@[simp] theorem onPort_pt (p : Port) (f : PortSt → PortSt) (s : State) : (onPort p f s).pt = s.pt := by cases p <;> rfl
@[simp] theorem onPort_tenants (p : Port) (f : PortSt → PortSt) (s : State) : (onPort p f s).tenants = s.tenants := by cases p <;> rfl
@[simp] theorem onPort_hfLease (p : Port) (f : PortSt → PortSt) (s : State) : (onPort p f s).hfLease = s.hfLease := by cases p <;> rfl
@[simp] theorem onPort_uhfLease (p : Port) (f : PortSt → PortSt) (s : State) : (onPort p f s).uhfLease = s.uhfLease := by cases p <;> rfl
@[simp] theorem onPort_queue (p : Port) (f : PortSt → PortSt) (s : State) : (onPort p f s).queue = s.queue := by cases p <;> rfl
@[simp] theorem onPort_packets (p : Port) (f : PortSt → PortSt) (s : State) : (onPort p f s).packets = s.packets := by cases p <;> rfl
@[simp] theorem onPort_visit (p : Port) (f : PortSt → PortSt) (s : State) : (onPort p f s).visit = s.visit := by cases p <;> rfl
@[simp] theorem onPort_hfLane (p : Port) (f : PortSt → PortSt) (s : State) : (onPort p f s).hfLane = s.hfLane := by cases p <;> rfl
@[simp] theorem onPort_uhfLane (p : Port) (f : PortSt → PortSt) (s : State) : (onPort p f s).uhfLane = s.uhfLane := by cases p <;> rfl
@[simp] theorem onPort_houseLane (p : Port) (f : PortSt → PortSt) (s : State) : (onPort p f s).houseLane = s.houseLane := by cases p <;> rfl
@[simp] theorem onPort_lock (p : Port) (f : PortSt → PortSt) (s : State) : (onPort p f s).lock = s.lock := by cases p <;> rfl
@[simp] theorem onPort_withdrawn (p : Port) (f : PortSt → PortSt) (s : State) : (onPort p f s).withdrawn = s.withdrawn := by cases p <;> rfl
@[simp] theorem onPort_cfg (p : Port) (f : PortSt → PortSt) (s : State) : (onPort p f s).cfg = s.cfg := by cases p <;> rfl
@[simp] theorem onPort_ic (p : Port) (f : PortSt → PortSt) (s : State) : (onPort p f s).ic = s.ic := by cases p <;> rfl
@[simp] theorem onPort_fab (p : Port) (f : PortSt → PortSt) (s : State) : (onPort p f s).fab = s.fab := by cases p <;> rfl
@[simp] theorem onPort_fence (p : Port) (f : PortSt → PortSt) (s : State) : (onPort p f s).fence = s.fence := by cases p <;> rfl
@[simp] theorem onPort_ctr (p : Port) (f : PortSt → PortSt) (s : State) : (onPort p f s).ctr = s.ctr := by cases p <;> rfl
@[simp] theorem onPort_contain (p : Port) (f : PortSt → PortSt) (s : State) : (onPort p f s).contain = s.contain := by cases p <;> rfl
@[simp] theorem onPort_hf (p : Port) (f : PortSt → PortSt) (s : State) : (onPort p f s).hf = s.hf := by cases p <;> rfl
@[simp] theorem onPort_uhf (p : Port) (f : PortSt → PortSt) (s : State) : (onPort p f s).uhf = s.uhf := by cases p <;> rfl
@[simp] theorem onPort_spec (p : Port) (f : PortSt → PortSt) (s : State) : (onPort p f s).spec = s.spec := by cases p <;> rfl
@[simp] theorem onPort_chr (p : Port) (f : PortSt → PortSt) (s : State) : (onPort p f s).chr = s.chr := by cases p <;> rfl
@[simp] theorem onPort_capHf (p : Port) (f : PortSt → PortSt) (s : State) : (onPort p f s).capHf = s.capHf := by cases p <;> rfl
@[simp] theorem onPort_capUhf (p : Port) (f : PortSt → PortSt) (s : State) : (onPort p f s).capUhf = s.capUhf := by cases p <;> rfl
@[simp] theorem onPort_cal (p : Port) (f : PortSt → PortSt) (s : State) : (onPort p f s).cal = s.cal := by cases p <;> rfl
@[simp] theorem onPort_tow (p : Port) (f : PortSt → PortSt) (s : State) : (onPort p f s).tow = s.tow := by cases p <;> rfl
@[simp] theorem onPort_rng (p : Port) (f : PortSt → PortSt) (s : State) : (onPort p f s).rng = s.rng := by cases p <;> rfl
@[simp] theorem onPort_keyUsed (p : Port) (f : PortSt → PortSt) (s : State) : (onPort p f s).keyUsed = s.keyUsed := by cases p <;> rfl
@[simp] theorem onPort_emu (p : Port) (f : PortSt → PortSt) (s : State) : (onPort p f s).emu = s.emu := by cases p <;> rfl
@[simp] theorem onPort_peer (p : Port) (f : PortSt → PortSt) (s : State) : (onPort p f s).peer = s.peer := by cases p <;> rfl
@[simp] theorem onPort_sam0 (p : Port) (f : PortSt → PortSt) (s : State) : (onPort p f s).sam0 = s.sam0 := by cases p <;> rfl
@[simp] theorem onPort_sam1 (p : Port) (f : PortSt → PortSt) (s : State) : (onPort p f s).sam1 = s.sam1 := by cases p <;> rfl
@[simp] theorem onPort_gpio (p : Port) (f : PortSt → PortSt) (s : State) : (onPort p f s).gpio = s.gpio := by cases p <;> rfl
@[simp] theorem onPort_pins (p : Port) (f : PortSt → PortSt) (s : State) : (onPort p f s).pins = s.pins := by cases p <;> rfl
@[simp] theorem onPort_therm (p : Port) (f : PortSt → PortSt) (s : State) : (onPort p f s).therm = s.therm := by cases p <;> rfl
@[simp] theorem onPort_free (p : Port) (f : PortSt → PortSt) (s : State) : (onPort p f s).free = s.free := by cases p <;> rfl

@[simp] theorem onTenant_pending (n : Nat) (f : Tenant → Tenant) (s : State) : (onTenant n f s).pending = s.pending := rfl
@[simp] theorem onTenant_time (n : Nat) (f : Tenant → Tenant) (s : State) : (onTenant n f s).time = s.time := rfl
@[simp] theorem onTenant_pwr (n : Nat) (f : Tenant → Tenant) (s : State) : (onTenant n f s).pwr = s.pwr := rfl
@[simp] theorem onTenant_aon (n : Nat) (f : Tenant → Tenant) (s : State) : (onTenant n f s).aon = s.aon := rfl
@[simp] theorem onTenant_clk (n : Nat) (f : Tenant → Tenant) (s : State) : (onTenant n f s).clk = s.clk := rfl
@[simp] theorem onTenant_nv (n : Nat) (f : Tenant → Tenant) (s : State) : (onTenant n f s).nv = s.nv := rfl
@[simp] theorem onTenant_fw (n : Nat) (f : Tenant → Tenant) (s : State) : (onTenant n f s).fw = s.fw := rfl
@[simp] theorem onTenant_portA (n : Nat) (f : Tenant → Tenant) (s : State) : (onTenant n f s).portA = s.portA := rfl
@[simp] theorem onTenant_portB (n : Nat) (f : Tenant → Tenant) (s : State) : (onTenant n f s).portB = s.portB := rfl
@[simp] theorem onTenant_basin (n : Nat) (f : Tenant → Tenant) (s : State) : (onTenant n f s).basin = s.basin := rfl
@[simp] theorem onTenant_pt (n : Nat) (f : Tenant → Tenant) (s : State) : (onTenant n f s).pt = s.pt := rfl
@[simp] theorem onTenant_hfLease (n : Nat) (f : Tenant → Tenant) (s : State) : (onTenant n f s).hfLease = s.hfLease := rfl
@[simp] theorem onTenant_uhfLease (n : Nat) (f : Tenant → Tenant) (s : State) : (onTenant n f s).uhfLease = s.uhfLease := rfl
@[simp] theorem onTenant_queue (n : Nat) (f : Tenant → Tenant) (s : State) : (onTenant n f s).queue = s.queue := rfl
@[simp] theorem onTenant_packets (n : Nat) (f : Tenant → Tenant) (s : State) : (onTenant n f s).packets = s.packets := rfl
@[simp] theorem onTenant_visit (n : Nat) (f : Tenant → Tenant) (s : State) : (onTenant n f s).visit = s.visit := rfl
@[simp] theorem onTenant_hfLane (n : Nat) (f : Tenant → Tenant) (s : State) : (onTenant n f s).hfLane = s.hfLane := rfl
@[simp] theorem onTenant_uhfLane (n : Nat) (f : Tenant → Tenant) (s : State) : (onTenant n f s).uhfLane = s.uhfLane := rfl
@[simp] theorem onTenant_houseLane (n : Nat) (f : Tenant → Tenant) (s : State) : (onTenant n f s).houseLane = s.houseLane := rfl
@[simp] theorem onTenant_lock (n : Nat) (f : Tenant → Tenant) (s : State) : (onTenant n f s).lock = s.lock := rfl
@[simp] theorem onTenant_withdrawn (n : Nat) (f : Tenant → Tenant) (s : State) : (onTenant n f s).withdrawn = s.withdrawn := rfl
@[simp] theorem onTenant_cfg (n : Nat) (f : Tenant → Tenant) (s : State) : (onTenant n f s).cfg = s.cfg := rfl
@[simp] theorem onTenant_ic (n : Nat) (f : Tenant → Tenant) (s : State) : (onTenant n f s).ic = s.ic := rfl
@[simp] theorem onTenant_fab (n : Nat) (f : Tenant → Tenant) (s : State) : (onTenant n f s).fab = s.fab := rfl
@[simp] theorem onTenant_fence (n : Nat) (f : Tenant → Tenant) (s : State) : (onTenant n f s).fence = s.fence := rfl
@[simp] theorem onTenant_ctr (n : Nat) (f : Tenant → Tenant) (s : State) : (onTenant n f s).ctr = s.ctr := rfl
@[simp] theorem onTenant_contain (n : Nat) (f : Tenant → Tenant) (s : State) : (onTenant n f s).contain = s.contain := rfl
@[simp] theorem onTenant_hf (n : Nat) (f : Tenant → Tenant) (s : State) : (onTenant n f s).hf = s.hf := rfl
@[simp] theorem onTenant_uhf (n : Nat) (f : Tenant → Tenant) (s : State) : (onTenant n f s).uhf = s.uhf := rfl
@[simp] theorem onTenant_spec (n : Nat) (f : Tenant → Tenant) (s : State) : (onTenant n f s).spec = s.spec := rfl
@[simp] theorem onTenant_chr (n : Nat) (f : Tenant → Tenant) (s : State) : (onTenant n f s).chr = s.chr := rfl
@[simp] theorem onTenant_capHf (n : Nat) (f : Tenant → Tenant) (s : State) : (onTenant n f s).capHf = s.capHf := rfl
@[simp] theorem onTenant_capUhf (n : Nat) (f : Tenant → Tenant) (s : State) : (onTenant n f s).capUhf = s.capUhf := rfl
@[simp] theorem onTenant_cal (n : Nat) (f : Tenant → Tenant) (s : State) : (onTenant n f s).cal = s.cal := rfl
@[simp] theorem onTenant_tow (n : Nat) (f : Tenant → Tenant) (s : State) : (onTenant n f s).tow = s.tow := rfl
@[simp] theorem onTenant_rng (n : Nat) (f : Tenant → Tenant) (s : State) : (onTenant n f s).rng = s.rng := rfl
@[simp] theorem onTenant_keyUsed (n : Nat) (f : Tenant → Tenant) (s : State) : (onTenant n f s).keyUsed = s.keyUsed := rfl
@[simp] theorem onTenant_emu (n : Nat) (f : Tenant → Tenant) (s : State) : (onTenant n f s).emu = s.emu := rfl
@[simp] theorem onTenant_peer (n : Nat) (f : Tenant → Tenant) (s : State) : (onTenant n f s).peer = s.peer := rfl
@[simp] theorem onTenant_sam0 (n : Nat) (f : Tenant → Tenant) (s : State) : (onTenant n f s).sam0 = s.sam0 := rfl
@[simp] theorem onTenant_sam1 (n : Nat) (f : Tenant → Tenant) (s : State) : (onTenant n f s).sam1 = s.sam1 := rfl
@[simp] theorem onTenant_gpio (n : Nat) (f : Tenant → Tenant) (s : State) : (onTenant n f s).gpio = s.gpio := rfl
@[simp] theorem onTenant_pins (n : Nat) (f : Tenant → Tenant) (s : State) : (onTenant n f s).pins = s.pins := rfl
@[simp] theorem onTenant_therm (n : Nat) (f : Tenant → Tenant) (s : State) : (onTenant n f s).therm = s.therm := rfl
@[simp] theorem onTenant_free (n : Nat) (f : Tenant → Tenant) (s : State) : (onTenant n f s).free = s.free := rfl

@[simp] theorem onLane_pending (l : LaneId) (f : Lane → Lane) (s : State) : (onLane l f s).pending = s.pending := by cases l <;> rfl
@[simp] theorem onLane_time (l : LaneId) (f : Lane → Lane) (s : State) : (onLane l f s).time = s.time := by cases l <;> rfl
@[simp] theorem onLane_pwr (l : LaneId) (f : Lane → Lane) (s : State) : (onLane l f s).pwr = s.pwr := by cases l <;> rfl
@[simp] theorem onLane_aon (l : LaneId) (f : Lane → Lane) (s : State) : (onLane l f s).aon = s.aon := by cases l <;> rfl
@[simp] theorem onLane_clk (l : LaneId) (f : Lane → Lane) (s : State) : (onLane l f s).clk = s.clk := by cases l <;> rfl
@[simp] theorem onLane_nv (l : LaneId) (f : Lane → Lane) (s : State) : (onLane l f s).nv = s.nv := by cases l <;> rfl
@[simp] theorem onLane_fw (l : LaneId) (f : Lane → Lane) (s : State) : (onLane l f s).fw = s.fw := by cases l <;> rfl
@[simp] theorem onLane_portA (l : LaneId) (f : Lane → Lane) (s : State) : (onLane l f s).portA = s.portA := by cases l <;> rfl
@[simp] theorem onLane_portB (l : LaneId) (f : Lane → Lane) (s : State) : (onLane l f s).portB = s.portB := by cases l <;> rfl
@[simp] theorem onLane_basin (l : LaneId) (f : Lane → Lane) (s : State) : (onLane l f s).basin = s.basin := by cases l <;> rfl
@[simp] theorem onLane_pt (l : LaneId) (f : Lane → Lane) (s : State) : (onLane l f s).pt = s.pt := by cases l <;> rfl
@[simp] theorem onLane_tenants (l : LaneId) (f : Lane → Lane) (s : State) : (onLane l f s).tenants = s.tenants := by cases l <;> rfl
@[simp] theorem onLane_hfLease (l : LaneId) (f : Lane → Lane) (s : State) : (onLane l f s).hfLease = s.hfLease := by cases l <;> rfl
@[simp] theorem onLane_uhfLease (l : LaneId) (f : Lane → Lane) (s : State) : (onLane l f s).uhfLease = s.uhfLease := by cases l <;> rfl
@[simp] theorem onLane_queue (l : LaneId) (f : Lane → Lane) (s : State) : (onLane l f s).queue = s.queue := by cases l <;> rfl
@[simp] theorem onLane_packets (l : LaneId) (f : Lane → Lane) (s : State) : (onLane l f s).packets = s.packets := by cases l <;> rfl
@[simp] theorem onLane_visit (l : LaneId) (f : Lane → Lane) (s : State) : (onLane l f s).visit = s.visit := by cases l <;> rfl
@[simp] theorem onLane_lock (l : LaneId) (f : Lane → Lane) (s : State) : (onLane l f s).lock = s.lock := by cases l <;> rfl
@[simp] theorem onLane_withdrawn (l : LaneId) (f : Lane → Lane) (s : State) : (onLane l f s).withdrawn = s.withdrawn := by cases l <;> rfl
@[simp] theorem onLane_cfg (l : LaneId) (f : Lane → Lane) (s : State) : (onLane l f s).cfg = s.cfg := by cases l <;> rfl
@[simp] theorem onLane_ic (l : LaneId) (f : Lane → Lane) (s : State) : (onLane l f s).ic = s.ic := by cases l <;> rfl
@[simp] theorem onLane_fab (l : LaneId) (f : Lane → Lane) (s : State) : (onLane l f s).fab = s.fab := by cases l <;> rfl
@[simp] theorem onLane_fence (l : LaneId) (f : Lane → Lane) (s : State) : (onLane l f s).fence = s.fence := by cases l <;> rfl
@[simp] theorem onLane_ctr (l : LaneId) (f : Lane → Lane) (s : State) : (onLane l f s).ctr = s.ctr := by cases l <;> rfl
@[simp] theorem onLane_contain (l : LaneId) (f : Lane → Lane) (s : State) : (onLane l f s).contain = s.contain := by cases l <;> rfl
@[simp] theorem onLane_hf (l : LaneId) (f : Lane → Lane) (s : State) : (onLane l f s).hf = s.hf := by cases l <;> rfl
@[simp] theorem onLane_uhf (l : LaneId) (f : Lane → Lane) (s : State) : (onLane l f s).uhf = s.uhf := by cases l <;> rfl
@[simp] theorem onLane_spec (l : LaneId) (f : Lane → Lane) (s : State) : (onLane l f s).spec = s.spec := by cases l <;> rfl
@[simp] theorem onLane_chr (l : LaneId) (f : Lane → Lane) (s : State) : (onLane l f s).chr = s.chr := by cases l <;> rfl
@[simp] theorem onLane_capHf (l : LaneId) (f : Lane → Lane) (s : State) : (onLane l f s).capHf = s.capHf := by cases l <;> rfl
@[simp] theorem onLane_capUhf (l : LaneId) (f : Lane → Lane) (s : State) : (onLane l f s).capUhf = s.capUhf := by cases l <;> rfl
@[simp] theorem onLane_cal (l : LaneId) (f : Lane → Lane) (s : State) : (onLane l f s).cal = s.cal := by cases l <;> rfl
@[simp] theorem onLane_tow (l : LaneId) (f : Lane → Lane) (s : State) : (onLane l f s).tow = s.tow := by cases l <;> rfl
@[simp] theorem onLane_rng (l : LaneId) (f : Lane → Lane) (s : State) : (onLane l f s).rng = s.rng := by cases l <;> rfl
@[simp] theorem onLane_keyUsed (l : LaneId) (f : Lane → Lane) (s : State) : (onLane l f s).keyUsed = s.keyUsed := by cases l <;> rfl
@[simp] theorem onLane_emu (l : LaneId) (f : Lane → Lane) (s : State) : (onLane l f s).emu = s.emu := by cases l <;> rfl
@[simp] theorem onLane_peer (l : LaneId) (f : Lane → Lane) (s : State) : (onLane l f s).peer = s.peer := by cases l <;> rfl
@[simp] theorem onLane_sam0 (l : LaneId) (f : Lane → Lane) (s : State) : (onLane l f s).sam0 = s.sam0 := by cases l <;> rfl
@[simp] theorem onLane_sam1 (l : LaneId) (f : Lane → Lane) (s : State) : (onLane l f s).sam1 = s.sam1 := by cases l <;> rfl
@[simp] theorem onLane_gpio (l : LaneId) (f : Lane → Lane) (s : State) : (onLane l f s).gpio = s.gpio := by cases l <;> rfl
@[simp] theorem onLane_pins (l : LaneId) (f : Lane → Lane) (s : State) : (onLane l f s).pins = s.pins := by cases l <;> rfl
@[simp] theorem onLane_therm (l : LaneId) (f : Lane → Lane) (s : State) : (onLane l f s).therm = s.therm := by cases l <;> rfl
@[simp] theorem onLane_free (l : LaneId) (f : Lane → Lane) (s : State) : (onLane l f s).free = s.free := by cases l <;> rfl

@[simp] theorem onExec_pending (l : LaneId) (f : Exec → Exec) (s : State) : (onExec l f s).pending = s.pending := by cases l <;> rfl
@[simp] theorem onExec_time (l : LaneId) (f : Exec → Exec) (s : State) : (onExec l f s).time = s.time := by cases l <;> rfl
@[simp] theorem onExec_pwr (l : LaneId) (f : Exec → Exec) (s : State) : (onExec l f s).pwr = s.pwr := by cases l <;> rfl
@[simp] theorem onExec_aon (l : LaneId) (f : Exec → Exec) (s : State) : (onExec l f s).aon = s.aon := by cases l <;> rfl
@[simp] theorem onExec_clk (l : LaneId) (f : Exec → Exec) (s : State) : (onExec l f s).clk = s.clk := by cases l <;> rfl
@[simp] theorem onExec_nv (l : LaneId) (f : Exec → Exec) (s : State) : (onExec l f s).nv = s.nv := by cases l <;> rfl
@[simp] theorem onExec_fw (l : LaneId) (f : Exec → Exec) (s : State) : (onExec l f s).fw = s.fw := by cases l <;> rfl
@[simp] theorem onExec_portA (l : LaneId) (f : Exec → Exec) (s : State) : (onExec l f s).portA = s.portA := by cases l <;> rfl
@[simp] theorem onExec_portB (l : LaneId) (f : Exec → Exec) (s : State) : (onExec l f s).portB = s.portB := by cases l <;> rfl
@[simp] theorem onExec_basin (l : LaneId) (f : Exec → Exec) (s : State) : (onExec l f s).basin = s.basin := by cases l <;> rfl
@[simp] theorem onExec_pt (l : LaneId) (f : Exec → Exec) (s : State) : (onExec l f s).pt = s.pt := by cases l <;> rfl
@[simp] theorem onExec_tenants (l : LaneId) (f : Exec → Exec) (s : State) : (onExec l f s).tenants = s.tenants := by cases l <;> rfl
@[simp] theorem onExec_hfLease (l : LaneId) (f : Exec → Exec) (s : State) : (onExec l f s).hfLease = s.hfLease := by cases l <;> rfl
@[simp] theorem onExec_uhfLease (l : LaneId) (f : Exec → Exec) (s : State) : (onExec l f s).uhfLease = s.uhfLease := by cases l <;> rfl
@[simp] theorem onExec_queue (l : LaneId) (f : Exec → Exec) (s : State) : (onExec l f s).queue = s.queue := by cases l <;> rfl
@[simp] theorem onExec_packets (l : LaneId) (f : Exec → Exec) (s : State) : (onExec l f s).packets = s.packets := by cases l <;> rfl
@[simp] theorem onExec_visit (l : LaneId) (f : Exec → Exec) (s : State) : (onExec l f s).visit = s.visit := by cases l <;> rfl
@[simp] theorem onExec_lock (l : LaneId) (f : Exec → Exec) (s : State) : (onExec l f s).lock = s.lock := by cases l <;> rfl
@[simp] theorem onExec_withdrawn (l : LaneId) (f : Exec → Exec) (s : State) : (onExec l f s).withdrawn = s.withdrawn := by cases l <;> rfl
@[simp] theorem onExec_cfg (l : LaneId) (f : Exec → Exec) (s : State) : (onExec l f s).cfg = s.cfg := by cases l <;> rfl
@[simp] theorem onExec_ic (l : LaneId) (f : Exec → Exec) (s : State) : (onExec l f s).ic = s.ic := by cases l <;> rfl
@[simp] theorem onExec_fab (l : LaneId) (f : Exec → Exec) (s : State) : (onExec l f s).fab = s.fab := by cases l <;> rfl
@[simp] theorem onExec_fence (l : LaneId) (f : Exec → Exec) (s : State) : (onExec l f s).fence = s.fence := by cases l <;> rfl
@[simp] theorem onExec_ctr (l : LaneId) (f : Exec → Exec) (s : State) : (onExec l f s).ctr = s.ctr := by cases l <;> rfl
@[simp] theorem onExec_contain (l : LaneId) (f : Exec → Exec) (s : State) : (onExec l f s).contain = s.contain := by cases l <;> rfl
@[simp] theorem onExec_hf (l : LaneId) (f : Exec → Exec) (s : State) : (onExec l f s).hf = s.hf := by cases l <;> rfl
@[simp] theorem onExec_uhf (l : LaneId) (f : Exec → Exec) (s : State) : (onExec l f s).uhf = s.uhf := by cases l <;> rfl
@[simp] theorem onExec_spec (l : LaneId) (f : Exec → Exec) (s : State) : (onExec l f s).spec = s.spec := by cases l <;> rfl
@[simp] theorem onExec_chr (l : LaneId) (f : Exec → Exec) (s : State) : (onExec l f s).chr = s.chr := by cases l <;> rfl
@[simp] theorem onExec_capHf (l : LaneId) (f : Exec → Exec) (s : State) : (onExec l f s).capHf = s.capHf := by cases l <;> rfl
@[simp] theorem onExec_capUhf (l : LaneId) (f : Exec → Exec) (s : State) : (onExec l f s).capUhf = s.capUhf := by cases l <;> rfl
@[simp] theorem onExec_cal (l : LaneId) (f : Exec → Exec) (s : State) : (onExec l f s).cal = s.cal := by cases l <;> rfl
@[simp] theorem onExec_tow (l : LaneId) (f : Exec → Exec) (s : State) : (onExec l f s).tow = s.tow := by cases l <;> rfl
@[simp] theorem onExec_rng (l : LaneId) (f : Exec → Exec) (s : State) : (onExec l f s).rng = s.rng := by cases l <;> rfl
@[simp] theorem onExec_keyUsed (l : LaneId) (f : Exec → Exec) (s : State) : (onExec l f s).keyUsed = s.keyUsed := by cases l <;> rfl
@[simp] theorem onExec_emu (l : LaneId) (f : Exec → Exec) (s : State) : (onExec l f s).emu = s.emu := by cases l <;> rfl
@[simp] theorem onExec_peer (l : LaneId) (f : Exec → Exec) (s : State) : (onExec l f s).peer = s.peer := by cases l <;> rfl
@[simp] theorem onExec_sam0 (l : LaneId) (f : Exec → Exec) (s : State) : (onExec l f s).sam0 = s.sam0 := by cases l <;> rfl
@[simp] theorem onExec_sam1 (l : LaneId) (f : Exec → Exec) (s : State) : (onExec l f s).sam1 = s.sam1 := by cases l <;> rfl
@[simp] theorem onExec_gpio (l : LaneId) (f : Exec → Exec) (s : State) : (onExec l f s).gpio = s.gpio := by cases l <;> rfl
@[simp] theorem onExec_pins (l : LaneId) (f : Exec → Exec) (s : State) : (onExec l f s).pins = s.pins := by cases l <;> rfl
@[simp] theorem onExec_therm (l : LaneId) (f : Exec → Exec) (s : State) : (onExec l f s).therm = s.therm := by cases l <;> rfl
@[simp] theorem onExec_free (l : LaneId) (f : Exec → Exec) (s : State) : (onExec l f s).free = s.free := by cases l <;> rfl

@[simp] theorem onLease_pending (c : Chain) (f : Lease → Lease) (s : State) : (onLease c f s).pending = s.pending := by cases c <;> rfl
@[simp] theorem onLease_time (c : Chain) (f : Lease → Lease) (s : State) : (onLease c f s).time = s.time := by cases c <;> rfl
@[simp] theorem onLease_pwr (c : Chain) (f : Lease → Lease) (s : State) : (onLease c f s).pwr = s.pwr := by cases c <;> rfl
@[simp] theorem onLease_aon (c : Chain) (f : Lease → Lease) (s : State) : (onLease c f s).aon = s.aon := by cases c <;> rfl
@[simp] theorem onLease_clk (c : Chain) (f : Lease → Lease) (s : State) : (onLease c f s).clk = s.clk := by cases c <;> rfl
@[simp] theorem onLease_nv (c : Chain) (f : Lease → Lease) (s : State) : (onLease c f s).nv = s.nv := by cases c <;> rfl
@[simp] theorem onLease_fw (c : Chain) (f : Lease → Lease) (s : State) : (onLease c f s).fw = s.fw := by cases c <;> rfl
@[simp] theorem onLease_portA (c : Chain) (f : Lease → Lease) (s : State) : (onLease c f s).portA = s.portA := by cases c <;> rfl
@[simp] theorem onLease_portB (c : Chain) (f : Lease → Lease) (s : State) : (onLease c f s).portB = s.portB := by cases c <;> rfl
@[simp] theorem onLease_basin (c : Chain) (f : Lease → Lease) (s : State) : (onLease c f s).basin = s.basin := by cases c <;> rfl
@[simp] theorem onLease_pt (c : Chain) (f : Lease → Lease) (s : State) : (onLease c f s).pt = s.pt := by cases c <;> rfl
@[simp] theorem onLease_tenants (c : Chain) (f : Lease → Lease) (s : State) : (onLease c f s).tenants = s.tenants := by cases c <;> rfl
@[simp] theorem onLease_queue (c : Chain) (f : Lease → Lease) (s : State) : (onLease c f s).queue = s.queue := by cases c <;> rfl
@[simp] theorem onLease_packets (c : Chain) (f : Lease → Lease) (s : State) : (onLease c f s).packets = s.packets := by cases c <;> rfl
@[simp] theorem onLease_visit (c : Chain) (f : Lease → Lease) (s : State) : (onLease c f s).visit = s.visit := by cases c <;> rfl
@[simp] theorem onLease_hfLane (c : Chain) (f : Lease → Lease) (s : State) : (onLease c f s).hfLane = s.hfLane := by cases c <;> rfl
@[simp] theorem onLease_uhfLane (c : Chain) (f : Lease → Lease) (s : State) : (onLease c f s).uhfLane = s.uhfLane := by cases c <;> rfl
@[simp] theorem onLease_houseLane (c : Chain) (f : Lease → Lease) (s : State) : (onLease c f s).houseLane = s.houseLane := by cases c <;> rfl
@[simp] theorem onLease_lock (c : Chain) (f : Lease → Lease) (s : State) : (onLease c f s).lock = s.lock := by cases c <;> rfl
@[simp] theorem onLease_withdrawn (c : Chain) (f : Lease → Lease) (s : State) : (onLease c f s).withdrawn = s.withdrawn := by cases c <;> rfl
@[simp] theorem onLease_cfg (c : Chain) (f : Lease → Lease) (s : State) : (onLease c f s).cfg = s.cfg := by cases c <;> rfl
@[simp] theorem onLease_ic (c : Chain) (f : Lease → Lease) (s : State) : (onLease c f s).ic = s.ic := by cases c <;> rfl
@[simp] theorem onLease_fab (c : Chain) (f : Lease → Lease) (s : State) : (onLease c f s).fab = s.fab := by cases c <;> rfl
@[simp] theorem onLease_fence (c : Chain) (f : Lease → Lease) (s : State) : (onLease c f s).fence = s.fence := by cases c <;> rfl
@[simp] theorem onLease_ctr (c : Chain) (f : Lease → Lease) (s : State) : (onLease c f s).ctr = s.ctr := by cases c <;> rfl
@[simp] theorem onLease_contain (c : Chain) (f : Lease → Lease) (s : State) : (onLease c f s).contain = s.contain := by cases c <;> rfl
@[simp] theorem onLease_hf (c : Chain) (f : Lease → Lease) (s : State) : (onLease c f s).hf = s.hf := by cases c <;> rfl
@[simp] theorem onLease_uhf (c : Chain) (f : Lease → Lease) (s : State) : (onLease c f s).uhf = s.uhf := by cases c <;> rfl
@[simp] theorem onLease_spec (c : Chain) (f : Lease → Lease) (s : State) : (onLease c f s).spec = s.spec := by cases c <;> rfl
@[simp] theorem onLease_chr (c : Chain) (f : Lease → Lease) (s : State) : (onLease c f s).chr = s.chr := by cases c <;> rfl
@[simp] theorem onLease_capHf (c : Chain) (f : Lease → Lease) (s : State) : (onLease c f s).capHf = s.capHf := by cases c <;> rfl
@[simp] theorem onLease_capUhf (c : Chain) (f : Lease → Lease) (s : State) : (onLease c f s).capUhf = s.capUhf := by cases c <;> rfl
@[simp] theorem onLease_cal (c : Chain) (f : Lease → Lease) (s : State) : (onLease c f s).cal = s.cal := by cases c <;> rfl
@[simp] theorem onLease_tow (c : Chain) (f : Lease → Lease) (s : State) : (onLease c f s).tow = s.tow := by cases c <;> rfl
@[simp] theorem onLease_rng (c : Chain) (f : Lease → Lease) (s : State) : (onLease c f s).rng = s.rng := by cases c <;> rfl
@[simp] theorem onLease_keyUsed (c : Chain) (f : Lease → Lease) (s : State) : (onLease c f s).keyUsed = s.keyUsed := by cases c <;> rfl
@[simp] theorem onLease_emu (c : Chain) (f : Lease → Lease) (s : State) : (onLease c f s).emu = s.emu := by cases c <;> rfl
@[simp] theorem onLease_peer (c : Chain) (f : Lease → Lease) (s : State) : (onLease c f s).peer = s.peer := by cases c <;> rfl
@[simp] theorem onLease_sam0 (c : Chain) (f : Lease → Lease) (s : State) : (onLease c f s).sam0 = s.sam0 := by cases c <;> rfl
@[simp] theorem onLease_sam1 (c : Chain) (f : Lease → Lease) (s : State) : (onLease c f s).sam1 = s.sam1 := by cases c <;> rfl
@[simp] theorem onLease_gpio (c : Chain) (f : Lease → Lease) (s : State) : (onLease c f s).gpio = s.gpio := by cases c <;> rfl
@[simp] theorem onLease_pins (c : Chain) (f : Lease → Lease) (s : State) : (onLease c f s).pins = s.pins := by cases c <;> rfl
@[simp] theorem onLease_therm (c : Chain) (f : Lease → Lease) (s : State) : (onLease c f s).therm = s.therm := by cases c <;> rfl
@[simp] theorem onLease_free (c : Chain) (f : Lease → Lease) (s : State) : (onLease c f s).free = s.free := by cases c <;> rfl

@[simp] theorem onTowLane_pending (c : Chain) (f : TowLane → TowLane) (s : State) : (onTowLane c f s).pending = s.pending := rfl
@[simp] theorem onTowLane_time (c : Chain) (f : TowLane → TowLane) (s : State) : (onTowLane c f s).time = s.time := rfl
@[simp] theorem onTowLane_pwr (c : Chain) (f : TowLane → TowLane) (s : State) : (onTowLane c f s).pwr = s.pwr := rfl
@[simp] theorem onTowLane_aon (c : Chain) (f : TowLane → TowLane) (s : State) : (onTowLane c f s).aon = s.aon := rfl
@[simp] theorem onTowLane_clk (c : Chain) (f : TowLane → TowLane) (s : State) : (onTowLane c f s).clk = s.clk := rfl
@[simp] theorem onTowLane_nv (c : Chain) (f : TowLane → TowLane) (s : State) : (onTowLane c f s).nv = s.nv := rfl
@[simp] theorem onTowLane_fw (c : Chain) (f : TowLane → TowLane) (s : State) : (onTowLane c f s).fw = s.fw := rfl
@[simp] theorem onTowLane_portA (c : Chain) (f : TowLane → TowLane) (s : State) : (onTowLane c f s).portA = s.portA := rfl
@[simp] theorem onTowLane_portB (c : Chain) (f : TowLane → TowLane) (s : State) : (onTowLane c f s).portB = s.portB := rfl
@[simp] theorem onTowLane_basin (c : Chain) (f : TowLane → TowLane) (s : State) : (onTowLane c f s).basin = s.basin := rfl
@[simp] theorem onTowLane_pt (c : Chain) (f : TowLane → TowLane) (s : State) : (onTowLane c f s).pt = s.pt := rfl
@[simp] theorem onTowLane_tenants (c : Chain) (f : TowLane → TowLane) (s : State) : (onTowLane c f s).tenants = s.tenants := rfl
@[simp] theorem onTowLane_hfLease (c : Chain) (f : TowLane → TowLane) (s : State) : (onTowLane c f s).hfLease = s.hfLease := rfl
@[simp] theorem onTowLane_uhfLease (c : Chain) (f : TowLane → TowLane) (s : State) : (onTowLane c f s).uhfLease = s.uhfLease := rfl
@[simp] theorem onTowLane_queue (c : Chain) (f : TowLane → TowLane) (s : State) : (onTowLane c f s).queue = s.queue := rfl
@[simp] theorem onTowLane_packets (c : Chain) (f : TowLane → TowLane) (s : State) : (onTowLane c f s).packets = s.packets := rfl
@[simp] theorem onTowLane_visit (c : Chain) (f : TowLane → TowLane) (s : State) : (onTowLane c f s).visit = s.visit := rfl
@[simp] theorem onTowLane_hfLane (c : Chain) (f : TowLane → TowLane) (s : State) : (onTowLane c f s).hfLane = s.hfLane := rfl
@[simp] theorem onTowLane_uhfLane (c : Chain) (f : TowLane → TowLane) (s : State) : (onTowLane c f s).uhfLane = s.uhfLane := rfl
@[simp] theorem onTowLane_houseLane (c : Chain) (f : TowLane → TowLane) (s : State) : (onTowLane c f s).houseLane = s.houseLane := rfl
@[simp] theorem onTowLane_lock (c : Chain) (f : TowLane → TowLane) (s : State) : (onTowLane c f s).lock = s.lock := rfl
@[simp] theorem onTowLane_withdrawn (c : Chain) (f : TowLane → TowLane) (s : State) : (onTowLane c f s).withdrawn = s.withdrawn := rfl
@[simp] theorem onTowLane_cfg (c : Chain) (f : TowLane → TowLane) (s : State) : (onTowLane c f s).cfg = s.cfg := rfl
@[simp] theorem onTowLane_ic (c : Chain) (f : TowLane → TowLane) (s : State) : (onTowLane c f s).ic = s.ic := rfl
@[simp] theorem onTowLane_fab (c : Chain) (f : TowLane → TowLane) (s : State) : (onTowLane c f s).fab = s.fab := rfl
@[simp] theorem onTowLane_fence (c : Chain) (f : TowLane → TowLane) (s : State) : (onTowLane c f s).fence = s.fence := rfl
@[simp] theorem onTowLane_ctr (c : Chain) (f : TowLane → TowLane) (s : State) : (onTowLane c f s).ctr = s.ctr := rfl
@[simp] theorem onTowLane_contain (c : Chain) (f : TowLane → TowLane) (s : State) : (onTowLane c f s).contain = s.contain := rfl
@[simp] theorem onTowLane_hf (c : Chain) (f : TowLane → TowLane) (s : State) : (onTowLane c f s).hf = s.hf := rfl
@[simp] theorem onTowLane_uhf (c : Chain) (f : TowLane → TowLane) (s : State) : (onTowLane c f s).uhf = s.uhf := rfl
@[simp] theorem onTowLane_spec (c : Chain) (f : TowLane → TowLane) (s : State) : (onTowLane c f s).spec = s.spec := rfl
@[simp] theorem onTowLane_chr (c : Chain) (f : TowLane → TowLane) (s : State) : (onTowLane c f s).chr = s.chr := rfl
@[simp] theorem onTowLane_capHf (c : Chain) (f : TowLane → TowLane) (s : State) : (onTowLane c f s).capHf = s.capHf := rfl
@[simp] theorem onTowLane_capUhf (c : Chain) (f : TowLane → TowLane) (s : State) : (onTowLane c f s).capUhf = s.capUhf := rfl
@[simp] theorem onTowLane_cal (c : Chain) (f : TowLane → TowLane) (s : State) : (onTowLane c f s).cal = s.cal := rfl
@[simp] theorem onTowLane_rng (c : Chain) (f : TowLane → TowLane) (s : State) : (onTowLane c f s).rng = s.rng := rfl
@[simp] theorem onTowLane_keyUsed (c : Chain) (f : TowLane → TowLane) (s : State) : (onTowLane c f s).keyUsed = s.keyUsed := rfl
@[simp] theorem onTowLane_emu (c : Chain) (f : TowLane → TowLane) (s : State) : (onTowLane c f s).emu = s.emu := rfl
@[simp] theorem onTowLane_peer (c : Chain) (f : TowLane → TowLane) (s : State) : (onTowLane c f s).peer = s.peer := rfl
@[simp] theorem onTowLane_sam0 (c : Chain) (f : TowLane → TowLane) (s : State) : (onTowLane c f s).sam0 = s.sam0 := rfl
@[simp] theorem onTowLane_sam1 (c : Chain) (f : TowLane → TowLane) (s : State) : (onTowLane c f s).sam1 = s.sam1 := rfl
@[simp] theorem onTowLane_gpio (c : Chain) (f : TowLane → TowLane) (s : State) : (onTowLane c f s).gpio = s.gpio := rfl
@[simp] theorem onTowLane_pins (c : Chain) (f : TowLane → TowLane) (s : State) : (onTowLane c f s).pins = s.pins := rfl
@[simp] theorem onTowLane_therm (c : Chain) (f : TowLane → TowLane) (s : State) : (onTowLane c f s).therm = s.therm := rfl
@[simp] theorem onTowLane_free (c : Chain) (f : TowLane → TowLane) (s : State) : (onTowLane c f s).free = s.free := rfl

@[simp] theorem onSam_pending (n : Nat) (f : Sam → Sam) (s : State) : (onSam n f s).pending = s.pending := by rw [onSam]; split <;> rfl
@[simp] theorem onSam_time (n : Nat) (f : Sam → Sam) (s : State) : (onSam n f s).time = s.time := by rw [onSam]; split <;> rfl
@[simp] theorem onSam_pwr (n : Nat) (f : Sam → Sam) (s : State) : (onSam n f s).pwr = s.pwr := by rw [onSam]; split <;> rfl
@[simp] theorem onSam_aon (n : Nat) (f : Sam → Sam) (s : State) : (onSam n f s).aon = s.aon := by rw [onSam]; split <;> rfl
@[simp] theorem onSam_clk (n : Nat) (f : Sam → Sam) (s : State) : (onSam n f s).clk = s.clk := by rw [onSam]; split <;> rfl
@[simp] theorem onSam_nv (n : Nat) (f : Sam → Sam) (s : State) : (onSam n f s).nv = s.nv := by rw [onSam]; split <;> rfl
@[simp] theorem onSam_fw (n : Nat) (f : Sam → Sam) (s : State) : (onSam n f s).fw = s.fw := by rw [onSam]; split <;> rfl
@[simp] theorem onSam_portA (n : Nat) (f : Sam → Sam) (s : State) : (onSam n f s).portA = s.portA := by rw [onSam]; split <;> rfl
@[simp] theorem onSam_portB (n : Nat) (f : Sam → Sam) (s : State) : (onSam n f s).portB = s.portB := by rw [onSam]; split <;> rfl
@[simp] theorem onSam_basin (n : Nat) (f : Sam → Sam) (s : State) : (onSam n f s).basin = s.basin := by rw [onSam]; split <;> rfl
@[simp] theorem onSam_pt (n : Nat) (f : Sam → Sam) (s : State) : (onSam n f s).pt = s.pt := by rw [onSam]; split <;> rfl
@[simp] theorem onSam_tenants (n : Nat) (f : Sam → Sam) (s : State) : (onSam n f s).tenants = s.tenants := by rw [onSam]; split <;> rfl
@[simp] theorem onSam_hfLease (n : Nat) (f : Sam → Sam) (s : State) : (onSam n f s).hfLease = s.hfLease := by rw [onSam]; split <;> rfl
@[simp] theorem onSam_uhfLease (n : Nat) (f : Sam → Sam) (s : State) : (onSam n f s).uhfLease = s.uhfLease := by rw [onSam]; split <;> rfl
@[simp] theorem onSam_queue (n : Nat) (f : Sam → Sam) (s : State) : (onSam n f s).queue = s.queue := by rw [onSam]; split <;> rfl
@[simp] theorem onSam_packets (n : Nat) (f : Sam → Sam) (s : State) : (onSam n f s).packets = s.packets := by rw [onSam]; split <;> rfl
@[simp] theorem onSam_visit (n : Nat) (f : Sam → Sam) (s : State) : (onSam n f s).visit = s.visit := by rw [onSam]; split <;> rfl
@[simp] theorem onSam_hfLane (n : Nat) (f : Sam → Sam) (s : State) : (onSam n f s).hfLane = s.hfLane := by rw [onSam]; split <;> rfl
@[simp] theorem onSam_uhfLane (n : Nat) (f : Sam → Sam) (s : State) : (onSam n f s).uhfLane = s.uhfLane := by rw [onSam]; split <;> rfl
@[simp] theorem onSam_houseLane (n : Nat) (f : Sam → Sam) (s : State) : (onSam n f s).houseLane = s.houseLane := by rw [onSam]; split <;> rfl
@[simp] theorem onSam_lock (n : Nat) (f : Sam → Sam) (s : State) : (onSam n f s).lock = s.lock := by rw [onSam]; split <;> rfl
@[simp] theorem onSam_withdrawn (n : Nat) (f : Sam → Sam) (s : State) : (onSam n f s).withdrawn = s.withdrawn := by rw [onSam]; split <;> rfl
@[simp] theorem onSam_cfg (n : Nat) (f : Sam → Sam) (s : State) : (onSam n f s).cfg = s.cfg := by rw [onSam]; split <;> rfl
@[simp] theorem onSam_ic (n : Nat) (f : Sam → Sam) (s : State) : (onSam n f s).ic = s.ic := by rw [onSam]; split <;> rfl
@[simp] theorem onSam_fab (n : Nat) (f : Sam → Sam) (s : State) : (onSam n f s).fab = s.fab := by rw [onSam]; split <;> rfl
@[simp] theorem onSam_fence (n : Nat) (f : Sam → Sam) (s : State) : (onSam n f s).fence = s.fence := by rw [onSam]; split <;> rfl
@[simp] theorem onSam_ctr (n : Nat) (f : Sam → Sam) (s : State) : (onSam n f s).ctr = s.ctr := by rw [onSam]; split <;> rfl
@[simp] theorem onSam_contain (n : Nat) (f : Sam → Sam) (s : State) : (onSam n f s).contain = s.contain := by rw [onSam]; split <;> rfl
@[simp] theorem onSam_hf (n : Nat) (f : Sam → Sam) (s : State) : (onSam n f s).hf = s.hf := by rw [onSam]; split <;> rfl
@[simp] theorem onSam_uhf (n : Nat) (f : Sam → Sam) (s : State) : (onSam n f s).uhf = s.uhf := by rw [onSam]; split <;> rfl
@[simp] theorem onSam_spec (n : Nat) (f : Sam → Sam) (s : State) : (onSam n f s).spec = s.spec := by rw [onSam]; split <;> rfl
@[simp] theorem onSam_chr (n : Nat) (f : Sam → Sam) (s : State) : (onSam n f s).chr = s.chr := by rw [onSam]; split <;> rfl
@[simp] theorem onSam_capHf (n : Nat) (f : Sam → Sam) (s : State) : (onSam n f s).capHf = s.capHf := by rw [onSam]; split <;> rfl
@[simp] theorem onSam_capUhf (n : Nat) (f : Sam → Sam) (s : State) : (onSam n f s).capUhf = s.capUhf := by rw [onSam]; split <;> rfl
@[simp] theorem onSam_cal (n : Nat) (f : Sam → Sam) (s : State) : (onSam n f s).cal = s.cal := by rw [onSam]; split <;> rfl
@[simp] theorem onSam_tow (n : Nat) (f : Sam → Sam) (s : State) : (onSam n f s).tow = s.tow := by rw [onSam]; split <;> rfl
@[simp] theorem onSam_rng (n : Nat) (f : Sam → Sam) (s : State) : (onSam n f s).rng = s.rng := by rw [onSam]; split <;> rfl
@[simp] theorem onSam_keyUsed (n : Nat) (f : Sam → Sam) (s : State) : (onSam n f s).keyUsed = s.keyUsed := by rw [onSam]; split <;> rfl
@[simp] theorem onSam_emu (n : Nat) (f : Sam → Sam) (s : State) : (onSam n f s).emu = s.emu := by rw [onSam]; split <;> rfl
@[simp] theorem onSam_peer (n : Nat) (f : Sam → Sam) (s : State) : (onSam n f s).peer = s.peer := by rw [onSam]; split <;> rfl
@[simp] theorem onSam_gpio (n : Nat) (f : Sam → Sam) (s : State) : (onSam n f s).gpio = s.gpio := by rw [onSam]; split <;> rfl
@[simp] theorem onSam_pins (n : Nat) (f : Sam → Sam) (s : State) : (onSam n f s).pins = s.pins := by rw [onSam]; split <;> rfl
@[simp] theorem onSam_therm (n : Nat) (f : Sam → Sam) (s : State) : (onSam n f s).therm = s.therm := by rw [onSam]; split <;> rfl
@[simp] theorem onSam_free (n : Nat) (f : Sam → Sam) (s : State) : (onSam n f s).free = s.free := by rw [onSam]; split <;> rfl

@[simp] theorem onCap_pending (c : Chain) (f : Option Capture → Option Capture) (s : State) : (onCap c f s).pending = s.pending := by cases c <;> rfl
@[simp] theorem onCap_time (c : Chain) (f : Option Capture → Option Capture) (s : State) : (onCap c f s).time = s.time := by cases c <;> rfl
@[simp] theorem onCap_pwr (c : Chain) (f : Option Capture → Option Capture) (s : State) : (onCap c f s).pwr = s.pwr := by cases c <;> rfl
@[simp] theorem onCap_aon (c : Chain) (f : Option Capture → Option Capture) (s : State) : (onCap c f s).aon = s.aon := by cases c <;> rfl
@[simp] theorem onCap_clk (c : Chain) (f : Option Capture → Option Capture) (s : State) : (onCap c f s).clk = s.clk := by cases c <;> rfl
@[simp] theorem onCap_nv (c : Chain) (f : Option Capture → Option Capture) (s : State) : (onCap c f s).nv = s.nv := by cases c <;> rfl
@[simp] theorem onCap_fw (c : Chain) (f : Option Capture → Option Capture) (s : State) : (onCap c f s).fw = s.fw := by cases c <;> rfl
@[simp] theorem onCap_portA (c : Chain) (f : Option Capture → Option Capture) (s : State) : (onCap c f s).portA = s.portA := by cases c <;> rfl
@[simp] theorem onCap_portB (c : Chain) (f : Option Capture → Option Capture) (s : State) : (onCap c f s).portB = s.portB := by cases c <;> rfl
@[simp] theorem onCap_basin (c : Chain) (f : Option Capture → Option Capture) (s : State) : (onCap c f s).basin = s.basin := by cases c <;> rfl
@[simp] theorem onCap_pt (c : Chain) (f : Option Capture → Option Capture) (s : State) : (onCap c f s).pt = s.pt := by cases c <;> rfl
@[simp] theorem onCap_tenants (c : Chain) (f : Option Capture → Option Capture) (s : State) : (onCap c f s).tenants = s.tenants := by cases c <;> rfl
@[simp] theorem onCap_hfLease (c : Chain) (f : Option Capture → Option Capture) (s : State) : (onCap c f s).hfLease = s.hfLease := by cases c <;> rfl
@[simp] theorem onCap_uhfLease (c : Chain) (f : Option Capture → Option Capture) (s : State) : (onCap c f s).uhfLease = s.uhfLease := by cases c <;> rfl
@[simp] theorem onCap_queue (c : Chain) (f : Option Capture → Option Capture) (s : State) : (onCap c f s).queue = s.queue := by cases c <;> rfl
@[simp] theorem onCap_packets (c : Chain) (f : Option Capture → Option Capture) (s : State) : (onCap c f s).packets = s.packets := by cases c <;> rfl
@[simp] theorem onCap_visit (c : Chain) (f : Option Capture → Option Capture) (s : State) : (onCap c f s).visit = s.visit := by cases c <;> rfl
@[simp] theorem onCap_hfLane (c : Chain) (f : Option Capture → Option Capture) (s : State) : (onCap c f s).hfLane = s.hfLane := by cases c <;> rfl
@[simp] theorem onCap_uhfLane (c : Chain) (f : Option Capture → Option Capture) (s : State) : (onCap c f s).uhfLane = s.uhfLane := by cases c <;> rfl
@[simp] theorem onCap_houseLane (c : Chain) (f : Option Capture → Option Capture) (s : State) : (onCap c f s).houseLane = s.houseLane := by cases c <;> rfl
@[simp] theorem onCap_lock (c : Chain) (f : Option Capture → Option Capture) (s : State) : (onCap c f s).lock = s.lock := by cases c <;> rfl
@[simp] theorem onCap_withdrawn (c : Chain) (f : Option Capture → Option Capture) (s : State) : (onCap c f s).withdrawn = s.withdrawn := by cases c <;> rfl
@[simp] theorem onCap_cfg (c : Chain) (f : Option Capture → Option Capture) (s : State) : (onCap c f s).cfg = s.cfg := by cases c <;> rfl
@[simp] theorem onCap_ic (c : Chain) (f : Option Capture → Option Capture) (s : State) : (onCap c f s).ic = s.ic := by cases c <;> rfl
@[simp] theorem onCap_fab (c : Chain) (f : Option Capture → Option Capture) (s : State) : (onCap c f s).fab = s.fab := by cases c <;> rfl
@[simp] theorem onCap_fence (c : Chain) (f : Option Capture → Option Capture) (s : State) : (onCap c f s).fence = s.fence := by cases c <;> rfl
@[simp] theorem onCap_ctr (c : Chain) (f : Option Capture → Option Capture) (s : State) : (onCap c f s).ctr = s.ctr := by cases c <;> rfl
@[simp] theorem onCap_contain (c : Chain) (f : Option Capture → Option Capture) (s : State) : (onCap c f s).contain = s.contain := by cases c <;> rfl
@[simp] theorem onCap_hf (c : Chain) (f : Option Capture → Option Capture) (s : State) : (onCap c f s).hf = s.hf := by cases c <;> rfl
@[simp] theorem onCap_uhf (c : Chain) (f : Option Capture → Option Capture) (s : State) : (onCap c f s).uhf = s.uhf := by cases c <;> rfl
@[simp] theorem onCap_spec (c : Chain) (f : Option Capture → Option Capture) (s : State) : (onCap c f s).spec = s.spec := by cases c <;> rfl
@[simp] theorem onCap_chr (c : Chain) (f : Option Capture → Option Capture) (s : State) : (onCap c f s).chr = s.chr := by cases c <;> rfl
@[simp] theorem onCap_cal (c : Chain) (f : Option Capture → Option Capture) (s : State) : (onCap c f s).cal = s.cal := by cases c <;> rfl
@[simp] theorem onCap_tow (c : Chain) (f : Option Capture → Option Capture) (s : State) : (onCap c f s).tow = s.tow := by cases c <;> rfl
@[simp] theorem onCap_rng (c : Chain) (f : Option Capture → Option Capture) (s : State) : (onCap c f s).rng = s.rng := by cases c <;> rfl
@[simp] theorem onCap_keyUsed (c : Chain) (f : Option Capture → Option Capture) (s : State) : (onCap c f s).keyUsed = s.keyUsed := by cases c <;> rfl
@[simp] theorem onCap_emu (c : Chain) (f : Option Capture → Option Capture) (s : State) : (onCap c f s).emu = s.emu := by cases c <;> rfl
@[simp] theorem onCap_peer (c : Chain) (f : Option Capture → Option Capture) (s : State) : (onCap c f s).peer = s.peer := by cases c <;> rfl
@[simp] theorem onCap_sam0 (c : Chain) (f : Option Capture → Option Capture) (s : State) : (onCap c f s).sam0 = s.sam0 := by cases c <;> rfl
@[simp] theorem onCap_sam1 (c : Chain) (f : Option Capture → Option Capture) (s : State) : (onCap c f s).sam1 = s.sam1 := by cases c <;> rfl
@[simp] theorem onCap_gpio (c : Chain) (f : Option Capture → Option Capture) (s : State) : (onCap c f s).gpio = s.gpio := by cases c <;> rfl
@[simp] theorem onCap_pins (c : Chain) (f : Option Capture → Option Capture) (s : State) : (onCap c f s).pins = s.pins := by cases c <;> rfl
@[simp] theorem onCap_therm (c : Chain) (f : Option Capture → Option Capture) (s : State) : (onCap c f s).therm = s.therm := by cases c <;> rfl
@[simp] theorem onCap_free (c : Chain) (f : Option Capture → Option Capture) (s : State) : (onCap c f s).free = s.free := by cases c <;> rfl

@[simp] theorem setRadio_pending (c : Chain) (r : Radio) (s : State) : (setRadio c r s).pending = s.pending := by cases c <;> rfl
@[simp] theorem setRadio_time (c : Chain) (r : Radio) (s : State) : (setRadio c r s).time = s.time := by cases c <;> rfl
@[simp] theorem setRadio_pwr (c : Chain) (r : Radio) (s : State) : (setRadio c r s).pwr = s.pwr := by cases c <;> rfl
@[simp] theorem setRadio_aon (c : Chain) (r : Radio) (s : State) : (setRadio c r s).aon = s.aon := by cases c <;> rfl
@[simp] theorem setRadio_clk (c : Chain) (r : Radio) (s : State) : (setRadio c r s).clk = s.clk := by cases c <;> rfl
@[simp] theorem setRadio_nv (c : Chain) (r : Radio) (s : State) : (setRadio c r s).nv = s.nv := by cases c <;> rfl
@[simp] theorem setRadio_fw (c : Chain) (r : Radio) (s : State) : (setRadio c r s).fw = s.fw := by cases c <;> rfl
@[simp] theorem setRadio_portA (c : Chain) (r : Radio) (s : State) : (setRadio c r s).portA = s.portA := by cases c <;> rfl
@[simp] theorem setRadio_portB (c : Chain) (r : Radio) (s : State) : (setRadio c r s).portB = s.portB := by cases c <;> rfl
@[simp] theorem setRadio_basin (c : Chain) (r : Radio) (s : State) : (setRadio c r s).basin = s.basin := by cases c <;> rfl
@[simp] theorem setRadio_pt (c : Chain) (r : Radio) (s : State) : (setRadio c r s).pt = s.pt := by cases c <;> rfl
@[simp] theorem setRadio_tenants (c : Chain) (r : Radio) (s : State) : (setRadio c r s).tenants = s.tenants := by cases c <;> rfl
@[simp] theorem setRadio_hfLease (c : Chain) (r : Radio) (s : State) : (setRadio c r s).hfLease = s.hfLease := by cases c <;> rfl
@[simp] theorem setRadio_uhfLease (c : Chain) (r : Radio) (s : State) : (setRadio c r s).uhfLease = s.uhfLease := by cases c <;> rfl
@[simp] theorem setRadio_queue (c : Chain) (r : Radio) (s : State) : (setRadio c r s).queue = s.queue := by cases c <;> rfl
@[simp] theorem setRadio_packets (c : Chain) (r : Radio) (s : State) : (setRadio c r s).packets = s.packets := by cases c <;> rfl
@[simp] theorem setRadio_visit (c : Chain) (r : Radio) (s : State) : (setRadio c r s).visit = s.visit := by cases c <;> rfl
@[simp] theorem setRadio_hfLane (c : Chain) (r : Radio) (s : State) : (setRadio c r s).hfLane = s.hfLane := by cases c <;> rfl
@[simp] theorem setRadio_uhfLane (c : Chain) (r : Radio) (s : State) : (setRadio c r s).uhfLane = s.uhfLane := by cases c <;> rfl
@[simp] theorem setRadio_houseLane (c : Chain) (r : Radio) (s : State) : (setRadio c r s).houseLane = s.houseLane := by cases c <;> rfl
@[simp] theorem setRadio_lock (c : Chain) (r : Radio) (s : State) : (setRadio c r s).lock = s.lock := by cases c <;> rfl
@[simp] theorem setRadio_withdrawn (c : Chain) (r : Radio) (s : State) : (setRadio c r s).withdrawn = s.withdrawn := by cases c <;> rfl
@[simp] theorem setRadio_cfg (c : Chain) (r : Radio) (s : State) : (setRadio c r s).cfg = s.cfg := by cases c <;> rfl
@[simp] theorem setRadio_ic (c : Chain) (r : Radio) (s : State) : (setRadio c r s).ic = s.ic := by cases c <;> rfl
@[simp] theorem setRadio_fab (c : Chain) (r : Radio) (s : State) : (setRadio c r s).fab = s.fab := by cases c <;> rfl
@[simp] theorem setRadio_fence (c : Chain) (r : Radio) (s : State) : (setRadio c r s).fence = s.fence := by cases c <;> rfl
@[simp] theorem setRadio_ctr (c : Chain) (r : Radio) (s : State) : (setRadio c r s).ctr = s.ctr := by cases c <;> rfl
@[simp] theorem setRadio_contain (c : Chain) (r : Radio) (s : State) : (setRadio c r s).contain = s.contain := by cases c <;> rfl
@[simp] theorem setRadio_spec (c : Chain) (r : Radio) (s : State) : (setRadio c r s).spec = s.spec := by cases c <;> rfl
@[simp] theorem setRadio_chr (c : Chain) (r : Radio) (s : State) : (setRadio c r s).chr = s.chr := by cases c <;> rfl
@[simp] theorem setRadio_capHf (c : Chain) (r : Radio) (s : State) : (setRadio c r s).capHf = s.capHf := by cases c <;> rfl
@[simp] theorem setRadio_capUhf (c : Chain) (r : Radio) (s : State) : (setRadio c r s).capUhf = s.capUhf := by cases c <;> rfl
@[simp] theorem setRadio_cal (c : Chain) (r : Radio) (s : State) : (setRadio c r s).cal = s.cal := by cases c <;> rfl
@[simp] theorem setRadio_tow (c : Chain) (r : Radio) (s : State) : (setRadio c r s).tow = s.tow := by cases c <;> rfl
@[simp] theorem setRadio_rng (c : Chain) (r : Radio) (s : State) : (setRadio c r s).rng = s.rng := by cases c <;> rfl
@[simp] theorem setRadio_keyUsed (c : Chain) (r : Radio) (s : State) : (setRadio c r s).keyUsed = s.keyUsed := by cases c <;> rfl
@[simp] theorem setRadio_emu (c : Chain) (r : Radio) (s : State) : (setRadio c r s).emu = s.emu := by cases c <;> rfl
@[simp] theorem setRadio_peer (c : Chain) (r : Radio) (s : State) : (setRadio c r s).peer = s.peer := by cases c <;> rfl
@[simp] theorem setRadio_sam0 (c : Chain) (r : Radio) (s : State) : (setRadio c r s).sam0 = s.sam0 := by cases c <;> rfl
@[simp] theorem setRadio_sam1 (c : Chain) (r : Radio) (s : State) : (setRadio c r s).sam1 = s.sam1 := by cases c <;> rfl
@[simp] theorem setRadio_gpio (c : Chain) (r : Radio) (s : State) : (setRadio c r s).gpio = s.gpio := by cases c <;> rfl
@[simp] theorem setRadio_pins (c : Chain) (r : Radio) (s : State) : (setRadio c r s).pins = s.pins := by cases c <;> rfl
@[simp] theorem setRadio_therm (c : Chain) (r : Radio) (s : State) : (setRadio c r s).therm = s.therm := by cases c <;> rfl
@[simp] theorem setRadio_free (c : Chain) (r : Radio) (s : State) : (setRadio c r s).free = s.free := by cases c <;> rfl

/-! ## What the selected field holds -/

@[simp] theorem portSt_onPort (p q : Port) (f : PortSt → PortSt) (s : State) :
    portSt (onPort p f s) q = if q = p then f (portSt s q) else portSt s q := by cases p <;> cases q <;> rfl

@[simp] theorem laneSt_onLane (l m : LaneId) (f : Lane → Lane) (s : State) :
    laneSt (onLane l f s) m = if m = l then f (laneSt s m) else laneSt s m := by cases l <;> cases m <;> rfl

@[simp] theorem leaseOf_onLease (c d : Chain) (f : Lease → Lease) (s : State) :
    leaseOf (onLease c f s) d = if d = c then f (leaseOf s d) else leaseOf s d := by cases c <;> cases d <;> rfl

@[simp] theorem towLane_onTowLane (c d : Chain) (f : TowLane → TowLane) (s : State) :
    towLane (onTowLane c f s) d = if d = c then f (towLane s d) else towLane s d := by cases c <;> cases d <;> rfl

@[simp] theorem radioOf_setRadio (c d : Chain) (r : Radio) (s : State) :
    radioOf (setRadio c r s) d = if d = c then r else radioOf s d := by cases c <;> cases d <;> rfl

@[simp] theorem execOf_onLane (l m : LaneId) (f : Lane → Lane) (s : State) :
    execOf (onLane l f s) m = if m = l then (f (laneSt s m)).exec else execOf s m := by
  cases l <;> cases m <;> rfl

@[simp] theorem execOf_onExec (l m : LaneId) (f : Exec → Exec) (s : State) :
    execOf (onExec l f s) m = if m = l then (execOf s m).map f else execOf s m := by
  cases l <;> cases m <;> rfl

end Sys2Proof.Machine
end

