-- ==== Sys2Proof/Laws/Ops.lean ====
section
/-! SUPPORT. What the shared operations leave: doorbells, counters, clamps, memory writes, log records and fence
marks, one lemma for each field that an operation never changes. -/

namespace Sys2Proof.Machine

open Sys2Proof

@[simp] theorem basinWrite_pending (a : Nat) (vs : List Byte) (s : State) : (basinWrite a vs s).pending = s.pending := rfl
@[simp] theorem basinWrite_time (a : Nat) (vs : List Byte) (s : State) : (basinWrite a vs s).time = s.time := rfl
@[simp] theorem basinWrite_pwr (a : Nat) (vs : List Byte) (s : State) : (basinWrite a vs s).pwr = s.pwr := rfl
@[simp] theorem basinWrite_aon (a : Nat) (vs : List Byte) (s : State) : (basinWrite a vs s).aon = s.aon := rfl
@[simp] theorem basinWrite_clk (a : Nat) (vs : List Byte) (s : State) : (basinWrite a vs s).clk = s.clk := rfl
@[simp] theorem basinWrite_nv (a : Nat) (vs : List Byte) (s : State) : (basinWrite a vs s).nv = s.nv := rfl
@[simp] theorem basinWrite_fw (a : Nat) (vs : List Byte) (s : State) : (basinWrite a vs s).fw = s.fw := rfl
@[simp] theorem basinWrite_portA (a : Nat) (vs : List Byte) (s : State) : (basinWrite a vs s).portA = s.portA := rfl
@[simp] theorem basinWrite_portB (a : Nat) (vs : List Byte) (s : State) : (basinWrite a vs s).portB = s.portB := rfl
@[simp] theorem basinWrite_pt (a : Nat) (vs : List Byte) (s : State) : (basinWrite a vs s).pt = s.pt := rfl
@[simp] theorem basinWrite_tenants (a : Nat) (vs : List Byte) (s : State) : (basinWrite a vs s).tenants = s.tenants := rfl
@[simp] theorem basinWrite_hfLease (a : Nat) (vs : List Byte) (s : State) : (basinWrite a vs s).hfLease = s.hfLease := rfl
@[simp] theorem basinWrite_uhfLease (a : Nat) (vs : List Byte) (s : State) : (basinWrite a vs s).uhfLease = s.uhfLease := rfl
@[simp] theorem basinWrite_queue (a : Nat) (vs : List Byte) (s : State) : (basinWrite a vs s).queue = s.queue := rfl
@[simp] theorem basinWrite_packets (a : Nat) (vs : List Byte) (s : State) : (basinWrite a vs s).packets = s.packets := rfl
@[simp] theorem basinWrite_visit (a : Nat) (vs : List Byte) (s : State) : (basinWrite a vs s).visit = s.visit := rfl
@[simp] theorem basinWrite_hfLane (a : Nat) (vs : List Byte) (s : State) : (basinWrite a vs s).hfLane = s.hfLane := rfl
@[simp] theorem basinWrite_uhfLane (a : Nat) (vs : List Byte) (s : State) : (basinWrite a vs s).uhfLane = s.uhfLane := rfl
@[simp] theorem basinWrite_houseLane (a : Nat) (vs : List Byte) (s : State) : (basinWrite a vs s).houseLane = s.houseLane := rfl
@[simp] theorem basinWrite_lock (a : Nat) (vs : List Byte) (s : State) : (basinWrite a vs s).lock = s.lock := rfl
@[simp] theorem basinWrite_withdrawn (a : Nat) (vs : List Byte) (s : State) : (basinWrite a vs s).withdrawn = s.withdrawn := rfl
@[simp] theorem basinWrite_cfg (a : Nat) (vs : List Byte) (s : State) : (basinWrite a vs s).cfg = s.cfg := rfl
@[simp] theorem basinWrite_ic (a : Nat) (vs : List Byte) (s : State) : (basinWrite a vs s).ic = s.ic := rfl
@[simp] theorem basinWrite_fab (a : Nat) (vs : List Byte) (s : State) : (basinWrite a vs s).fab = s.fab := rfl
@[simp] theorem basinWrite_fence (a : Nat) (vs : List Byte) (s : State) : (basinWrite a vs s).fence = s.fence := rfl
@[simp] theorem basinWrite_ctr (a : Nat) (vs : List Byte) (s : State) : (basinWrite a vs s).ctr = s.ctr := rfl
@[simp] theorem basinWrite_contain (a : Nat) (vs : List Byte) (s : State) : (basinWrite a vs s).contain = s.contain := rfl
@[simp] theorem basinWrite_hf (a : Nat) (vs : List Byte) (s : State) : (basinWrite a vs s).hf = s.hf := rfl
@[simp] theorem basinWrite_uhf (a : Nat) (vs : List Byte) (s : State) : (basinWrite a vs s).uhf = s.uhf := rfl
@[simp] theorem basinWrite_spec (a : Nat) (vs : List Byte) (s : State) : (basinWrite a vs s).spec = s.spec := rfl
@[simp] theorem basinWrite_chr (a : Nat) (vs : List Byte) (s : State) : (basinWrite a vs s).chr = s.chr := rfl
@[simp] theorem basinWrite_capHf (a : Nat) (vs : List Byte) (s : State) : (basinWrite a vs s).capHf = s.capHf := rfl
@[simp] theorem basinWrite_capUhf (a : Nat) (vs : List Byte) (s : State) : (basinWrite a vs s).capUhf = s.capUhf := rfl
@[simp] theorem basinWrite_cal (a : Nat) (vs : List Byte) (s : State) : (basinWrite a vs s).cal = s.cal := rfl
@[simp] theorem basinWrite_tow (a : Nat) (vs : List Byte) (s : State) : (basinWrite a vs s).tow = s.tow := rfl
@[simp] theorem basinWrite_rng (a : Nat) (vs : List Byte) (s : State) : (basinWrite a vs s).rng = s.rng := rfl
@[simp] theorem basinWrite_keyUsed (a : Nat) (vs : List Byte) (s : State) : (basinWrite a vs s).keyUsed = s.keyUsed := rfl
@[simp] theorem basinWrite_emu (a : Nat) (vs : List Byte) (s : State) : (basinWrite a vs s).emu = s.emu := rfl
@[simp] theorem basinWrite_peer (a : Nat) (vs : List Byte) (s : State) : (basinWrite a vs s).peer = s.peer := rfl
@[simp] theorem basinWrite_sam0 (a : Nat) (vs : List Byte) (s : State) : (basinWrite a vs s).sam0 = s.sam0 := rfl
@[simp] theorem basinWrite_sam1 (a : Nat) (vs : List Byte) (s : State) : (basinWrite a vs s).sam1 = s.sam1 := rfl
@[simp] theorem basinWrite_gpio (a : Nat) (vs : List Byte) (s : State) : (basinWrite a vs s).gpio = s.gpio := rfl
@[simp] theorem basinWrite_pins (a : Nat) (vs : List Byte) (s : State) : (basinWrite a vs s).pins = s.pins := rfl
@[simp] theorem basinWrite_therm (a : Nat) (vs : List Byte) (s : State) : (basinWrite a vs s).therm = s.therm := rfl
@[simp] theorem basinWrite_free (a : Nat) (vs : List Byte) (s : State) : (basinWrite a vs s).free = s.free := rfl

@[simp] theorem poundWrite_pending (n a : Nat) (vs : List Byte) (s : State) : (poundWrite n a vs s).pending = s.pending := rfl
@[simp] theorem poundWrite_time (n a : Nat) (vs : List Byte) (s : State) : (poundWrite n a vs s).time = s.time := rfl
@[simp] theorem poundWrite_pwr (n a : Nat) (vs : List Byte) (s : State) : (poundWrite n a vs s).pwr = s.pwr := rfl
@[simp] theorem poundWrite_aon (n a : Nat) (vs : List Byte) (s : State) : (poundWrite n a vs s).aon = s.aon := rfl
@[simp] theorem poundWrite_clk (n a : Nat) (vs : List Byte) (s : State) : (poundWrite n a vs s).clk = s.clk := rfl
@[simp] theorem poundWrite_nv (n a : Nat) (vs : List Byte) (s : State) : (poundWrite n a vs s).nv = s.nv := rfl
@[simp] theorem poundWrite_fw (n a : Nat) (vs : List Byte) (s : State) : (poundWrite n a vs s).fw = s.fw := rfl
@[simp] theorem poundWrite_portA (n a : Nat) (vs : List Byte) (s : State) : (poundWrite n a vs s).portA = s.portA := rfl
@[simp] theorem poundWrite_portB (n a : Nat) (vs : List Byte) (s : State) : (poundWrite n a vs s).portB = s.portB := rfl
@[simp] theorem poundWrite_pt (n a : Nat) (vs : List Byte) (s : State) : (poundWrite n a vs s).pt = s.pt := rfl
@[simp] theorem poundWrite_tenants (n a : Nat) (vs : List Byte) (s : State) : (poundWrite n a vs s).tenants = s.tenants := rfl
@[simp] theorem poundWrite_hfLease (n a : Nat) (vs : List Byte) (s : State) : (poundWrite n a vs s).hfLease = s.hfLease := rfl
@[simp] theorem poundWrite_uhfLease (n a : Nat) (vs : List Byte) (s : State) : (poundWrite n a vs s).uhfLease = s.uhfLease := rfl
@[simp] theorem poundWrite_queue (n a : Nat) (vs : List Byte) (s : State) : (poundWrite n a vs s).queue = s.queue := rfl
@[simp] theorem poundWrite_packets (n a : Nat) (vs : List Byte) (s : State) : (poundWrite n a vs s).packets = s.packets := rfl
@[simp] theorem poundWrite_visit (n a : Nat) (vs : List Byte) (s : State) : (poundWrite n a vs s).visit = s.visit := rfl
@[simp] theorem poundWrite_hfLane (n a : Nat) (vs : List Byte) (s : State) : (poundWrite n a vs s).hfLane = s.hfLane := rfl
@[simp] theorem poundWrite_uhfLane (n a : Nat) (vs : List Byte) (s : State) : (poundWrite n a vs s).uhfLane = s.uhfLane := rfl
@[simp] theorem poundWrite_houseLane (n a : Nat) (vs : List Byte) (s : State) : (poundWrite n a vs s).houseLane = s.houseLane := rfl
@[simp] theorem poundWrite_lock (n a : Nat) (vs : List Byte) (s : State) : (poundWrite n a vs s).lock = s.lock := rfl
@[simp] theorem poundWrite_withdrawn (n a : Nat) (vs : List Byte) (s : State) : (poundWrite n a vs s).withdrawn = s.withdrawn := rfl
@[simp] theorem poundWrite_cfg (n a : Nat) (vs : List Byte) (s : State) : (poundWrite n a vs s).cfg = s.cfg := rfl
@[simp] theorem poundWrite_ic (n a : Nat) (vs : List Byte) (s : State) : (poundWrite n a vs s).ic = s.ic := rfl
@[simp] theorem poundWrite_fab (n a : Nat) (vs : List Byte) (s : State) : (poundWrite n a vs s).fab = s.fab := rfl
@[simp] theorem poundWrite_fence (n a : Nat) (vs : List Byte) (s : State) : (poundWrite n a vs s).fence = s.fence := rfl
@[simp] theorem poundWrite_ctr (n a : Nat) (vs : List Byte) (s : State) : (poundWrite n a vs s).ctr = s.ctr := rfl
@[simp] theorem poundWrite_contain (n a : Nat) (vs : List Byte) (s : State) : (poundWrite n a vs s).contain = s.contain := rfl
@[simp] theorem poundWrite_hf (n a : Nat) (vs : List Byte) (s : State) : (poundWrite n a vs s).hf = s.hf := rfl
@[simp] theorem poundWrite_uhf (n a : Nat) (vs : List Byte) (s : State) : (poundWrite n a vs s).uhf = s.uhf := rfl
@[simp] theorem poundWrite_spec (n a : Nat) (vs : List Byte) (s : State) : (poundWrite n a vs s).spec = s.spec := rfl
@[simp] theorem poundWrite_chr (n a : Nat) (vs : List Byte) (s : State) : (poundWrite n a vs s).chr = s.chr := rfl
@[simp] theorem poundWrite_capHf (n a : Nat) (vs : List Byte) (s : State) : (poundWrite n a vs s).capHf = s.capHf := rfl
@[simp] theorem poundWrite_capUhf (n a : Nat) (vs : List Byte) (s : State) : (poundWrite n a vs s).capUhf = s.capUhf := rfl
@[simp] theorem poundWrite_cal (n a : Nat) (vs : List Byte) (s : State) : (poundWrite n a vs s).cal = s.cal := rfl
@[simp] theorem poundWrite_tow (n a : Nat) (vs : List Byte) (s : State) : (poundWrite n a vs s).tow = s.tow := rfl
@[simp] theorem poundWrite_rng (n a : Nat) (vs : List Byte) (s : State) : (poundWrite n a vs s).rng = s.rng := rfl
@[simp] theorem poundWrite_keyUsed (n a : Nat) (vs : List Byte) (s : State) : (poundWrite n a vs s).keyUsed = s.keyUsed := rfl
@[simp] theorem poundWrite_emu (n a : Nat) (vs : List Byte) (s : State) : (poundWrite n a vs s).emu = s.emu := rfl
@[simp] theorem poundWrite_peer (n a : Nat) (vs : List Byte) (s : State) : (poundWrite n a vs s).peer = s.peer := rfl
@[simp] theorem poundWrite_sam0 (n a : Nat) (vs : List Byte) (s : State) : (poundWrite n a vs s).sam0 = s.sam0 := rfl
@[simp] theorem poundWrite_sam1 (n a : Nat) (vs : List Byte) (s : State) : (poundWrite n a vs s).sam1 = s.sam1 := rfl
@[simp] theorem poundWrite_gpio (n a : Nat) (vs : List Byte) (s : State) : (poundWrite n a vs s).gpio = s.gpio := rfl
@[simp] theorem poundWrite_pins (n a : Nat) (vs : List Byte) (s : State) : (poundWrite n a vs s).pins = s.pins := rfl
@[simp] theorem poundWrite_therm (n a : Nat) (vs : List Byte) (s : State) : (poundWrite n a vs s).therm = s.therm := rfl
@[simp] theorem poundWrite_free (n a : Nat) (vs : List Byte) (s : State) : (poundWrite n a vs s).free = s.free := rfl

@[simp] theorem enqueue_pending (p : Producer) (d : Doorbell) (s : State) : (enqueue p d s).pending = s.pending := rfl
@[simp] theorem enqueue_time (p : Producer) (d : Doorbell) (s : State) : (enqueue p d s).time = s.time := rfl
@[simp] theorem enqueue_pwr (p : Producer) (d : Doorbell) (s : State) : (enqueue p d s).pwr = s.pwr := rfl
@[simp] theorem enqueue_aon (p : Producer) (d : Doorbell) (s : State) : (enqueue p d s).aon = s.aon := rfl
@[simp] theorem enqueue_clk (p : Producer) (d : Doorbell) (s : State) : (enqueue p d s).clk = s.clk := rfl
@[simp] theorem enqueue_nv (p : Producer) (d : Doorbell) (s : State) : (enqueue p d s).nv = s.nv := rfl
@[simp] theorem enqueue_fw (p : Producer) (d : Doorbell) (s : State) : (enqueue p d s).fw = s.fw := rfl
@[simp] theorem enqueue_portA (p : Producer) (d : Doorbell) (s : State) : (enqueue p d s).portA = s.portA := rfl
@[simp] theorem enqueue_portB (p : Producer) (d : Doorbell) (s : State) : (enqueue p d s).portB = s.portB := rfl
@[simp] theorem enqueue_basin (p : Producer) (d : Doorbell) (s : State) : (enqueue p d s).basin = s.basin := rfl
@[simp] theorem enqueue_pt (p : Producer) (d : Doorbell) (s : State) : (enqueue p d s).pt = s.pt := rfl
@[simp] theorem enqueue_tenants (p : Producer) (d : Doorbell) (s : State) : (enqueue p d s).tenants = s.tenants := rfl
@[simp] theorem enqueue_hfLease (p : Producer) (d : Doorbell) (s : State) : (enqueue p d s).hfLease = s.hfLease := rfl
@[simp] theorem enqueue_uhfLease (p : Producer) (d : Doorbell) (s : State) : (enqueue p d s).uhfLease = s.uhfLease := rfl
@[simp] theorem enqueue_queue (p : Producer) (d : Doorbell) (s : State) : (enqueue p d s).queue = s.queue := rfl
@[simp] theorem enqueue_packets (p : Producer) (d : Doorbell) (s : State) : (enqueue p d s).packets = s.packets := rfl
@[simp] theorem enqueue_visit (p : Producer) (d : Doorbell) (s : State) : (enqueue p d s).visit = s.visit := rfl
@[simp] theorem enqueue_hfLane (p : Producer) (d : Doorbell) (s : State) : (enqueue p d s).hfLane = s.hfLane := rfl
@[simp] theorem enqueue_uhfLane (p : Producer) (d : Doorbell) (s : State) : (enqueue p d s).uhfLane = s.uhfLane := rfl
@[simp] theorem enqueue_houseLane (p : Producer) (d : Doorbell) (s : State) : (enqueue p d s).houseLane = s.houseLane := rfl
@[simp] theorem enqueue_lock (p : Producer) (d : Doorbell) (s : State) : (enqueue p d s).lock = s.lock := rfl
@[simp] theorem enqueue_withdrawn (p : Producer) (d : Doorbell) (s : State) : (enqueue p d s).withdrawn = s.withdrawn := rfl
@[simp] theorem enqueue_cfg (p : Producer) (d : Doorbell) (s : State) : (enqueue p d s).cfg = s.cfg := rfl
@[simp] theorem enqueue_ic (p : Producer) (d : Doorbell) (s : State) : (enqueue p d s).ic = s.ic := rfl
@[simp] theorem enqueue_fence (p : Producer) (d : Doorbell) (s : State) : (enqueue p d s).fence = s.fence := rfl
@[simp] theorem enqueue_ctr (p : Producer) (d : Doorbell) (s : State) : (enqueue p d s).ctr = s.ctr := rfl
@[simp] theorem enqueue_contain (p : Producer) (d : Doorbell) (s : State) : (enqueue p d s).contain = s.contain := rfl
@[simp] theorem enqueue_hf (p : Producer) (d : Doorbell) (s : State) : (enqueue p d s).hf = s.hf := rfl
@[simp] theorem enqueue_uhf (p : Producer) (d : Doorbell) (s : State) : (enqueue p d s).uhf = s.uhf := rfl
@[simp] theorem enqueue_spec (p : Producer) (d : Doorbell) (s : State) : (enqueue p d s).spec = s.spec := rfl
@[simp] theorem enqueue_chr (p : Producer) (d : Doorbell) (s : State) : (enqueue p d s).chr = s.chr := rfl
@[simp] theorem enqueue_capHf (p : Producer) (d : Doorbell) (s : State) : (enqueue p d s).capHf = s.capHf := rfl
@[simp] theorem enqueue_capUhf (p : Producer) (d : Doorbell) (s : State) : (enqueue p d s).capUhf = s.capUhf := rfl
@[simp] theorem enqueue_cal (p : Producer) (d : Doorbell) (s : State) : (enqueue p d s).cal = s.cal := rfl
@[simp] theorem enqueue_tow (p : Producer) (d : Doorbell) (s : State) : (enqueue p d s).tow = s.tow := rfl
@[simp] theorem enqueue_rng (p : Producer) (d : Doorbell) (s : State) : (enqueue p d s).rng = s.rng := rfl
@[simp] theorem enqueue_keyUsed (p : Producer) (d : Doorbell) (s : State) : (enqueue p d s).keyUsed = s.keyUsed := rfl
@[simp] theorem enqueue_emu (p : Producer) (d : Doorbell) (s : State) : (enqueue p d s).emu = s.emu := rfl
@[simp] theorem enqueue_peer (p : Producer) (d : Doorbell) (s : State) : (enqueue p d s).peer = s.peer := rfl
@[simp] theorem enqueue_sam0 (p : Producer) (d : Doorbell) (s : State) : (enqueue p d s).sam0 = s.sam0 := rfl
@[simp] theorem enqueue_sam1 (p : Producer) (d : Doorbell) (s : State) : (enqueue p d s).sam1 = s.sam1 := rfl
@[simp] theorem enqueue_gpio (p : Producer) (d : Doorbell) (s : State) : (enqueue p d s).gpio = s.gpio := rfl
@[simp] theorem enqueue_pins (p : Producer) (d : Doorbell) (s : State) : (enqueue p d s).pins = s.pins := rfl
@[simp] theorem enqueue_therm (p : Producer) (d : Doorbell) (s : State) : (enqueue p d s).therm = s.therm := rfl
@[simp] theorem enqueue_free (p : Producer) (d : Doorbell) (s : State) : (enqueue p d s).free = s.free := rfl

@[simp] theorem raiseAs_pending (p : Producer) (src pay : Nat) (s : State) : (raiseAs p src pay s).pending = s.pending := by simp only [raiseAs]; split <;> simp
@[simp] theorem raiseAs_time (p : Producer) (src pay : Nat) (s : State) : (raiseAs p src pay s).time = s.time := by simp only [raiseAs]; split <;> simp
@[simp] theorem raiseAs_pwr (p : Producer) (src pay : Nat) (s : State) : (raiseAs p src pay s).pwr = s.pwr := by simp only [raiseAs]; split <;> simp
@[simp] theorem raiseAs_clk (p : Producer) (src pay : Nat) (s : State) : (raiseAs p src pay s).clk = s.clk := by simp only [raiseAs]; split <;> simp
@[simp] theorem raiseAs_nv (p : Producer) (src pay : Nat) (s : State) : (raiseAs p src pay s).nv = s.nv := by simp only [raiseAs]; split <;> simp
@[simp] theorem raiseAs_fw (p : Producer) (src pay : Nat) (s : State) : (raiseAs p src pay s).fw = s.fw := by simp only [raiseAs]; split <;> simp
@[simp] theorem raiseAs_portA (p : Producer) (src pay : Nat) (s : State) : (raiseAs p src pay s).portA = s.portA := by simp only [raiseAs]; split <;> simp
@[simp] theorem raiseAs_portB (p : Producer) (src pay : Nat) (s : State) : (raiseAs p src pay s).portB = s.portB := by simp only [raiseAs]; split <;> simp
@[simp] theorem raiseAs_basin (p : Producer) (src pay : Nat) (s : State) : (raiseAs p src pay s).basin = s.basin := by simp only [raiseAs]; split <;> simp
@[simp] theorem raiseAs_pt (p : Producer) (src pay : Nat) (s : State) : (raiseAs p src pay s).pt = s.pt := by simp only [raiseAs]; split <;> simp
@[simp] theorem raiseAs_tenants (p : Producer) (src pay : Nat) (s : State) : (raiseAs p src pay s).tenants = s.tenants := by simp only [raiseAs]; split <;> simp
@[simp] theorem raiseAs_hfLease (p : Producer) (src pay : Nat) (s : State) : (raiseAs p src pay s).hfLease = s.hfLease := by simp only [raiseAs]; split <;> simp
@[simp] theorem raiseAs_uhfLease (p : Producer) (src pay : Nat) (s : State) : (raiseAs p src pay s).uhfLease = s.uhfLease := by simp only [raiseAs]; split <;> simp
@[simp] theorem raiseAs_queue (p : Producer) (src pay : Nat) (s : State) : (raiseAs p src pay s).queue = s.queue := by simp only [raiseAs]; split <;> simp
@[simp] theorem raiseAs_packets (p : Producer) (src pay : Nat) (s : State) : (raiseAs p src pay s).packets = s.packets := by simp only [raiseAs]; split <;> simp
@[simp] theorem raiseAs_visit (p : Producer) (src pay : Nat) (s : State) : (raiseAs p src pay s).visit = s.visit := by simp only [raiseAs]; split <;> simp
@[simp] theorem raiseAs_hfLane (p : Producer) (src pay : Nat) (s : State) : (raiseAs p src pay s).hfLane = s.hfLane := by simp only [raiseAs]; split <;> simp
@[simp] theorem raiseAs_uhfLane (p : Producer) (src pay : Nat) (s : State) : (raiseAs p src pay s).uhfLane = s.uhfLane := by simp only [raiseAs]; split <;> simp
@[simp] theorem raiseAs_houseLane (p : Producer) (src pay : Nat) (s : State) : (raiseAs p src pay s).houseLane = s.houseLane := by simp only [raiseAs]; split <;> simp
@[simp] theorem raiseAs_lock (p : Producer) (src pay : Nat) (s : State) : (raiseAs p src pay s).lock = s.lock := by simp only [raiseAs]; split <;> simp
@[simp] theorem raiseAs_withdrawn (p : Producer) (src pay : Nat) (s : State) : (raiseAs p src pay s).withdrawn = s.withdrawn := by simp only [raiseAs]; split <;> simp
@[simp] theorem raiseAs_cfg (p : Producer) (src pay : Nat) (s : State) : (raiseAs p src pay s).cfg = s.cfg := by simp only [raiseAs]; split <;> simp
@[simp] theorem raiseAs_ic (p : Producer) (src pay : Nat) (s : State) : (raiseAs p src pay s).ic = s.ic := by simp only [raiseAs]; split <;> simp
@[simp] theorem raiseAs_fence (p : Producer) (src pay : Nat) (s : State) : (raiseAs p src pay s).fence = s.fence := by simp only [raiseAs]; split <;> simp
@[simp] theorem raiseAs_ctr (p : Producer) (src pay : Nat) (s : State) : (raiseAs p src pay s).ctr = s.ctr := by simp only [raiseAs]; split <;> simp
@[simp] theorem raiseAs_contain (p : Producer) (src pay : Nat) (s : State) : (raiseAs p src pay s).contain = s.contain := by simp only [raiseAs]; split <;> simp
@[simp] theorem raiseAs_hf (p : Producer) (src pay : Nat) (s : State) : (raiseAs p src pay s).hf = s.hf := by simp only [raiseAs]; split <;> simp
@[simp] theorem raiseAs_uhf (p : Producer) (src pay : Nat) (s : State) : (raiseAs p src pay s).uhf = s.uhf := by simp only [raiseAs]; split <;> simp
@[simp] theorem raiseAs_spec (p : Producer) (src pay : Nat) (s : State) : (raiseAs p src pay s).spec = s.spec := by simp only [raiseAs]; split <;> simp
@[simp] theorem raiseAs_chr (p : Producer) (src pay : Nat) (s : State) : (raiseAs p src pay s).chr = s.chr := by simp only [raiseAs]; split <;> simp
@[simp] theorem raiseAs_capHf (p : Producer) (src pay : Nat) (s : State) : (raiseAs p src pay s).capHf = s.capHf := by simp only [raiseAs]; split <;> simp
@[simp] theorem raiseAs_capUhf (p : Producer) (src pay : Nat) (s : State) : (raiseAs p src pay s).capUhf = s.capUhf := by simp only [raiseAs]; split <;> simp
@[simp] theorem raiseAs_cal (p : Producer) (src pay : Nat) (s : State) : (raiseAs p src pay s).cal = s.cal := by simp only [raiseAs]; split <;> simp
@[simp] theorem raiseAs_tow (p : Producer) (src pay : Nat) (s : State) : (raiseAs p src pay s).tow = s.tow := by simp only [raiseAs]; split <;> simp
@[simp] theorem raiseAs_rng (p : Producer) (src pay : Nat) (s : State) : (raiseAs p src pay s).rng = s.rng := by simp only [raiseAs]; split <;> simp
@[simp] theorem raiseAs_keyUsed (p : Producer) (src pay : Nat) (s : State) : (raiseAs p src pay s).keyUsed = s.keyUsed := by simp only [raiseAs]; split <;> simp
@[simp] theorem raiseAs_emu (p : Producer) (src pay : Nat) (s : State) : (raiseAs p src pay s).emu = s.emu := by simp only [raiseAs]; split <;> simp
@[simp] theorem raiseAs_peer (p : Producer) (src pay : Nat) (s : State) : (raiseAs p src pay s).peer = s.peer := by simp only [raiseAs]; split <;> simp
@[simp] theorem raiseAs_sam0 (p : Producer) (src pay : Nat) (s : State) : (raiseAs p src pay s).sam0 = s.sam0 := by simp only [raiseAs]; split <;> simp
@[simp] theorem raiseAs_sam1 (p : Producer) (src pay : Nat) (s : State) : (raiseAs p src pay s).sam1 = s.sam1 := by simp only [raiseAs]; split <;> simp
@[simp] theorem raiseAs_gpio (p : Producer) (src pay : Nat) (s : State) : (raiseAs p src pay s).gpio = s.gpio := by simp only [raiseAs]; split <;> simp
@[simp] theorem raiseAs_pins (p : Producer) (src pay : Nat) (s : State) : (raiseAs p src pay s).pins = s.pins := by simp only [raiseAs]; split <;> simp
@[simp] theorem raiseAs_therm (p : Producer) (src pay : Nat) (s : State) : (raiseAs p src pay s).therm = s.therm := by simp only [raiseAs]; split <;> simp
@[simp] theorem raiseAs_free (p : Producer) (src pay : Nat) (s : State) : (raiseAs p src pay s).free = s.free := by simp only [raiseAs]; split <;> simp

@[simp] theorem raise_pending (src pay : Nat) (s : State) : (raise src pay s).pending = s.pending := by simp [raise]
@[simp] theorem raise_time (src pay : Nat) (s : State) : (raise src pay s).time = s.time := by simp [raise]
@[simp] theorem raise_pwr (src pay : Nat) (s : State) : (raise src pay s).pwr = s.pwr := by simp [raise]
@[simp] theorem raise_clk (src pay : Nat) (s : State) : (raise src pay s).clk = s.clk := by simp [raise]
@[simp] theorem raise_nv (src pay : Nat) (s : State) : (raise src pay s).nv = s.nv := by simp [raise]
@[simp] theorem raise_fw (src pay : Nat) (s : State) : (raise src pay s).fw = s.fw := by simp [raise]
@[simp] theorem raise_portA (src pay : Nat) (s : State) : (raise src pay s).portA = s.portA := by simp [raise]
@[simp] theorem raise_portB (src pay : Nat) (s : State) : (raise src pay s).portB = s.portB := by simp [raise]
@[simp] theorem raise_basin (src pay : Nat) (s : State) : (raise src pay s).basin = s.basin := by simp [raise]
@[simp] theorem raise_pt (src pay : Nat) (s : State) : (raise src pay s).pt = s.pt := by simp [raise]
@[simp] theorem raise_tenants (src pay : Nat) (s : State) : (raise src pay s).tenants = s.tenants := by simp [raise]
@[simp] theorem raise_hfLease (src pay : Nat) (s : State) : (raise src pay s).hfLease = s.hfLease := by simp [raise]
@[simp] theorem raise_uhfLease (src pay : Nat) (s : State) : (raise src pay s).uhfLease = s.uhfLease := by simp [raise]
@[simp] theorem raise_queue (src pay : Nat) (s : State) : (raise src pay s).queue = s.queue := by simp [raise]
@[simp] theorem raise_packets (src pay : Nat) (s : State) : (raise src pay s).packets = s.packets := by simp [raise]
@[simp] theorem raise_visit (src pay : Nat) (s : State) : (raise src pay s).visit = s.visit := by simp [raise]
@[simp] theorem raise_hfLane (src pay : Nat) (s : State) : (raise src pay s).hfLane = s.hfLane := by simp [raise]
@[simp] theorem raise_uhfLane (src pay : Nat) (s : State) : (raise src pay s).uhfLane = s.uhfLane := by simp [raise]
@[simp] theorem raise_houseLane (src pay : Nat) (s : State) : (raise src pay s).houseLane = s.houseLane := by simp [raise]
@[simp] theorem raise_lock (src pay : Nat) (s : State) : (raise src pay s).lock = s.lock := by simp [raise]
@[simp] theorem raise_withdrawn (src pay : Nat) (s : State) : (raise src pay s).withdrawn = s.withdrawn := by simp [raise]
@[simp] theorem raise_cfg (src pay : Nat) (s : State) : (raise src pay s).cfg = s.cfg := by simp [raise]
@[simp] theorem raise_ic (src pay : Nat) (s : State) : (raise src pay s).ic = s.ic := by simp [raise]
@[simp] theorem raise_fence (src pay : Nat) (s : State) : (raise src pay s).fence = s.fence := by simp [raise]
@[simp] theorem raise_ctr (src pay : Nat) (s : State) : (raise src pay s).ctr = s.ctr := by simp [raise]
@[simp] theorem raise_contain (src pay : Nat) (s : State) : (raise src pay s).contain = s.contain := by simp [raise]
@[simp] theorem raise_hf (src pay : Nat) (s : State) : (raise src pay s).hf = s.hf := by simp [raise]
@[simp] theorem raise_uhf (src pay : Nat) (s : State) : (raise src pay s).uhf = s.uhf := by simp [raise]
@[simp] theorem raise_spec (src pay : Nat) (s : State) : (raise src pay s).spec = s.spec := by simp [raise]
@[simp] theorem raise_chr (src pay : Nat) (s : State) : (raise src pay s).chr = s.chr := by simp [raise]
@[simp] theorem raise_capHf (src pay : Nat) (s : State) : (raise src pay s).capHf = s.capHf := by simp [raise]
@[simp] theorem raise_capUhf (src pay : Nat) (s : State) : (raise src pay s).capUhf = s.capUhf := by simp [raise]
@[simp] theorem raise_cal (src pay : Nat) (s : State) : (raise src pay s).cal = s.cal := by simp [raise]
@[simp] theorem raise_tow (src pay : Nat) (s : State) : (raise src pay s).tow = s.tow := by simp [raise]
@[simp] theorem raise_rng (src pay : Nat) (s : State) : (raise src pay s).rng = s.rng := by simp [raise]
@[simp] theorem raise_keyUsed (src pay : Nat) (s : State) : (raise src pay s).keyUsed = s.keyUsed := by simp [raise]
@[simp] theorem raise_emu (src pay : Nat) (s : State) : (raise src pay s).emu = s.emu := by simp [raise]
@[simp] theorem raise_peer (src pay : Nat) (s : State) : (raise src pay s).peer = s.peer := by simp [raise]
@[simp] theorem raise_sam0 (src pay : Nat) (s : State) : (raise src pay s).sam0 = s.sam0 := by simp [raise]
@[simp] theorem raise_sam1 (src pay : Nat) (s : State) : (raise src pay s).sam1 = s.sam1 := by simp [raise]
@[simp] theorem raise_gpio (src pay : Nat) (s : State) : (raise src pay s).gpio = s.gpio := by simp [raise]
@[simp] theorem raise_pins (src pay : Nat) (s : State) : (raise src pay s).pins = s.pins := by simp [raise]
@[simp] theorem raise_therm (src pay : Nat) (s : State) : (raise src pay s).therm = s.therm := by simp [raise]
@[simp] theorem raise_free (src pay : Nat) (s : State) : (raise src pay s).free = s.free := by simp [raise]

@[simp] theorem ctrAdd_pending (id n : Nat) (s : State) : (ctrAdd id n s).pending = s.pending := by simp only [ctrAdd]; split <;> simp
@[simp] theorem ctrAdd_time (id n : Nat) (s : State) : (ctrAdd id n s).time = s.time := by simp only [ctrAdd]; split <;> simp
@[simp] theorem ctrAdd_pwr (id n : Nat) (s : State) : (ctrAdd id n s).pwr = s.pwr := by simp only [ctrAdd]; split <;> simp
@[simp] theorem ctrAdd_clk (id n : Nat) (s : State) : (ctrAdd id n s).clk = s.clk := by simp only [ctrAdd]; split <;> simp
@[simp] theorem ctrAdd_nv (id n : Nat) (s : State) : (ctrAdd id n s).nv = s.nv := by simp only [ctrAdd]; split <;> simp
@[simp] theorem ctrAdd_fw (id n : Nat) (s : State) : (ctrAdd id n s).fw = s.fw := by simp only [ctrAdd]; split <;> simp
@[simp] theorem ctrAdd_portA (id n : Nat) (s : State) : (ctrAdd id n s).portA = s.portA := by simp only [ctrAdd]; split <;> simp
@[simp] theorem ctrAdd_portB (id n : Nat) (s : State) : (ctrAdd id n s).portB = s.portB := by simp only [ctrAdd]; split <;> simp
@[simp] theorem ctrAdd_basin (id n : Nat) (s : State) : (ctrAdd id n s).basin = s.basin := by simp only [ctrAdd]; split <;> simp
@[simp] theorem ctrAdd_pt (id n : Nat) (s : State) : (ctrAdd id n s).pt = s.pt := by simp only [ctrAdd]; split <;> simp
@[simp] theorem ctrAdd_tenants (id n : Nat) (s : State) : (ctrAdd id n s).tenants = s.tenants := by simp only [ctrAdd]; split <;> simp
@[simp] theorem ctrAdd_hfLease (id n : Nat) (s : State) : (ctrAdd id n s).hfLease = s.hfLease := by simp only [ctrAdd]; split <;> simp
@[simp] theorem ctrAdd_uhfLease (id n : Nat) (s : State) : (ctrAdd id n s).uhfLease = s.uhfLease := by simp only [ctrAdd]; split <;> simp
@[simp] theorem ctrAdd_queue (id n : Nat) (s : State) : (ctrAdd id n s).queue = s.queue := by simp only [ctrAdd]; split <;> simp
@[simp] theorem ctrAdd_packets (id n : Nat) (s : State) : (ctrAdd id n s).packets = s.packets := by simp only [ctrAdd]; split <;> simp
@[simp] theorem ctrAdd_visit (id n : Nat) (s : State) : (ctrAdd id n s).visit = s.visit := by simp only [ctrAdd]; split <;> simp
@[simp] theorem ctrAdd_hfLane (id n : Nat) (s : State) : (ctrAdd id n s).hfLane = s.hfLane := by simp only [ctrAdd]; split <;> simp
@[simp] theorem ctrAdd_uhfLane (id n : Nat) (s : State) : (ctrAdd id n s).uhfLane = s.uhfLane := by simp only [ctrAdd]; split <;> simp
@[simp] theorem ctrAdd_houseLane (id n : Nat) (s : State) : (ctrAdd id n s).houseLane = s.houseLane := by simp only [ctrAdd]; split <;> simp
@[simp] theorem ctrAdd_lock (id n : Nat) (s : State) : (ctrAdd id n s).lock = s.lock := by simp only [ctrAdd]; split <;> simp
@[simp] theorem ctrAdd_withdrawn (id n : Nat) (s : State) : (ctrAdd id n s).withdrawn = s.withdrawn := by simp only [ctrAdd]; split <;> simp
@[simp] theorem ctrAdd_cfg (id n : Nat) (s : State) : (ctrAdd id n s).cfg = s.cfg := by simp only [ctrAdd]; split <;> simp
@[simp] theorem ctrAdd_ic (id n : Nat) (s : State) : (ctrAdd id n s).ic = s.ic := by simp only [ctrAdd]; split <;> simp
@[simp] theorem ctrAdd_fence (id n : Nat) (s : State) : (ctrAdd id n s).fence = s.fence := by simp only [ctrAdd]; split <;> simp
@[simp] theorem ctrAdd_contain (id n : Nat) (s : State) : (ctrAdd id n s).contain = s.contain := by simp only [ctrAdd]; split <;> simp
@[simp] theorem ctrAdd_hf (id n : Nat) (s : State) : (ctrAdd id n s).hf = s.hf := by simp only [ctrAdd]; split <;> simp
@[simp] theorem ctrAdd_uhf (id n : Nat) (s : State) : (ctrAdd id n s).uhf = s.uhf := by simp only [ctrAdd]; split <;> simp
@[simp] theorem ctrAdd_spec (id n : Nat) (s : State) : (ctrAdd id n s).spec = s.spec := by simp only [ctrAdd]; split <;> simp
@[simp] theorem ctrAdd_chr (id n : Nat) (s : State) : (ctrAdd id n s).chr = s.chr := by simp only [ctrAdd]; split <;> simp
@[simp] theorem ctrAdd_capHf (id n : Nat) (s : State) : (ctrAdd id n s).capHf = s.capHf := by simp only [ctrAdd]; split <;> simp
@[simp] theorem ctrAdd_capUhf (id n : Nat) (s : State) : (ctrAdd id n s).capUhf = s.capUhf := by simp only [ctrAdd]; split <;> simp
@[simp] theorem ctrAdd_cal (id n : Nat) (s : State) : (ctrAdd id n s).cal = s.cal := by simp only [ctrAdd]; split <;> simp
@[simp] theorem ctrAdd_tow (id n : Nat) (s : State) : (ctrAdd id n s).tow = s.tow := by simp only [ctrAdd]; split <;> simp
@[simp] theorem ctrAdd_rng (id n : Nat) (s : State) : (ctrAdd id n s).rng = s.rng := by simp only [ctrAdd]; split <;> simp
@[simp] theorem ctrAdd_keyUsed (id n : Nat) (s : State) : (ctrAdd id n s).keyUsed = s.keyUsed := by simp only [ctrAdd]; split <;> simp
@[simp] theorem ctrAdd_emu (id n : Nat) (s : State) : (ctrAdd id n s).emu = s.emu := by simp only [ctrAdd]; split <;> simp
@[simp] theorem ctrAdd_peer (id n : Nat) (s : State) : (ctrAdd id n s).peer = s.peer := by simp only [ctrAdd]; split <;> simp
@[simp] theorem ctrAdd_sam0 (id n : Nat) (s : State) : (ctrAdd id n s).sam0 = s.sam0 := by simp only [ctrAdd]; split <;> simp
@[simp] theorem ctrAdd_sam1 (id n : Nat) (s : State) : (ctrAdd id n s).sam1 = s.sam1 := by simp only [ctrAdd]; split <;> simp
@[simp] theorem ctrAdd_gpio (id n : Nat) (s : State) : (ctrAdd id n s).gpio = s.gpio := by simp only [ctrAdd]; split <;> simp
@[simp] theorem ctrAdd_pins (id n : Nat) (s : State) : (ctrAdd id n s).pins = s.pins := by simp only [ctrAdd]; split <;> simp
@[simp] theorem ctrAdd_therm (id n : Nat) (s : State) : (ctrAdd id n s).therm = s.therm := by simp only [ctrAdd]; split <;> simp
@[simp] theorem ctrAdd_free (id n : Nat) (s : State) : (ctrAdd id n s).free = s.free := by simp only [ctrAdd]; split <;> simp

@[simp] theorem ctrClear_pending (id : Nat) (s : State) : (ctrClear id s).pending = s.pending := rfl
@[simp] theorem ctrClear_time (id : Nat) (s : State) : (ctrClear id s).time = s.time := rfl
@[simp] theorem ctrClear_pwr (id : Nat) (s : State) : (ctrClear id s).pwr = s.pwr := rfl
@[simp] theorem ctrClear_aon (id : Nat) (s : State) : (ctrClear id s).aon = s.aon := rfl
@[simp] theorem ctrClear_clk (id : Nat) (s : State) : (ctrClear id s).clk = s.clk := rfl
@[simp] theorem ctrClear_nv (id : Nat) (s : State) : (ctrClear id s).nv = s.nv := rfl
@[simp] theorem ctrClear_fw (id : Nat) (s : State) : (ctrClear id s).fw = s.fw := rfl
@[simp] theorem ctrClear_portA (id : Nat) (s : State) : (ctrClear id s).portA = s.portA := rfl
@[simp] theorem ctrClear_portB (id : Nat) (s : State) : (ctrClear id s).portB = s.portB := rfl
@[simp] theorem ctrClear_basin (id : Nat) (s : State) : (ctrClear id s).basin = s.basin := rfl
@[simp] theorem ctrClear_pt (id : Nat) (s : State) : (ctrClear id s).pt = s.pt := rfl
@[simp] theorem ctrClear_tenants (id : Nat) (s : State) : (ctrClear id s).tenants = s.tenants := rfl
@[simp] theorem ctrClear_hfLease (id : Nat) (s : State) : (ctrClear id s).hfLease = s.hfLease := rfl
@[simp] theorem ctrClear_uhfLease (id : Nat) (s : State) : (ctrClear id s).uhfLease = s.uhfLease := rfl
@[simp] theorem ctrClear_queue (id : Nat) (s : State) : (ctrClear id s).queue = s.queue := rfl
@[simp] theorem ctrClear_packets (id : Nat) (s : State) : (ctrClear id s).packets = s.packets := rfl
@[simp] theorem ctrClear_visit (id : Nat) (s : State) : (ctrClear id s).visit = s.visit := rfl
@[simp] theorem ctrClear_hfLane (id : Nat) (s : State) : (ctrClear id s).hfLane = s.hfLane := rfl
@[simp] theorem ctrClear_uhfLane (id : Nat) (s : State) : (ctrClear id s).uhfLane = s.uhfLane := rfl
@[simp] theorem ctrClear_houseLane (id : Nat) (s : State) : (ctrClear id s).houseLane = s.houseLane := rfl
@[simp] theorem ctrClear_lock (id : Nat) (s : State) : (ctrClear id s).lock = s.lock := rfl
@[simp] theorem ctrClear_withdrawn (id : Nat) (s : State) : (ctrClear id s).withdrawn = s.withdrawn := rfl
@[simp] theorem ctrClear_cfg (id : Nat) (s : State) : (ctrClear id s).cfg = s.cfg := rfl
@[simp] theorem ctrClear_ic (id : Nat) (s : State) : (ctrClear id s).ic = s.ic := rfl
@[simp] theorem ctrClear_fab (id : Nat) (s : State) : (ctrClear id s).fab = s.fab := rfl
@[simp] theorem ctrClear_fence (id : Nat) (s : State) : (ctrClear id s).fence = s.fence := rfl
@[simp] theorem ctrClear_contain (id : Nat) (s : State) : (ctrClear id s).contain = s.contain := rfl
@[simp] theorem ctrClear_hf (id : Nat) (s : State) : (ctrClear id s).hf = s.hf := rfl
@[simp] theorem ctrClear_uhf (id : Nat) (s : State) : (ctrClear id s).uhf = s.uhf := rfl
@[simp] theorem ctrClear_spec (id : Nat) (s : State) : (ctrClear id s).spec = s.spec := rfl
@[simp] theorem ctrClear_chr (id : Nat) (s : State) : (ctrClear id s).chr = s.chr := rfl
@[simp] theorem ctrClear_capHf (id : Nat) (s : State) : (ctrClear id s).capHf = s.capHf := rfl
@[simp] theorem ctrClear_capUhf (id : Nat) (s : State) : (ctrClear id s).capUhf = s.capUhf := rfl
@[simp] theorem ctrClear_cal (id : Nat) (s : State) : (ctrClear id s).cal = s.cal := rfl
@[simp] theorem ctrClear_tow (id : Nat) (s : State) : (ctrClear id s).tow = s.tow := rfl
@[simp] theorem ctrClear_rng (id : Nat) (s : State) : (ctrClear id s).rng = s.rng := rfl
@[simp] theorem ctrClear_keyUsed (id : Nat) (s : State) : (ctrClear id s).keyUsed = s.keyUsed := rfl
@[simp] theorem ctrClear_emu (id : Nat) (s : State) : (ctrClear id s).emu = s.emu := rfl
@[simp] theorem ctrClear_peer (id : Nat) (s : State) : (ctrClear id s).peer = s.peer := rfl
@[simp] theorem ctrClear_sam0 (id : Nat) (s : State) : (ctrClear id s).sam0 = s.sam0 := rfl
@[simp] theorem ctrClear_sam1 (id : Nat) (s : State) : (ctrClear id s).sam1 = s.sam1 := rfl
@[simp] theorem ctrClear_gpio (id : Nat) (s : State) : (ctrClear id s).gpio = s.gpio := rfl
@[simp] theorem ctrClear_pins (id : Nat) (s : State) : (ctrClear id s).pins = s.pins := rfl
@[simp] theorem ctrClear_therm (id : Nat) (s : State) : (ctrClear id s).therm = s.therm := rfl
@[simp] theorem ctrClear_free (id : Nat) (s : State) : (ctrClear id s).free = s.free := rfl

@[simp] theorem accessFault_pending (p : Port) (w : Bool) (k a : Nat) (s : State) : (accessFault p w k a s).pending = s.pending := by simp [accessFault]
@[simp] theorem accessFault_time (p : Port) (w : Bool) (k a : Nat) (s : State) : (accessFault p w k a s).time = s.time := by simp [accessFault]
@[simp] theorem accessFault_pwr (p : Port) (w : Bool) (k a : Nat) (s : State) : (accessFault p w k a s).pwr = s.pwr := by simp [accessFault]
@[simp] theorem accessFault_clk (p : Port) (w : Bool) (k a : Nat) (s : State) : (accessFault p w k a s).clk = s.clk := by simp [accessFault]
@[simp] theorem accessFault_nv (p : Port) (w : Bool) (k a : Nat) (s : State) : (accessFault p w k a s).nv = s.nv := by simp [accessFault]
@[simp] theorem accessFault_fw (p : Port) (w : Bool) (k a : Nat) (s : State) : (accessFault p w k a s).fw = s.fw := by simp [accessFault]
@[simp] theorem accessFault_portA (p : Port) (w : Bool) (k a : Nat) (s : State) : (accessFault p w k a s).portA = s.portA := by simp [accessFault]
@[simp] theorem accessFault_portB (p : Port) (w : Bool) (k a : Nat) (s : State) : (accessFault p w k a s).portB = s.portB := by simp [accessFault]
@[simp] theorem accessFault_basin (p : Port) (w : Bool) (k a : Nat) (s : State) : (accessFault p w k a s).basin = s.basin := by simp [accessFault]
@[simp] theorem accessFault_pt (p : Port) (w : Bool) (k a : Nat) (s : State) : (accessFault p w k a s).pt = s.pt := by simp [accessFault]
@[simp] theorem accessFault_tenants (p : Port) (w : Bool) (k a : Nat) (s : State) : (accessFault p w k a s).tenants = s.tenants := by simp [accessFault]
@[simp] theorem accessFault_hfLease (p : Port) (w : Bool) (k a : Nat) (s : State) : (accessFault p w k a s).hfLease = s.hfLease := by simp [accessFault]
@[simp] theorem accessFault_uhfLease (p : Port) (w : Bool) (k a : Nat) (s : State) : (accessFault p w k a s).uhfLease = s.uhfLease := by simp [accessFault]
@[simp] theorem accessFault_queue (p : Port) (w : Bool) (k a : Nat) (s : State) : (accessFault p w k a s).queue = s.queue := by simp [accessFault]
@[simp] theorem accessFault_packets (p : Port) (w : Bool) (k a : Nat) (s : State) : (accessFault p w k a s).packets = s.packets := by simp [accessFault]
@[simp] theorem accessFault_visit (p : Port) (w : Bool) (k a : Nat) (s : State) : (accessFault p w k a s).visit = s.visit := by simp [accessFault]
@[simp] theorem accessFault_hfLane (p : Port) (w : Bool) (k a : Nat) (s : State) : (accessFault p w k a s).hfLane = s.hfLane := by simp [accessFault]
@[simp] theorem accessFault_uhfLane (p : Port) (w : Bool) (k a : Nat) (s : State) : (accessFault p w k a s).uhfLane = s.uhfLane := by simp [accessFault]
@[simp] theorem accessFault_houseLane (p : Port) (w : Bool) (k a : Nat) (s : State) : (accessFault p w k a s).houseLane = s.houseLane := by simp [accessFault]
@[simp] theorem accessFault_lock (p : Port) (w : Bool) (k a : Nat) (s : State) : (accessFault p w k a s).lock = s.lock := by simp [accessFault]
@[simp] theorem accessFault_withdrawn (p : Port) (w : Bool) (k a : Nat) (s : State) : (accessFault p w k a s).withdrawn = s.withdrawn := by simp [accessFault]
@[simp] theorem accessFault_cfg (p : Port) (w : Bool) (k a : Nat) (s : State) : (accessFault p w k a s).cfg = s.cfg := by simp [accessFault]
@[simp] theorem accessFault_ic (p : Port) (w : Bool) (k a : Nat) (s : State) : (accessFault p w k a s).ic = s.ic := by simp [accessFault]
@[simp] theorem accessFault_fence (p : Port) (w : Bool) (k a : Nat) (s : State) : (accessFault p w k a s).fence = s.fence := by simp [accessFault]
@[simp] theorem accessFault_contain (p : Port) (w : Bool) (k a : Nat) (s : State) : (accessFault p w k a s).contain = s.contain := by simp [accessFault]
@[simp] theorem accessFault_hf (p : Port) (w : Bool) (k a : Nat) (s : State) : (accessFault p w k a s).hf = s.hf := by simp [accessFault]
@[simp] theorem accessFault_uhf (p : Port) (w : Bool) (k a : Nat) (s : State) : (accessFault p w k a s).uhf = s.uhf := by simp [accessFault]
@[simp] theorem accessFault_spec (p : Port) (w : Bool) (k a : Nat) (s : State) : (accessFault p w k a s).spec = s.spec := by simp [accessFault]
@[simp] theorem accessFault_chr (p : Port) (w : Bool) (k a : Nat) (s : State) : (accessFault p w k a s).chr = s.chr := by simp [accessFault]
@[simp] theorem accessFault_capHf (p : Port) (w : Bool) (k a : Nat) (s : State) : (accessFault p w k a s).capHf = s.capHf := by simp [accessFault]
@[simp] theorem accessFault_capUhf (p : Port) (w : Bool) (k a : Nat) (s : State) : (accessFault p w k a s).capUhf = s.capUhf := by simp [accessFault]
@[simp] theorem accessFault_cal (p : Port) (w : Bool) (k a : Nat) (s : State) : (accessFault p w k a s).cal = s.cal := by simp [accessFault]
@[simp] theorem accessFault_tow (p : Port) (w : Bool) (k a : Nat) (s : State) : (accessFault p w k a s).tow = s.tow := by simp [accessFault]
@[simp] theorem accessFault_rng (p : Port) (w : Bool) (k a : Nat) (s : State) : (accessFault p w k a s).rng = s.rng := by simp [accessFault]
@[simp] theorem accessFault_keyUsed (p : Port) (w : Bool) (k a : Nat) (s : State) : (accessFault p w k a s).keyUsed = s.keyUsed := by simp [accessFault]
@[simp] theorem accessFault_emu (p : Port) (w : Bool) (k a : Nat) (s : State) : (accessFault p w k a s).emu = s.emu := by simp [accessFault]
@[simp] theorem accessFault_peer (p : Port) (w : Bool) (k a : Nat) (s : State) : (accessFault p w k a s).peer = s.peer := by simp [accessFault]
@[simp] theorem accessFault_sam0 (p : Port) (w : Bool) (k a : Nat) (s : State) : (accessFault p w k a s).sam0 = s.sam0 := by simp [accessFault]
@[simp] theorem accessFault_sam1 (p : Port) (w : Bool) (k a : Nat) (s : State) : (accessFault p w k a s).sam1 = s.sam1 := by simp [accessFault]
@[simp] theorem accessFault_gpio (p : Port) (w : Bool) (k a : Nat) (s : State) : (accessFault p w k a s).gpio = s.gpio := by simp [accessFault]
@[simp] theorem accessFault_pins (p : Port) (w : Bool) (k a : Nat) (s : State) : (accessFault p w k a s).pins = s.pins := by simp [accessFault]
@[simp] theorem accessFault_therm (p : Port) (w : Bool) (k a : Nat) (s : State) : (accessFault p w k a s).therm = s.therm := by simp [accessFault]
@[simp] theorem accessFault_free (p : Port) (w : Bool) (k a : Nat) (s : State) : (accessFault p w k a s).free = s.free := by simp [accessFault]

@[simp] theorem clampEvent_pending (id : Nat) (s : State) : (clampEvent id s).pending = s.pending := by simp [clampEvent]
@[simp] theorem clampEvent_time (id : Nat) (s : State) : (clampEvent id s).time = s.time := by simp [clampEvent]
@[simp] theorem clampEvent_pwr (id : Nat) (s : State) : (clampEvent id s).pwr = s.pwr := by simp [clampEvent]
@[simp] theorem clampEvent_clk (id : Nat) (s : State) : (clampEvent id s).clk = s.clk := by simp [clampEvent]
@[simp] theorem clampEvent_nv (id : Nat) (s : State) : (clampEvent id s).nv = s.nv := by simp [clampEvent]
@[simp] theorem clampEvent_fw (id : Nat) (s : State) : (clampEvent id s).fw = s.fw := by simp [clampEvent]
@[simp] theorem clampEvent_portA (id : Nat) (s : State) : (clampEvent id s).portA = s.portA := by simp [clampEvent]
@[simp] theorem clampEvent_portB (id : Nat) (s : State) : (clampEvent id s).portB = s.portB := by simp [clampEvent]
@[simp] theorem clampEvent_basin (id : Nat) (s : State) : (clampEvent id s).basin = s.basin := by simp [clampEvent]
@[simp] theorem clampEvent_pt (id : Nat) (s : State) : (clampEvent id s).pt = s.pt := by simp [clampEvent]
@[simp] theorem clampEvent_tenants (id : Nat) (s : State) : (clampEvent id s).tenants = s.tenants := by simp [clampEvent]
@[simp] theorem clampEvent_hfLease (id : Nat) (s : State) : (clampEvent id s).hfLease = s.hfLease := by simp [clampEvent]
@[simp] theorem clampEvent_uhfLease (id : Nat) (s : State) : (clampEvent id s).uhfLease = s.uhfLease := by simp [clampEvent]
@[simp] theorem clampEvent_queue (id : Nat) (s : State) : (clampEvent id s).queue = s.queue := by simp [clampEvent]
@[simp] theorem clampEvent_packets (id : Nat) (s : State) : (clampEvent id s).packets = s.packets := by simp [clampEvent]
@[simp] theorem clampEvent_visit (id : Nat) (s : State) : (clampEvent id s).visit = s.visit := by simp [clampEvent]
@[simp] theorem clampEvent_hfLane (id : Nat) (s : State) : (clampEvent id s).hfLane = s.hfLane := by simp [clampEvent]
@[simp] theorem clampEvent_uhfLane (id : Nat) (s : State) : (clampEvent id s).uhfLane = s.uhfLane := by simp [clampEvent]
@[simp] theorem clampEvent_houseLane (id : Nat) (s : State) : (clampEvent id s).houseLane = s.houseLane := by simp [clampEvent]
@[simp] theorem clampEvent_lock (id : Nat) (s : State) : (clampEvent id s).lock = s.lock := by simp [clampEvent]
@[simp] theorem clampEvent_withdrawn (id : Nat) (s : State) : (clampEvent id s).withdrawn = s.withdrawn := by simp [clampEvent]
@[simp] theorem clampEvent_cfg (id : Nat) (s : State) : (clampEvent id s).cfg = s.cfg := by simp [clampEvent]
@[simp] theorem clampEvent_ic (id : Nat) (s : State) : (clampEvent id s).ic = s.ic := by simp [clampEvent]
@[simp] theorem clampEvent_fence (id : Nat) (s : State) : (clampEvent id s).fence = s.fence := by simp [clampEvent]
@[simp] theorem clampEvent_contain (id : Nat) (s : State) : (clampEvent id s).contain = s.contain := by simp [clampEvent]
@[simp] theorem clampEvent_hf (id : Nat) (s : State) : (clampEvent id s).hf = s.hf := by simp [clampEvent]
@[simp] theorem clampEvent_uhf (id : Nat) (s : State) : (clampEvent id s).uhf = s.uhf := by simp [clampEvent]
@[simp] theorem clampEvent_spec (id : Nat) (s : State) : (clampEvent id s).spec = s.spec := by simp [clampEvent]
@[simp] theorem clampEvent_chr (id : Nat) (s : State) : (clampEvent id s).chr = s.chr := by simp [clampEvent]
@[simp] theorem clampEvent_capHf (id : Nat) (s : State) : (clampEvent id s).capHf = s.capHf := by simp [clampEvent]
@[simp] theorem clampEvent_capUhf (id : Nat) (s : State) : (clampEvent id s).capUhf = s.capUhf := by simp [clampEvent]
@[simp] theorem clampEvent_cal (id : Nat) (s : State) : (clampEvent id s).cal = s.cal := by simp [clampEvent]
@[simp] theorem clampEvent_tow (id : Nat) (s : State) : (clampEvent id s).tow = s.tow := by simp [clampEvent]
@[simp] theorem clampEvent_rng (id : Nat) (s : State) : (clampEvent id s).rng = s.rng := by simp [clampEvent]
@[simp] theorem clampEvent_keyUsed (id : Nat) (s : State) : (clampEvent id s).keyUsed = s.keyUsed := by simp [clampEvent]
@[simp] theorem clampEvent_emu (id : Nat) (s : State) : (clampEvent id s).emu = s.emu := by simp [clampEvent]
@[simp] theorem clampEvent_peer (id : Nat) (s : State) : (clampEvent id s).peer = s.peer := by simp [clampEvent]
@[simp] theorem clampEvent_sam0 (id : Nat) (s : State) : (clampEvent id s).sam0 = s.sam0 := by simp [clampEvent]
@[simp] theorem clampEvent_sam1 (id : Nat) (s : State) : (clampEvent id s).sam1 = s.sam1 := by simp [clampEvent]
@[simp] theorem clampEvent_gpio (id : Nat) (s : State) : (clampEvent id s).gpio = s.gpio := by simp [clampEvent]
@[simp] theorem clampEvent_pins (id : Nat) (s : State) : (clampEvent id s).pins = s.pins := by simp [clampEvent]
@[simp] theorem clampEvent_therm (id : Nat) (s : State) : (clampEvent id s).therm = s.therm := by simp [clampEvent]
@[simp] theorem clampEvent_free (id : Nat) (s : State) : (clampEvent id s).free = s.free := by simp [clampEvent]

@[simp] theorem logRecord_pending (k c t y l : Nat) (s : State) : (logRecord k c t y l s).pending = s.pending := by simp only [logRecord]; split <;> simp
@[simp] theorem logRecord_time (k c t y l : Nat) (s : State) : (logRecord k c t y l s).time = s.time := by simp only [logRecord]; split <;> simp
@[simp] theorem logRecord_pwr (k c t y l : Nat) (s : State) : (logRecord k c t y l s).pwr = s.pwr := by simp only [logRecord]; split <;> simp
@[simp] theorem logRecord_clk (k c t y l : Nat) (s : State) : (logRecord k c t y l s).clk = s.clk := by simp only [logRecord]; split <;> simp
@[simp] theorem logRecord_fw (k c t y l : Nat) (s : State) : (logRecord k c t y l s).fw = s.fw := by simp only [logRecord]; split <;> simp
@[simp] theorem logRecord_portA (k c t y l : Nat) (s : State) : (logRecord k c t y l s).portA = s.portA := by simp only [logRecord]; split <;> simp
@[simp] theorem logRecord_portB (k c t y l : Nat) (s : State) : (logRecord k c t y l s).portB = s.portB := by simp only [logRecord]; split <;> simp
@[simp] theorem logRecord_basin (k c t y l : Nat) (s : State) : (logRecord k c t y l s).basin = s.basin := by simp only [logRecord]; split <;> simp
@[simp] theorem logRecord_pt (k c t y l : Nat) (s : State) : (logRecord k c t y l s).pt = s.pt := by simp only [logRecord]; split <;> simp
@[simp] theorem logRecord_tenants (k c t y l : Nat) (s : State) : (logRecord k c t y l s).tenants = s.tenants := by simp only [logRecord]; split <;> simp
@[simp] theorem logRecord_hfLease (k c t y l : Nat) (s : State) : (logRecord k c t y l s).hfLease = s.hfLease := by simp only [logRecord]; split <;> simp
@[simp] theorem logRecord_uhfLease (k c t y l : Nat) (s : State) : (logRecord k c t y l s).uhfLease = s.uhfLease := by simp only [logRecord]; split <;> simp
@[simp] theorem logRecord_queue (k c t y l : Nat) (s : State) : (logRecord k c t y l s).queue = s.queue := by simp only [logRecord]; split <;> simp
@[simp] theorem logRecord_packets (k c t y l : Nat) (s : State) : (logRecord k c t y l s).packets = s.packets := by simp only [logRecord]; split <;> simp
@[simp] theorem logRecord_visit (k c t y l : Nat) (s : State) : (logRecord k c t y l s).visit = s.visit := by simp only [logRecord]; split <;> simp
@[simp] theorem logRecord_hfLane (k c t y l : Nat) (s : State) : (logRecord k c t y l s).hfLane = s.hfLane := by simp only [logRecord]; split <;> simp
@[simp] theorem logRecord_uhfLane (k c t y l : Nat) (s : State) : (logRecord k c t y l s).uhfLane = s.uhfLane := by simp only [logRecord]; split <;> simp
@[simp] theorem logRecord_houseLane (k c t y l : Nat) (s : State) : (logRecord k c t y l s).houseLane = s.houseLane := by simp only [logRecord]; split <;> simp
@[simp] theorem logRecord_lock (k c t y l : Nat) (s : State) : (logRecord k c t y l s).lock = s.lock := by simp only [logRecord]; split <;> simp
@[simp] theorem logRecord_withdrawn (k c t y l : Nat) (s : State) : (logRecord k c t y l s).withdrawn = s.withdrawn := by simp only [logRecord]; split <;> simp
@[simp] theorem logRecord_cfg (k c t y l : Nat) (s : State) : (logRecord k c t y l s).cfg = s.cfg := by simp only [logRecord]; split <;> simp
@[simp] theorem logRecord_ic (k c t y l : Nat) (s : State) : (logRecord k c t y l s).ic = s.ic := by simp only [logRecord]; split <;> simp
@[simp] theorem logRecord_fence (k c t y l : Nat) (s : State) : (logRecord k c t y l s).fence = s.fence := by simp only [logRecord]; split <;> simp
@[simp] theorem logRecord_hf (k c t y l : Nat) (s : State) : (logRecord k c t y l s).hf = s.hf := by simp only [logRecord]; split <;> simp
@[simp] theorem logRecord_uhf (k c t y l : Nat) (s : State) : (logRecord k c t y l s).uhf = s.uhf := by simp only [logRecord]; split <;> simp
@[simp] theorem logRecord_spec (k c t y l : Nat) (s : State) : (logRecord k c t y l s).spec = s.spec := by simp only [logRecord]; split <;> simp
@[simp] theorem logRecord_chr (k c t y l : Nat) (s : State) : (logRecord k c t y l s).chr = s.chr := by simp only [logRecord]; split <;> simp
@[simp] theorem logRecord_capHf (k c t y l : Nat) (s : State) : (logRecord k c t y l s).capHf = s.capHf := by simp only [logRecord]; split <;> simp
@[simp] theorem logRecord_capUhf (k c t y l : Nat) (s : State) : (logRecord k c t y l s).capUhf = s.capUhf := by simp only [logRecord]; split <;> simp
@[simp] theorem logRecord_cal (k c t y l : Nat) (s : State) : (logRecord k c t y l s).cal = s.cal := by simp only [logRecord]; split <;> simp
@[simp] theorem logRecord_tow (k c t y l : Nat) (s : State) : (logRecord k c t y l s).tow = s.tow := by simp only [logRecord]; split <;> simp
@[simp] theorem logRecord_rng (k c t y l : Nat) (s : State) : (logRecord k c t y l s).rng = s.rng := by simp only [logRecord]; split <;> simp
@[simp] theorem logRecord_keyUsed (k c t y l : Nat) (s : State) : (logRecord k c t y l s).keyUsed = s.keyUsed := by simp only [logRecord]; split <;> simp
@[simp] theorem logRecord_emu (k c t y l : Nat) (s : State) : (logRecord k c t y l s).emu = s.emu := by simp only [logRecord]; split <;> simp
@[simp] theorem logRecord_peer (k c t y l : Nat) (s : State) : (logRecord k c t y l s).peer = s.peer := by simp only [logRecord]; split <;> simp
@[simp] theorem logRecord_sam0 (k c t y l : Nat) (s : State) : (logRecord k c t y l s).sam0 = s.sam0 := by simp only [logRecord]; split <;> simp
@[simp] theorem logRecord_sam1 (k c t y l : Nat) (s : State) : (logRecord k c t y l s).sam1 = s.sam1 := by simp only [logRecord]; split <;> simp
@[simp] theorem logRecord_gpio (k c t y l : Nat) (s : State) : (logRecord k c t y l s).gpio = s.gpio := by simp only [logRecord]; split <;> simp
@[simp] theorem logRecord_pins (k c t y l : Nat) (s : State) : (logRecord k c t y l s).pins = s.pins := by simp only [logRecord]; split <;> simp
@[simp] theorem logRecord_therm (k c t y l : Nat) (s : State) : (logRecord k c t y l s).therm = s.therm := by simp only [logRecord]; split <;> simp
@[simp] theorem logRecord_free (k c t y l : Nat) (s : State) : (logRecord k c t y l s).free = s.free := by simp only [logRecord]; split <;> simp

@[simp] theorem markFence_pending (u c d : Nat) (s : State) : (markFence u c d s).pending = s.pending := rfl
@[simp] theorem markFence_time (u c d : Nat) (s : State) : (markFence u c d s).time = s.time := rfl
@[simp] theorem markFence_pwr (u c d : Nat) (s : State) : (markFence u c d s).pwr = s.pwr := rfl
@[simp] theorem markFence_clk (u c d : Nat) (s : State) : (markFence u c d s).clk = s.clk := rfl
@[simp] theorem markFence_nv (u c d : Nat) (s : State) : (markFence u c d s).nv = s.nv := rfl
@[simp] theorem markFence_fw (u c d : Nat) (s : State) : (markFence u c d s).fw = s.fw := rfl
@[simp] theorem markFence_portA (u c d : Nat) (s : State) : (markFence u c d s).portA = s.portA := rfl
@[simp] theorem markFence_portB (u c d : Nat) (s : State) : (markFence u c d s).portB = s.portB := rfl
@[simp] theorem markFence_basin (u c d : Nat) (s : State) : (markFence u c d s).basin = s.basin := rfl
@[simp] theorem markFence_pt (u c d : Nat) (s : State) : (markFence u c d s).pt = s.pt := rfl
@[simp] theorem markFence_tenants (u c d : Nat) (s : State) : (markFence u c d s).tenants = s.tenants := rfl
@[simp] theorem markFence_hfLease (u c d : Nat) (s : State) : (markFence u c d s).hfLease = s.hfLease := rfl
@[simp] theorem markFence_uhfLease (u c d : Nat) (s : State) : (markFence u c d s).uhfLease = s.uhfLease := rfl
@[simp] theorem markFence_queue (u c d : Nat) (s : State) : (markFence u c d s).queue = s.queue := rfl
@[simp] theorem markFence_packets (u c d : Nat) (s : State) : (markFence u c d s).packets = s.packets := rfl
@[simp] theorem markFence_visit (u c d : Nat) (s : State) : (markFence u c d s).visit = s.visit := rfl
@[simp] theorem markFence_hfLane (u c d : Nat) (s : State) : (markFence u c d s).hfLane = s.hfLane := rfl
@[simp] theorem markFence_uhfLane (u c d : Nat) (s : State) : (markFence u c d s).uhfLane = s.uhfLane := rfl
@[simp] theorem markFence_houseLane (u c d : Nat) (s : State) : (markFence u c d s).houseLane = s.houseLane := rfl
@[simp] theorem markFence_lock (u c d : Nat) (s : State) : (markFence u c d s).lock = s.lock := rfl
@[simp] theorem markFence_withdrawn (u c d : Nat) (s : State) : (markFence u c d s).withdrawn = s.withdrawn := rfl
@[simp] theorem markFence_cfg (u c d : Nat) (s : State) : (markFence u c d s).cfg = s.cfg := rfl
@[simp] theorem markFence_ic (u c d : Nat) (s : State) : (markFence u c d s).ic = s.ic := rfl
@[simp] theorem markFence_fab (u c d : Nat) (s : State) : (markFence u c d s).fab = s.fab := rfl
@[simp] theorem markFence_ctr (u c d : Nat) (s : State) : (markFence u c d s).ctr = s.ctr := rfl
@[simp] theorem markFence_contain (u c d : Nat) (s : State) : (markFence u c d s).contain = s.contain := rfl
@[simp] theorem markFence_hf (u c d : Nat) (s : State) : (markFence u c d s).hf = s.hf := rfl
@[simp] theorem markFence_uhf (u c d : Nat) (s : State) : (markFence u c d s).uhf = s.uhf := rfl
@[simp] theorem markFence_spec (u c d : Nat) (s : State) : (markFence u c d s).spec = s.spec := rfl
@[simp] theorem markFence_chr (u c d : Nat) (s : State) : (markFence u c d s).chr = s.chr := rfl
@[simp] theorem markFence_capHf (u c d : Nat) (s : State) : (markFence u c d s).capHf = s.capHf := rfl
@[simp] theorem markFence_capUhf (u c d : Nat) (s : State) : (markFence u c d s).capUhf = s.capUhf := rfl
@[simp] theorem markFence_cal (u c d : Nat) (s : State) : (markFence u c d s).cal = s.cal := rfl
@[simp] theorem markFence_tow (u c d : Nat) (s : State) : (markFence u c d s).tow = s.tow := rfl
@[simp] theorem markFence_rng (u c d : Nat) (s : State) : (markFence u c d s).rng = s.rng := rfl
@[simp] theorem markFence_keyUsed (u c d : Nat) (s : State) : (markFence u c d s).keyUsed = s.keyUsed := rfl
@[simp] theorem markFence_emu (u c d : Nat) (s : State) : (markFence u c d s).emu = s.emu := rfl
@[simp] theorem markFence_peer (u c d : Nat) (s : State) : (markFence u c d s).peer = s.peer := rfl
@[simp] theorem markFence_sam0 (u c d : Nat) (s : State) : (markFence u c d s).sam0 = s.sam0 := rfl
@[simp] theorem markFence_sam1 (u c d : Nat) (s : State) : (markFence u c d s).sam1 = s.sam1 := rfl
@[simp] theorem markFence_gpio (u c d : Nat) (s : State) : (markFence u c d s).gpio = s.gpio := rfl
@[simp] theorem markFence_pins (u c d : Nat) (s : State) : (markFence u c d s).pins = s.pins := rfl
@[simp] theorem markFence_therm (u c d : Nat) (s : State) : (markFence u c d s).therm = s.therm := rfl
@[simp] theorem markFence_free (u c d : Nat) (s : State) : (markFence u c d s).free = s.free := rfl

/-! ## What a doorbell, a counter and a log record add -/

/-- A doorbell reaches the fabric or the AON queue, and of AON only the queue changes. -/
theorem raise_eq (src pay : Nat) (s : State) :
    raise src pay s = { s with
      fab := (raise src pay s).fab
      aon := { s.aon with queue := (raise src pay s).aon.queue } } := by
  simp only [raise, raiseAs]
  split
  · simp only [State.onAon]
    split <;> rfl
  · rfl

/-- Of the fabric a doorbell changes the queues alone, and while CK-FAB stands nothing. -/
theorem raise_fab_stopped (src pay : Nat) (s : State) (h : fabStopped s = true) : (raise src pay s).fab = s.fab := by
  simp [raise, raiseAs, h]

theorem raise_aon_running (src pay : Nat) (s : State) (h : fabStopped s = false) :
    (raise src pay s).aon = s.aon := by
  simp [raise, raiseAs, h]

@[simp] theorem fabStopped_raise (src pay : Nat) (s : State) : fabStopped (raise src pay s) = fabStopped s := by
  simp [fabStopped]

@[simp] theorem fabStopped_ctrAdd (id n : Nat) (s : State) : fabStopped (ctrAdd id n s) = fabStopped s := by
  simp [fabStopped]

/-- A record that finds room waits behind the others; one that finds 16 leaves the queue as it is (R781). -/
theorem logRecord_room (k c t y l : Nat) (s : State) (h : s.contain.queue.length < 16) :
    (logRecord k c t y l s).contain.queue.length = s.contain.queue.length + 1 ∧
      (logRecord k c t y l s).ctr = s.ctr := by
  simp [logRecord, h]

theorem logRecord_full (k c t y l : Nat) (s : State) (h : 16 ≤ s.contain.queue.length) :
    (logRecord k c t y l s).contain.queue = s.contain.queue := by
  simp [logRecord, Nat.not_lt.2 h]

/-! ## Who starts -/

/-- A row whose lane runs no fresh packet of its opcode changes nothing. -/
theorem onFresh_idle (l : LaneId) (op : Nat) (f : Exec → State → State) (s : State) (h : freshOn s l op = none) :
    onFresh l op f s = s := by
  simp [onFresh, h]

end Sys2Proof.Machine
end

