-- ==== Sys2Proof/Tests/Slice0.lean ====
section
/-! SUPPORT. Small states for tests, the ill-formed terms that each check of WellFormed refuses, and single steps
whose results stand in the manual. -/

namespace Sys2Proof.Tests

open Sys2Proof Sys2Proof.Machine

/-! ## Small states -/

def bytes (xs : List Nat) : List Byte := xs.map (BitVec.ofNat 8)

/-- The part in RUN one second after reset, both ports up. -/
def running : State := { State.reset with
  time := 1000000
  pwr := { Pwr.reset with state := .run }
  portA := { PortSt.reset with vio := true }
  portB := { PortSt.reset with vio := true } }

def pkt (op n : Nat) (ps : List Byte) : Packet := ⟨7, n, op, false, false, 1, 0, 0, ps, 0⟩

/-- A packet of tenant `n` just admitted. -/
def fresh (op n : Nat) (ps : List Byte) : Exec :=
  { pkt := pkt op n ps, start := 0, slice := 0, sliceOver := false, suspended := false, towpath := false, clamps := []
    stop := none, partialBody := [], phase := .fresh, parked := false, slot := none, used := 0, prior := none
    admitted := 0 }

def withExec (l : LaneId) (e : Exec) (s : State) : State := onLane l (fun x => { x with exec := some e }) s

/-- A Keeper's packet on the house lane of the running part. -/
def house (op : Nat) (ps : List Byte) : State := withExec .house (fresh op 0 ps) running

/-- Bytes of an address and of a word as R164 transfers them. -/
def addrBytes (a : Nat) : List Byte := (le 4 a).reverse
def wordBytes (w : Nat) : List Byte := le 4 w

def nextState : Host.Outcome State Fault Refusal → State
  | .next s => s
  | _ => State.reset

/-! ## Each check of WellFormed refuses an ill-formed term -/

def env0 : StartEnv := ⟨[], true, true, true, false, 0, false, [], 0, 24000⟩

theorem test_wf_supply : (Instr.powerOnReset 72000).wellFormed = true ∧ (Instr.powerOnReset 72001).wellFormed = false ∧
    (Instr.vinBelowThreshold 72001).wellFormed = false ∧ (Instr.vinEarlyWarn 72001).wellFormed = false ∧
    (Instr.vinAboveHysteresis 72001).wellFormed = false ∧ (Instr.vinRecovered 72001).wellFormed = false := by decide
theorem test_wf_start : (Instr.startUp env0).wellFormed = true ∧
    (Instr.startUp { env0 with vin := 72001 }).wellFormed = false ∧
    (Instr.startUp { env0 with failed := [14] }).wellFormed = false ∧
    (Instr.startUp { env0 with nvBad := [0x100000] }).wellFormed = false := by decide
theorem test_wf_watchdog : (Instr.watchdogReset 3 0).wellFormed = false ∧
    (Instr.watchdogReset 0 4).wellFormed = false := by decide
theorem test_wf_ports : (Instr.portWrite .a (List.replicate 5 0) [0] [] false).wellFormed = false ∧
    (Instr.portRead .a [0, 0, 0, 0] [] (2 ^ 20 + 1) .whole false).wellFormed = false ∧
    (Instr.portRead .b [0, 0, 0] (List.replicate 8 true) 0 .whole false).wellFormed = false ∧
    (Instr.portBadCommand .a [1, 2, 3] false).wellFormed = false ∧
    (Instr.reservedAccess .a (2 ^ 32) true).wellFormed = false ∧
    (Instr.registerWrite .a (2 ^ 32) 0).wellFormed = false := by decide
theorem test_wf_tenants : (Instr.cmdProdWrite .a 8 0).wellFormed = false ∧
    (Instr.rplConsWrite .a 8 0).wellFormed = false ∧ (Instr.evtConsWrite .a 8 0).wellFormed = false ∧
    (Instr.icEvtdropRead .a 8).wellFormed = false := by decide
theorem test_wf_sources : (Instr.coalesceTimeout 128).wellFormed = false ∧
    (Instr.icSrcWrite .a 128 0).wellFormed = false ∧ (Instr.icPendWrite .a 4 0).wellFormed = false ∧
    (Instr.icMaskWrite .a 4 0).wellFormed = false := by decide
theorem test_wf_targets : (Instr.icClaimRead .a 4).wellFormed = false ∧
    (Instr.icEoiWrite .a 4 0).wellFormed = false ∧ (Instr.icTstatRead .a 4).wellFormed = false := by decide
theorem test_wf_units : (Instr.unfence [14]).wellFormed = false ∧ (Instr.fenceEntry 14 1).wellFormed = false ∧
    (Instr.fenceEntry 0 0).wellFormed = false ∧ (Instr.fenceEntry 0 17).wellFormed = false := by decide
theorem test_wf_rf : (Instr.powerLoopLimit 65).wellFormed = false ∧
    (Instr.lpcdMeasurement 256 0).wellFormed = false ∧ (Instr.lpcdMeasurement 0 64).wellFormed = false ∧
    (Instr.agcWindow .hf 8192 false false).wellFormed = false ∧
    (Instr.externalFieldDetected 8192).wellFormed = false ∧
    (Instr.fieldRiseDone 0 1024).wellFormed = false ∧ (Instr.maskCheckDone [(0, 0)]).wellFormed = false ∧
    (Instr.spectrumCheck []).wellFormed = false := by decide
theorem test_wf_rng : (Instr.rngBlockDone true (List.replicate 512 0) [] []).wellFormed = false ∧
    (Instr.rngBlockDone true (List.replicate 256 0) [(500, 500)] []).wellFormed = false ∧
    (Instr.rngBlockDone false (List.replicate 256 0) [] []).wellFormed = false ∧ (Instr.rngKat 32).wellFormed = false := by decide +kernel
theorem test_wf_scrub : (Instr.basinScrub 0x400000 1).wellFormed = false ∧
    (Instr.basinScrub 0 0).wellFormed = false ∧ (Instr.basinScrub 0 3).wellFormed = false := by decide
theorem test_wf_sam : (Instr.samAtrReceived 2 [] false).wellFormed = false ∧
    (Instr.samAtrReceived 0 (List.replicate 34 0) false).wellFormed = false ∧
    (Instr.samAtrTimeout 2).wellFormed = false ∧ (Instr.samClassRetry 2).wellFormed = false ∧
    (Instr.samRxBlock 2 .ack 0).wellFormed = false ∧ (Instr.samWaitTimeout 2).wellFormed = false ∧
    (Instr.samCardDetect 2 true 0).wellFormed = false ∧ (Instr.samOvercurrent 2).wellFormed = false ∧
    (Instr.samCurrentLimitActive 2).wellFormed = false ∧ (Instr.gpioEdge 4 true 0).wellFormed = false := by decide

/-! ## Single steps, with results from the manual -/

def run (c : Instr) (s : State) : State := nextState (exec c s)

/-- R60: 0 stands for −64 °C, 64 for 0 °C, 199 for 135 °C, 255 for 191 °C. -/
theorem test_temperature_byte : tempByte (-64) = 0 ∧ tempByte (-65) = 0 ∧ tempByte 0 = 64 ∧ tempByte 135 = 199 ∧
    tempByte 191 = 255 ∧ tempByte 192 = 255 := by decide
/-- The CRC of the check string 123456789 (R130). -/
theorem test_crc32 : crc32 (bytes [0x31, 0x32, 0x33, 0x34, 0x35, 0x36, 0x37, 0x38, 0x39]) = 0xCBF43926 := by decide +kernel
/-- FIPS 180-4: the digest of the three bytes abc, as R139 uses it. -/
theorem test_sha256 : sha256 (bytes [0x61, 0x62, 0x63]) = bytes [
    0xBA, 0x78, 0x16, 0xBF, 0x8F, 0x01, 0xCF, 0xEA, 0x41, 0x41, 0x40, 0xDE, 0x5D, 0xAE, 0x22, 0x23,
    0xB0, 0x03, 0x61, 0xA3, 0x96, 0x17, 0x7A, 0x9C, 0xB4, 0x10, 0xFF, 0x61, 0xF2, 0x00, 0x15, 0xAD] := by decide +kernel
/-- The example of FIPS 197 for a key of 128 bits, and back. -/
theorem test_aes : aesEncrypt (bytes (List.range 16)) (bytes ((List.range 16).map (17 * ·))) = bytes [
    0x69, 0xC4, 0xE0, 0xD8, 0x6A, 0x7B, 0x04, 0x30, 0xD8, 0xCD, 0xB7, 0x80, 0x70, 0xB4, 0xC5, 0x5A] := by decide +kernel
theorem test_aes_back : aesDecrypt (bytes (List.range 16)) (bytes [
    0x69, 0xC4, 0xE0, 0xD8, 0x6A, 0x7B, 0x04, 0x30, 0xD8, 0xCD, 0xB7, 0x80, 0x70, 0xB4, 0xC5, 0x5A]) =
      bytes ((List.range 16).map (17 * ·)) := by decide +kernel
/-- R322: IC_SRC(5) and IC_SRC(115) read their reset values. -/
theorem test_src_reset : (run (.portRead .a (addrBytes 0x401214) [] 1 .whole false) running).portA.rdata = [0x18, 0, 0, 0] ∧
    (run (.portRead .b (addrBytes 0x4013CC) [] 1 .whole false) running).portB.rdata = [0x18, 1, 0, 0] := by decide
/-- R194 and R195: PA_CFG from port A and from port B. -/
theorem test_pa_cfg : (run (.paCfgWrite .a 0x1401) running).portA.latency = 20 ∧
    (run (.paCfgWrite .b 0x1401) running).portA.latency = 8 ∧
    takeDoorbell (run (.paCfgWrite .b 0x1401) running) ≠ none := by decide
/-- R201: with the consumer at 0 and N = 32, index 32 is taken over and 33 is not. -/
theorem test_cmd_prod : (tenant (run (.cmdProdWrite .a 0 32) running) 0).cmdProd = 32 ∧
    (tenant (run (.cmdProdWrite .a 0 33) running) 0).cmdProd = 0 ∧
    (tenant (run (.cmdProdWrite .a 0 33) running) 0).idxErr = true := by decide
/-- R343: an end of interrupt of a source that is not active sets EOI_ERR. -/
theorem test_eoi : nth (run (.icEoiWrite .a 0 5) running).ic.eoiErr 0 false = true := by decide
/-- A word of the Keeper's pound written and read back, and one outside it refused with KIND 1 (R184, R188). -/
theorem test_pound : (run (.portRead .a (addrBytes 0x3000) [] 1 .whole false)
      (run (.portWrite .b (addrBytes 0x3000) (wordBytes 0x12345678) [] false) running)).portA.rdata = [0x78, 0x56, 0x34, 0x12] ∧
    (run (.portWrite .a (addrBytes 0x10000) (wordBytes 1) [] false) running).basin.mem = [] := by decide
/-- R164: the address with its most significant byte first, a word with its least significant byte first. -/
theorem test_transfer : addrOf (bytes [0x00, 0x40, 0x12, 0x14]) [] = 0x401214 ∧
    wordsOf (bytes [0x78, 0x56, 0x34, 0x12]) = [0x12345678] := by decide
/-- NOP answers status 0x00 in the first reply slot (R268, R270). -/
theorem test_nop : (tenant (run .nop (house 0 [])) 0).rplProd = 1 ∧ (run .nop (house 0 [])).houseLane.exec = none := by decide
/-- An opcode row without its packet changes nothing. -/
theorem test_no_packet : exec .getInfo running = .next running := rfl
/-- A supply above 72 V is the one fault (R851). -/
theorem test_beyond_rating : exec (.vinRecovered 72001) running = .fault .beyondRating := rfl
/-- A gate of 2 µs passes between VIN_BELOW_THRESHOLD and the warning (R40). -/
theorem test_warning_filter : (run (.vinEarlyWarn 8000) ((running.onPwr fun p =>
    { p with armed := true, below := true, filterAt := 1000001 }))).pwr.warn = false := by decide
/-- R79: RESETN low for 2 µs resets, for less than 0.5 µs not. -/
theorem test_pin_reset : (run (.pinReset 2000) running).pwr.state = .startup ∧
    exec (.pinReset 499) running = .next running := ⟨by decide, rfl⟩

end Sys2Proof.Tests
end

