-- ==== Sys2Proof/Tests/Witnesses.lean ====
section
/-! SUPPORT. For each statement with hypotheses, concrete states and operands that meet them together, clause by
clause. -/

namespace Sys2Proof.Tests

open Sys2Proof Sys2Proof.Machine

/-- A Keeper's packet just admitted on a lane of this state. -/
def given (l : LaneId) (op : Nat) (ps : List Byte) (s : State) : State := withExec l (fresh op 0 ps) s

/-! ## Steps, reset and invariants -/

def inState (p : PowerState) : State := { State.reset with pwr := { Pwr.reset with state := p } }

theorem witness_empty_queue : running.pending = [] ∧ running.pwr.state = .run ∧
    (inState .recovery).pwr.state = .recovery ∧ (inState .lpcd).pwr.state = .lpcd ∧ (inState .off).pwr.state = .off := by
  decide
def warned (at_ : Nat) : State := running.onContain fun c => { c with warnP := some at_ }
theorem witness_reset_table : (inState .off).pwr.state = .off ∧ 72000 ≤ 72000 ∧ running.pwr.state ≠ .off ∧
    coresRun running = true ∧ watchdogCause 0 0 = true ∧ halfSince (warned 990000) 0 = true ∧ watchdogCause 2 3 = true ∧
    (inState .deepStandby).pwr.state = .deepStandby ∧ (inState .deepStandby).pins.wake ≠ false ∧
    wakeActive (inState .deepStandby) false = true ∧
    (running.onFw fun f => { f with activateAt := some 1000000 }).fw.activateAt = some 1000000 := by decide
theorem witness_invariants : State.reset.poundsApart = true ∧ State.reset.keeperReachable = true ∧
    State.reset.basinCanonical = true := by decide
theorem witness_step : step State.reset = .next State.reset := rfl

/-! ## Memory, counters, doorbells and replies -/

theorem witness_basin_write : (basinWrite 0x10 [1, 0, 2] State.reset).basinCanonical = true ∧
    basinByte (basinWrite 0x10 [1, 0, 2] State.reset) 0x12 = 2 ∧
    basinByte (basinWrite 0x10 [1, 0, 2] State.reset) 0x13 = 0 := by decide
/-- Index 2·32 − 1 = 63 is in range, and 64 is not; with the consumer at 0, 32 is full and 33 is too far. -/
theorem witness_ring_index : PortReady .a running ∧ running.pwr.state = .run ∧ portOf running .a 0 = true ∧
    enabled running 0 = true ∧ (tenant running 0).resetting = false ∧ (tenant running 0).place.cmdN = 32 ∧
    ringUsed 32 0 32 = 32 ∧ 32 < ringUsed 33 0 32 ∧ 32 < ringUsed 63 0 32 ∧ running.houseLane.exec = none ∧
    PortOpen .b (running.onPwr fun p => { p with state := .boot }) := by decide
theorem witness_ring_index_disabled : PortReady .a (onTenant 0 (fun t => { t with resetting := true }) running) ∧
    (tenant (onTenant 0 (fun t => { t with resetting := true }) running) 0).resetting = true ∧
    portOf (onTenant 0 (fun t => { t with resetting := true }) running) .a 0 = true := by decide
/-- The reply slots of a tenant that resets come free, and those of a disabled one. -/
theorem witness_ring_index_down : (let s := onTenant 1 (fun t => { t with rplProd := 1, resetting := true }) running
     portOf s .a 1 = false ∧ portOf s .b 1 = false) ∧
    (let s := onTenant 0 (fun t => { t with rplProd := 1, resetting := true }) running
     PortReady .b s ∧ portOf s .b 0 = true ∧ ¬ (2 * 32 ≤ 1 ∨ 32 < ringUsed (tenant s 0).rplProd 1 32)) := by decide
def counted (n : Nat) : State := { running with ctr := ⟨[(1, n)], []⟩ }
theorem witness_counter : ctrGet (counted 0xFFFFFFFD) 1 + 1 < 0xFFFFFFFF ∧ 0xFFFFFFFF ≤ ctrGet (counted 0xFFFFFFFE) 1 + 1 ∧
    ctrSat (counted 0xFFFFFFFE) 1 = false ∧ ctrSat (ctrAdd 1 1 (counted 0xFFFFFFFE)) 1 = true := by decide
theorem witness_doorbell : fabStopped running = false ∧ fabStopped (inState .retain) = true ∧
    (inState .retain).aon.queue.length < 4 ∧
    ((raise 2 0 (raise 2 0 (raise 2 0 (raise 2 0 (inState .retain))))).aon.queue =
      [⟨2, 0, false⟩, ⟨2, 0, false⟩, ⟨2, 0, false⟩, ⟨2, 0, false⟩]) := by decide
theorem witness_reply : running.basinCanonical = true ∧ (pkt 0 0 []).tenant < running.tenants.length ∧
    0 < (tenant running 0).place.rplN ∧
    (tenant running 0).place.baseAddr + (tenant running 0).place.rplOff + 31 * 64 + 64 ≤ basinSize := by decide
theorem witness_finish : execOf (house 0 []) .house = some (fresh 0 0 []) ∧ (house 0 []).hfLease.revoke = none ∧
    (house 0 []).uhfLease.revoke = none ∧
    (let e := { fresh 0x0303 0 [] with phase := .raw ⟨1, 0, false, true, 1⟩ }
     endsAtFrame e.phase = true ∧ stopDue running e = none ∧ stopDue running { e with stop := some 0x15 } = some 0x15 ∧
       (fresh 0 0 []).parked = false ∧ { e with parked := true }.parked = true) := by decide

theorem witness_ring_taken : PortReady .a running ∧ enabled running 0 = true ∧ (tenant running 0).resetting = false ∧
    ¬ (2 * (tenant running 0).place.rplN ≤ (0 : Word).toNat % 2 ^ 16 ∨
      (tenant running 0).place.rplN < ringUsed (tenant running 0).rplProd ((0 : Word).toNat % 2 ^ 16) 32) ∧
    2 * (tenant running 0).place.rplN ≤ (64 : Word).toNat % 2 ^ 16 := by decide
def ending (st : Option Nat) (parked : Bool) : Exec :=
  { fresh 0x0303 0 [] with phase := .raw ⟨1, 0, false, true, 1⟩, stop := st, parked := parked }
theorem witness_endings : execOf (withExec .hf (ending (some 0x15) false) running) .hf = some (ending (some 0x15) false) ∧
    endsAtFrame (ending (some 0x15) false).phase = true ∧ stopDue running (ending (some 0x15) false) = some 0x15 ∧
    execOf (withExec .hf (ending none true) running) .hf = some (ending none true) ∧ (ending none true).parked = true := by
  decide

/-! ## Ports and registers -/

/-- Address 0x3000 lies in the Keeper's pound, 0x10000 behind it, 0x407000 nowhere. -/
theorem witness_port_word : PortOpen .b running ∧ (addrBytes 0x3000).length = 4 ∧ (wordBytes 5).length = 4 ∧
    addrOf (addrBytes 0x3000) [] = 0x3000 ∧ accessKind running .b true 0x3000 5 = none ∧
    accessKind running .b true 0x10000 5 = some 1 ∧ accessKind running .b false 0x3000 0 = none ∧
    mustStall running .b 0x3000 = false ∧ accessKind running .b false 0x407000 0 = some 0 ∧ 0x400040 % 4 = 0 := by decide
/-- A misaligned address, whole and held open; PORT_RESET and PA_CFG, which take effect as chip select rises. -/
theorem witness_misaligned : PortOpen .a running ∧ (addrBytes 0x3002).length = 4 ∧ addrOf (addrBytes 0x3002) [] = 0x3002 ∧
    0x3002 % 4 ≠ 0 ∧ (wordBytes 5).length % 4 = 0 ∧ accessKind running .b true 0x400040 0xA501 = none ∧
    addrOf (addrBytes 0x400020) [] = 0x400020 ∧ accessKind running .a true 0x400020 0x1401 = none := by decide
/-- Three words that end at 0x400020, and four that reach it. -/
theorem witness_burst_end : resetWord running .a 0x400014 [1, 2, 3] = 0 ∧ lateWord running .a 0x400020 0x400014 [1, 2, 3] = none ∧
    0x400014 + 4 * 3 ≤ 0x400020 ∧ (lateWord running .a 0x400020 0x400014 [1, 2, 3, 0x1401]).isSome = true := by decide
/-- A burst over the end of the Keeper's pound: the first word passes, the second fails. -/
theorem witness_burst : PortReady .a running ∧ running.basinCanonical = true ∧ addrOf (addrBytes 0xFFFC) [] = 0xFFFC ∧
    0xFFFC + 4 * 2 ≤ basinSize ∧ basinKind running .a true 0xFFFC = none ∧ basinKind running .a true 0x10000 ≠ none := by
  decide
/-- Two words held open, six bytes cut, an address cut after 20 bits, and a transaction that goes on. -/
def heldOpen : State := running.onPortA fun q => { q with burst := some { addr := 0x3008, write := true, fresh := false } }
theorem witness_transfers : PortOpen .a running ∧ (bytes [0, 0]).length < 4 ∧ (addrBytes 0x3000).length = 4 ∧
    addrOf (addrBytes 0x3000) [] % 4 = 0 ∧ (bytes [1, 2, 3, 4, 5, 6, 7, 8]).length % 4 = 0 ∧
    (bytes [1, 2, 3, 4, 5, 6]).length % 4 ≠ 0 ∧ resetWord running .a 0x3000 [1] = 0 ∧ 0x3000 + 4 * 2 ≤ 0x400040 ∧
    portUp heldOpen .a = true ∧ (portSt heldOpen .a).burst = some { addr := 0x3008, write := true, fresh := false } ∧
    ({ addr := 0x3008, write := true, fresh := false } : OpenTx).kind = .live := by decide
theorem witness_global : PortReady .a running ∧ PortReady .b running := by decide
def octal : State := running.onPortA fun q => { q with mode := true }
theorem witness_port_errors : PortReady .a running ∧ portCommand (hasExtension running .a) (bytes [0x55]) = none ∧
    hasExtension octal .a = true ∧ portCommand true (bytes [0x02, 0x02]) = none ∧ (bytes [0x02]).length < 2 ∧
    0 < 15 ∧ 15 < 16 ∧ 0x407000 % 4 = 0 ∧ accessKind running .a true 0x407000 0 = some 0 ∧
    accessKind running .a false 0x407000 0 = some 0 ∧ portOf running .a 0 = true ∧
    bits (0xA501 : Word).toNat 15 8 = 0xA5 ∧ bits (0x0001 : Word).toNat 15 8 ≠ 0xA5 := by decide
def stalled (a : Nat) (s : State) : State := s.onPortA fun q => { q with stall := some ⟨a, 1, .whole, 0, 0⟩ }
/-- A stalled read of RNG_DATA when the RNG is fenced, and one that a new transaction meets. -/
theorem witness_stall_ends : fenced ((stalled 0x402000 running).onFence fun f => { f with map := 0x10 }) 4 = true ∧
    portUp (stalled 0x402000 running) .a = true ∧ (stalled 0x402000 running).portA.burst = none ∧
    (stalled 0x402000 running).portA.stall = some ⟨0x402000, 1, .whole, 0, 0⟩ := by decide
def withWord : State := running.onRng fun r => { r with buffer := [0x12345678] }
theorem witness_stall : (stalled 0x402000 withWord).portA.stall = some ⟨0x402000, 1, .whole, 0, 0⟩ ∧
    (rngTakeWord (stalled 0x402000 withWord)).isSome = true ∧ (stalled 0x401100 running).ic.flight = [] ∧
    0 + 1 ≤ running.time ∧ 0 + cfg running 0x602 ≤ running.time := by decide
theorem witness_rng_read : PortReady .a withWord ∧ fenced withWord 4 = false ∧ (rngTakeWord withWord).isSome = true ∧
    PortReady .b running ∧ rngTakeWord running = none := by decide
def inRecovery : State :=
  (((inState .recovery).onFw fun f => { f with recLength := 256 }).onPwr fun p => { p with tHold := 1000000 }).onPortB
    fun q => { q with vio := true }
theorem witness_recovery : PortOpen .b inRecovery ∧ recBusy inRecovery = false ∧ stageRangeOk 0 256 = true ∧
    (nvSubmit (stageJob inRecovery false 0 (basinRead inRecovery 0 256) none) inRecovery).isSome = true ∧
    (let s := inRecovery.onFw fun f => { f with verified := true }
     let s := s.onNv fun n => { n with fwA := { n.fwA with act := .erased } }
     s.nv.fwA.act = .erased ∧ (nvSubmit (nvJob (.fwAct false 1) none 0x5FE 0) s).isSome = true) := by decide
def aJob (st : JobStage) (l : Option LaneId) : NvJob := ⟨.sealCharter 1, st, l, 0, true, 0⟩
def withJob (st : JobStage) : State := running.onNv fun n => { n with job := some (aJob st none) }
def jobE : Exec := { fresh 0x0108 0 [] with phase := .nv 0 }
/-- The Keeper's packet waits for the job; another tenant has one for the lane. -/
def jobWaits (e : Exec) : State :=
  onTenant 1 (fun t => { t with place := Place.reset0 })
    ((withExec .house e running).onQueue fun _ => [{ pkt 0x0000 1 [] with id := 8 }])
theorem witness_nv_job : nvAwake running = true ∧ (withJob (.body 2)).nv.job = some (aJob (.body 2) none) ∧
    1 < 2 ∧ hasCommit (.sealCharter 1) = true ∧ hasCommit .breakCharter = false ∧
    (withJob .commit).nv.job = some (aJob .commit none) ∧ (withJob (.erase 1)).nv.job = some (aJob (.erase 1) none) := by
  decide
theorem witness_nv_yield : jobPacket (aJob .commit none) running = none ∧
    jobPacket (aJob .commit (some .house)) (jobWaits jobE) = some (.house, jobE) ∧ stopDue (jobWaits jobE) jobE = none ∧
    jobE.sliceOver = false ∧ otherEligible (jobWaits jobE) .house 0 = true ∧
    (let e := { jobE with sliceOver := true }
     jobPacket (aJob .commit (some .house)) (jobWaits e) = some (.house, e) ∧ stopDue (jobWaits e) e = none) ∧
    (let e := { jobE with stop := some 0x15 }
     jobPacket (aJob .commit (some .house)) (jobWaits e) = some (.house, e) ∧ stopDue (jobWaits e) e = some 0x15) := by
  decide
def stageS : State := house 0x0900 (le 4 0 ++ le 4 256 ++ le 4 0x1000)
theorem witness_firmware : Ready .house 0x0900 (fresh 0x0900 0 (le 4 0 ++ le 4 256 ++ le 4 0x1000)) stageS ∧
    stageRangeOk 0 256 = true ∧
    (nvSubmit (stageJob stageS true 0 (poundRead stageS 0 0x1000 256) (some .house)) stageS).isSome = true ∧
    Ready .house 0x0901 (fresh 0x0901 0 []) (house 0x0901 []) ∧
    Ready .house 0x0902 (fresh 0x0902 0 []) (house 0x0902 []) ∧ (house 0x0902 []).fw.verified = false ∧
    (bankOf (house 0x0902 []) (otherBank (house 0x0902 []))).act = .erased := by decide

def charging : State := running.onPwr fun p => { p with tHold := 1000000 }
def withKind (k : JobKind) (st : JobStage) : State :=
  running.onNv fun n => { n with job := some { aJob st none with kind := k } }
theorem witness_job_ends : (withJob (.body 1)).nv.job = some (aJob (.body 1) none) ∧ hasCommit (aJob (.body 1) none).kind = true ∧
    (withKind .breakCharter (.body 1)).nv.job = some { aJob (.body 1) none with kind := .breakCharter } ∧
    hasCommit ({ aJob (.body 1) none with kind := .breakCharter }).kind = false ∧
    (withJob (.erase 2)).nv.job = some (aJob (.erase 2) none) ∧ nvAwake (withJob (.body 1)) = true := by decide
def activating : State := (given .house 0x0902 [] charging).onFw fun f => { f with verified := true }
theorem witness_activate : Ready .house 0x0902 (fresh 0x0902 0 []) activating ∧ activating.fw.verified = true ∧
    (bankOf activating (otherBank activating)).act = .erased ∧
    (let k : JobKind := .fwAct (otherBank activating) ((actSeq activating activating.fw.bankB + 1) % 2 ^ 32)
     (nvSubmit (nvJob k (some .house) (pageOf k) 0) activating).isSome = true) := by decide

/-! ## Interrupt controller -/

def delivered (n : Nat) : State := running.onIc fun i => { i with st := modAt i.st n fun _ => .delivered 0 }
theorem witness_eoi : PortReady .a running ∧ portTarget running .a 0 = true ∧
    srcState (running.onIc fun i => { i with st := modAt i.st 5 fun _ => .active 0 }) 5 = .active 0 ∧
    srcState running 5 ≠ .active 0 := by decide
theorem witness_claim : deliveredTo (delivered 5) 0 5 = true ∧
    (List.range 128).all (fun m => !deliveredTo (delivered 5) 0 m || decide (m = 5)) = true ∧
    (List.range 128).all (fun m => !deliveredTo running 0 m) = true := by decide
def pended (n : Nat) : State := running.onIc fun i => { i with pend := 1#128 <<< n }
theorem witness_best : bestSource (pended 5) = some 5 ∧ bestSource running = none := by decide
theorem witness_ic_registers : running.ic.flight = [] ∧
    (running.onIc fun i => { i with flight := [(1, 0, 0, false)] }).ic.flight ≠ [] ∧ portTarget running .b 1 = true ∧
    reservedSrc 127 = false ∧ reservedSrc 112 = false ∧ reservedSrc 1 = false ∧
    (srcState running 1 = .idle ∧ pendBit running 1 = false ∧ nth running.ic.count 1 0 = 0) ∧
    srcState (delivered 5) 5 ≠ .idle ∧ bits (0x118 : Word).toNat 11 8 ≠ bits (icSrc (delivered 5) 5) 11 8 := by decide
theorem witness_pending_bits : PortReady .a running ∧ fenced running 7 = false ∧ portOwnsSrc running .a 127 = false ∧
    portOwnsSrc running .a 5 = true ∧ (5#32).toNat < 128 := by decide
/-- The interrupt controller is fenced. -/
def deaf : State := running.onFence fun f => { f with map := 0x80 }
theorem witness_fenced_controller : PortReady .a deaf ∧ fenced deaf 7 = true ∧ portOwnsSrc deaf .a 5 = true := by decide
def ringing : State := enqueue .core ⟨5, 0, false⟩ running
theorem witness_doorbell_path : fenced running 7 = false ∧ inService running = true ∧ 112 ≤ (112 : Word).toNat % 2 ^ 8 ∧
    portOf running .a ((112 - 112) / 2) = true ∧ (takeDoorbell ringing).isSome = true ∧
    (let s := running.onIc fun i => { i with count := modAt i.count 5 fun _ => 1 }
     nth s.ic.count 5 0 ≠ 0 ∧ nth s.ic.timer 5 0 + coalesceTime s 5 ≤ s.time) ∧
    bestSource (pended 5) = some 5 ∧ (chooseTarget (pended 5) 5).isSome = true ∧
    (running.onIc fun i => { i with flight := [(5, 0, 0, false)] }).ic.flight = [(5, 0, 0, false)] ∧
    inService (inState .retain) = false ∧ fenced (inState .retain) 7 = false := by decide
theorem witness_event_record : srcOwner running 5 < running.tenants.length ∧ enabled running 0 = true ∧
    (tenant running 0).place.evtN = 256 ∧ ringUsed 0 0 256 ≠ 256 ∧
    (tenant running 0).place.baseAddr + (tenant running 0).place.evtOff + 16 * 255 + 16 ≤ basinSize ∧
    (let s := onTenant 0 (fun t => { t with evtProd := 256 }) running
     ringUsed (tenant s 0).evtProd (tenant s 0).evtCons 256 = 256) := by decide

/-! ## Packets -/

/-- A NOP packet in the Keeper's first command slot. -/
def packetWaits : State := onTenant 0 (fun t => { t with cmdProd := 1 }) running
theorem witness_fetch : packetWaits.pwr.state = .run ∧ packetWaits.pwr.entry = none ∧ nextVisit packetWaits = some 0 ∧
    basinFenced packetWaits (nextSlot packetWaits 0).1 64 = false ∧
    (let s := packetWaits.onBasin fun b => { b with fenced := [0] }
     nextVisit s = some 0 ∧ basinFenced s (nextSlot s 0).1 16 = true) ∧
    (let bs := readSlot packetWaits 0
     fetchStatus (packetWaits.onVisit fun _ => 1) 0 bs (packetOfBytes 0 0 packetWaits.time bs) = none) ∧
    (let s := basinWrite 0 (le 2 0x0FFF) packetWaits
     let bs := readSlot s 0
     fetchStatus (s.onVisit fun _ => 1) 0 bs (packetOfBytes 0 0 s.time bs) = some 0x10) := by decide
def queued : State := running.onQueue fun _ => [pkt 0 0 []]
theorem witness_admit : execOf queued .house = none ∧ chooseTenant queued .house = some 0 ∧
    offerOf queued .house 0 = some (.head (pkt 0 0 [])) ∧ needsFenced queued (pkt 0 0 []) = false ∧ expired queued (pkt 0 0 []) = false ∧
    queued.pwr.state = .run ∧ queued.pwr.entry = none := by decide
/-- The Keeper's packet has run its slice at a yield point, and another tenant has one for the lane. -/
def sliced : State :=
  let e := { fresh 0x0800 0 [] with phase := .samPower ⟨0, false, 1, [], 0, false, false, 0, false⟩, sliceOver := true }
  let s := (withExec .house e running).onQueue fun _ => [{ pkt 0x0000 1 [] with id := 8 }]
  let t := s.onSam0 fun m => { m with stage := .ready }
  onTenant 1 (fun t => { t with place := Place.reset0 }) t
def slicedE : Exec :=
  { fresh 0x0800 0 [] with phase := .samPower ⟨0, false, 1, [], 0, false, false, 0, false⟩, sliceOver := true }
theorem witness_slice : execOf sliced .house = some slicedE ∧ slicedE.slice + cfg sliced 0x803 ≤ sliced.time ∧
    otherEligible sliced .house 0 = true ∧ atYield sliced .house slicedE = true ∧ stopDue sliced slicedE = none ∧ sliced.nv.job = none ∧ sliced.nv.jobs = [] ∧
    lostStatus sliced .house slicedE = none ∧ suspendable slicedE.phase = true := by decide
theorem witness_stop : (let e := { slicedE with stop := some 0x15 }
    let s := withExec .house e sliced
    execOf s .house = some e ∧ atYield s .house e = true ∧ stopDue s e = some 0x15) := by decide
theorem witness_deadline : running.queue = [] ∧ running.hfLease.queue = [] ∧ running.hfLease.granting = none ∧
    running.uhfLease.queue = [] ∧ running.uhfLease.granting = none ∧
    running.lock.waiting = [] := by decide

/-! ## System opcodes -/

/-- A Keeper's packet with these parameters, ready on a lane of this state. -/
abbrev ReadyHere (l : LaneId) (op : Nat) (ps : List Byte) (s : State) : Prop :=
  Ready l op (fresh op 0 ps) (withExec l (fresh op 0 ps) s)

theorem witness_reading : ReadyHere .house 0x0000 [] running ∧ ReadyHere .house 0x0001 [] running ∧
    ReadyHere .house 0x0002 [] running ∧ ReadyHere .house 0x0008 [] running ∧ ReadyHere .house 0x0202 [] running ∧
    ReadyHere .house 0x0603 [] running := by decide
def countersP : List Byte := le 2 1 ++ le 2 64 ++ le 4 1 ++ le 4 0x3000
theorem witness_counters : ReadyHere .house 0x0007 countersP running ∧ Packet16 (pkt 7 0 countersP) 2 = 64 ∧
    Packet32 (pkt 7 0 countersP) 8 % 4 = 0 := by decide
def logP : List Byte := le 4 0xFFFFFFFF ++ le 2 1024 ++ le 2 0 ++ le 4 0x3000
def logged : State := running.onNv fun n => { n with log := [some ⟨1, false, 5, 0, 0, 0, 0, 0, 0, 0, []⟩] }
theorem witness_log : ReadyHere .house 0x0009 logP logged ∧ Packet16 (pkt 9 0 logP) 4 = 1024 ∧
    inPound logged 0 0x3000 64 = true ∧ (logHeld logged).head?.isSome = true := by decide
def setP (flags : Nat) : List Byte := le 2 1 ++ le 1 flags ++ le 1 0 ++ le 4 0 ++ le 2 0x100 ++ le 2 0 ++ le 4 10000
def charged : State := running.onPwr fun p => { p with tHold := 1000000 }
theorem witness_config : ReadyHere .house 0x0003 (setP 0) running ∧
    entriesOk (entryBytes (withExec .house (fresh 3 0 (setP 0)) running) (pkt 3 0 (setP 0))) 1 = true ∧
    bit (Packet8 (pkt 3 0 (setP 2)) 2) 1 = true ∧ bit (Packet8 (pkt 3 0 (setP 2)) 2) 2 = false ∧
    (nvSubmit (defaultsJob charged [(0x100, 10000)]) charged).isSome = true ∧
    ReadyHere .house 0x0004 (le 2 255) running ∧ Packet16 (pkt 4 0 (le 2 255)) 0 = 255 ∧
    ReadyHere .house 0x0104 (le 8 0) running := by decide
/-- SET_CONFIG with STORE, and its defaults job. -/
def storing : State := given .house 3 (setP 2) charged
theorem witness_store : Ready .house 3 (fresh 3 0 (setP 2)) storing ∧
    (let p := pkt 3 0 (setP 2)
     let a := applyEntries 0 (entriesOf (entryBytes storing p) 1) storing
     let u := onExec .house (fun x => { x with clamps := a.clamps }) a.s
     Packet16 p 0 = 1 ∧ entriesOk (entryBytes storing p) 1 = true ∧ bit (Packet8 p 2) 0 = false ∧
       (nvSubmit (defaultsJob u (a.ids.map fun i => (i, cfgI u i))) u).isSome = true) := by decide
/-- A field with a step, and a value on its grid, off it, and beyond either end. -/
def stepped : FieldDef := ⟨0, 10, 20, 5, 10, .keeper⟩
theorem witness_grid : 0 < stepped.step ∧ stepped.min ≤ stepped.max ∧ (stepped.max - stepped.min) % stepped.step = 0 ∧
    stepped.min ≤ 15 ∧ (15 : Int) ≤ stepped.max ∧ ((15 : Int) - stepped.min) % stepped.step = 0 ∧ stepped.min ≤ 13 ∧
    (13 : Int) ≤ stepped.max ∧ (9 : Int) < stepped.min ∧ stepped.max < 21 := by decide

/-! ## Tenants, protection and leases -/

def locked (ps : List Byte) : State := house 0x0101 ps
def badStage : State := running.onPt fun t => { t with staging := List.replicate 128 0 }
def lockWaits : State := running.onLock fun _ => ⟨0, [{ fresh 0x0101 0 (le 8 0) with phase := .lockWait }]⟩
theorem witness_protection : ReadyHere .house 0x0100 (le 4 0x3000) running ∧ ReadyHere .house 0x0101 (le 8 0) running ∧
    lockBusy running = false ∧ lockCheck running false 0 = none ∧ (lockCheck badStage false 0).isSome = true ∧
    lockBusy (running.onLock fun _ => ⟨1000001, []⟩) = true ∧ lockWaits.lock.waiting.length = 1 ∧
    lockWaits.lock.until_ ≤ lockWaits.time := by decide
/-- The Keeper's reply ring is full and its command ring holds a packet. -/
def choked : State := onTenant 0 (fun t => { t with cmdProd := 1, rplProd := 32 }) running
theorem witness_reset_tenant : ReadyHere .house 0x0102 (le 4 0) running ∧ resetIdle running 0 = false ∧
    ReadyHere .house 0x0102 (le 4 7) running ∧ resetIdle running 7 = true ∧
    inRing (tenantReset 0 (fun x => x.pkt.tenant == 0 && x.pkt.id != 7) (withExec .house (fresh 0x0102 0 (le 4 0)) running)) 0 = 0 ∧
    ReadyHere .house 0x0102 (le 4 0) choked ∧ resetIdle choked 0 = false ∧
    inRing (tenantReset 0 (fun x => x.pkt.tenant == 0 && x.pkt.id != 7) (withExec .house (fresh 0x0102 0 (le 4 0)) choked)) 0 ≠ 0 ∧
    withdrawalReady running (1, none) = true ∧ withdrawalReady running (1, some .uhf) = true := by decide
/-- A deferred lock cycle past its deadline, and one LEASE_ACQUIRE that waits within its own. -/
def lateE : Exec := { fresh 0x0101 0 (le 8 0) with pkt := { pkt 0x0101 0 (le 8 0) with deadline := 1 }, phase := .lockWait }
def lockLate : State := running.onLock fun _ => ⟨0, [lateE]⟩
theorem witness_late : lockLate.lock.waiting = [lateE] ∧ lockLate.lock.until_ ≤ lockLate.time ∧ expired lockLate lateE.pkt = true ∧
    expired lockWaits { pkt 0x0101 0 (le 8 0) with deadline := 0 } = false := by decide
def heldBy (n : Nat) (s : State) : State :=
  (s.onHfLease fun l => { l with holder := some n }).onUhfLease fun l => { l with holder := some n }
theorem witness_acquire : ReadyHere .house 0x0200 (le 4 1) running ∧ leaseFree running .uhf = true ∧
    running.uhfLease.holder ≠ some 0 ∧ waiterOf running.uhfLease 0 = none ∧
    leaseFree (heldBy 1 running) .hf = false ∧ (heldBy 1 running).hfLease.holder ≠ some 0 ∧
    (heldBy 0 running).hfLease.holder = some 0 ∧ bit (Packet8 (pkt 0 0 (le 4 0x100)) 1) 0 = true := by decide
def handed (q : List Waiter) : State := running.onHfLease fun l => { l with handover := true, queue := q }
def overdue : State := (heldBy 1 running).onHfLease fun l => { l with queue := [⟨0, none⟩] }
theorem witness_lease : grantReady (handed []) .hf = true ∧ chainLit (handed []) .hf = false ∧
    grantReady (handed [⟨1, none⟩]) .hf = true ∧ ReadyHere .house 0x0201 (le 4 0) (heldBy 0 running) ∧
    holds (heldBy 0 running) .hf 0 = true ∧ ReadyHere .house 0x0105 (le 4 0) (heldBy 1 running) ∧
    (heldBy 1 running).hfLease.holder = some (0 + 1) ∧ holderExecuting .hf (heldBy 1 running) = false := by decide
def overdue2 : State := { overdue with time := 10 ^ 12 }
theorem witness_hold_over : holdOver overdue2 .hf = true ∧ holderExecuting .hf overdue2 = false ∧
    holdOver (withExec .hf (fresh 0x0300 1 []) overdue2) .hf = true ∧
    holderExecuting .hf (withExec .hf (fresh 0x0300 1 []) overdue2) = true := by decide
theorem witness_revocation : (leaseOf (heldBy 1 running) .uhf).holder = some 1 := by decide

def lockBehind : State := given .house 0x0101 (le 8 0) (running.onLock fun _ => ⟨1000001, []⟩)
def lockBad : State := given .house 0x0101 (le 8 0) badStage
theorem witness_locks : Ready .house 0x0101 (fresh 0x0101 0 (le 8 0)) lockBehind ∧ lockBusy lockBehind = true ∧
    Ready .house 0x0101 (fresh 0x0101 0 (le 8 0)) lockBad ∧ lockBusy lockBad = false ∧
    lockCheck lockBad (bit (Packet8 (pkt 0x0101 0 (le 8 0)) 0) 0) (Packet32 (pkt 0x0101 0 (le 8 0)) 4) = some (1, 0x40) := by
  decide
theorem witness_withdrawal : (running.onWithdrawn fun _ => [(1, none)]).withdrawn = [(1, none)] ∧
    withdrawalReady (running.onWithdrawn fun _ => [(1, none)]) (1, none) = true ∧
    (running.onWithdrawn fun _ => [(1, some .uhf)]).withdrawn = [(1, some .uhf)] ∧
    withdrawalReady (running.onWithdrawn fun _ => [(1, some .uhf)]) (1, some .uhf) = true := by decide
/-- LEASE_ACQUIRE by the holder, and by a tenant that finds the lease in use, with NO_WAIT and without. -/
def acquiring (ps : List Byte) (n : Nat) : State := given .house 0x0200 ps (heldBy n running)
theorem witness_in_use : Ready .house 0x0200 (fresh 0x0200 0 (le 4 0)) (acquiring (le 4 0) 0) ∧
    (leaseOf (acquiring (le 4 0) 0) .hf).holder = some 0 ∧ chainOf (Packet8 (pkt 0x0200 0 (le 4 0)) 0) = .hf ∧
    Ready .house 0x0200 (fresh 0x0200 0 (le 4 0)) (acquiring (le 4 0) 1) ∧
    (leaseOf (acquiring (le 4 0) 1) .hf).holder ≠ some 0 ∧ waiterOf (leaseOf (acquiring (le 4 0) 1) .hf) 0 = none ∧
    leaseFree (acquiring (le 4 0) 1) .hf = false ∧ bit (Packet8 (pkt 0x0200 0 (le 4 0)) 1) 0 = false ∧
    Ready .house 0x0200 (fresh 0x0200 0 (le 4 0x100)) (acquiring (le 4 0x100) 1) ∧
    leaseFree (acquiring (le 4 0x100) 1) .hf = false ∧ bit (Packet8 (pkt 0x0200 0 (le 4 0x100)) 1) 0 = true := by decide
theorem witness_waiter : (⟨1, some (fresh 0x0200 1 (le 4 0))⟩ : Waiter).exec = some (fresh 0x0200 1 (le 4 0)) := rfl

/-! ## Supply, resets, clocks and low power -/

def armedS : State := running.onPwr fun p => { p with armed := true }
def belowS : State := armedS.onPwr fun p => { p with below := true }
theorem witness_supply : comparatorOn armedS = true ∧ 8999 < cfg armedS 0x100 ∧ armedS.pwr.below = false ∧
    comparatorOn belowS = true ∧ belowS.pwr.below = true ∧ belowS.pwr.warn = false ∧
    belowS.pwr.filterAt ≤ nowAon belowS ∧ cfg armedS 0x100 + 300 < 72000 ∧
    (let s := armedS.onPwr fun p => { p with warn := true, aboveAt := some 0 }
     s.pwr.aboveAt = some 0 ∧ 0 + 1000 ≤ nowAon s ∧ s.pwr.warn = true) := by decide
def hot : State := running.onFence fun f => { f with map := 0x800 }
theorem witness_thermal : running.pwr.state = .run ∧ running.aon.startCause = 0 ∧ running.pwr.capNom = false ∧
    coresRun running = true ∧ fenced hot 11 = true ∧ fenced running 11 = false ∧ running.therm.at_ + 10000 ≤ running.time ∧
    (-55 : Int) ≤ 175 ∧ running.pwr.holdAt ≤ nowAon running ∧ running.pwr.state ≠ .deepStandby ∧
    running.therm.tripped = false ∧ (135 : Int) ≤ 135 ∧ inService hot = true := by decide
/-- Readings missing for 10 ms, a reading outside R744's limits while the sensor is fenced, and again. -/
theorem witness_readings : running.therm.missed = false ∧ implausible running.therm.raw = false ∧
    implausible (hot.onTherm fun t => { t with raw := 176 }).therm.raw = true ∧ implausible 175 = false ∧
    hot.therm.at_ + 1000 ≤ hot.time := by decide
def lit : State := heldBy 0 (running.onHf fun h => { h with on := true, radio := .rx, pll := .locked })
theorem witness_clock_service : inService running = true ∧ (inState .recovery).pwr.state = .recovery ∧
    monitored running .xo = true ∧ nth running.clk.next Clock.xo.ctorIdx 0 ≤ running.time ∧
    Clock.xo.ctorIdx < running.clk.bad.length ∧ countBad .xo 489 = true ∧ countBad .xo 434 = false ∧
    hfEmits lit = true ∧ running.pwr.state ≠ .off ∧
    (let s := { running with time := 10000000 }.onAon fun a => { a with bootAt := some 0 }
     s.aon.bootAt = some 0 ∧ 0 + 10000000 ≤ s.time) ∧ portUp running .a = true ∧ (portSt running .a).burst = none ∧ warnedAt running 0 = none ∧
    (let s := running.onContain fun c => { c with warnP := some 999999 }
     warnedAt s 0 = some 999999 ∧ s.time < 999999 + 10000) ∧
    (let s := running.onFw fun f => { f with booted := true, onTrial := true }
     s.fw.booted = true ∧ s.fw.confirmAt ≤ s.time ∧ s.fw.onTrial = true ∧ s.fw.confirmFailed = false ∧
       confirmRuns s = false ∧ (bankOf s s.fw.bankB).conf ≠ .erased) ∧
    (let s := running.onFw fun f => { f with confirmAt := 1000001 }
     s.time < s.fw.confirmAt) := by decide
theorem witness_vio : (1710 : Nat) ≤ 1710 ∧ (1709 : Nat) < 1710 ∧ (9 : Nat) < 10 ∧ (1500 : Nat) ≤ 1500 ∧ (1499 : Nat) < 1500 ∧
    portUp running .b = true ∧ portUp (inState .retain) .b = false ∧ (portSt (stalled 0x402000 running) .a).burst = none := by
  decide
theorem witness_resets : (inState .off).pwr.state = .off ∧ running.pwr.state ≠ .off ∧ coresRun running = true ∧
    watchdogCause 2 3 = true ∧ (3 ≠ 0 ∨ halfSince running 2 = true) ∧
    (inState .deepStandby).pwr.state = .deepStandby ∧ 500 ≤ 1999 ∧ State.reset.pwr.state = .startup ∧ env0.vin ≤ 72000 := by decide
def trial : State := running.onFw fun f => { f with activateAt := some 1000000 }
theorem witness_trial : trial.fw.activateAt = some 1000000 ∧ 1000000 ≤ trial.time ∧ inService trial = true ∧
    running.therm.at_ + 1000 ≤ running.time ∧ fenced running 11 = false ∧ (175 : Int) < 176 ∧ (-56 : Int) < -55 := by decide
def sleepy (t : PowerState) : State := (inState t).onPwr fun p => { p with wakes := [.pin] }
theorem witness_low_power : ReadyHere .house 0x0006 (le 4 3 ++ le 4 0) running ∧ powerStateOf 3 = some .lpcd ∧
    fenced running 0 = false ∧
    (let s := running.onPwr fun p => { p with entry := some (.retain, 0) }
     s.pwr.entry = some (.retain, 0) ∧ s.nv.job = none ∧ s.nv.jobs = [] ∧ s.hfLane.exec = none ∧
       s.uhfLane.exec = none ∧ s.houseLane.exec = none) ∧
    (sleepy .retain).pwr.state = .retain ∧ (sleepy .lpcd).pwr.wakes ≠ [] := by decide
theorem witness_wakes : running.pins.wake ≠ false ∧ running.pins.wake = true ∧
    (running.onPins fun p => { p with wake := false }).pins.wake ≠ true ∧ running.pins.fdet = false ∧ fdetBlind running = false ∧
    sleeping (inState .deepStandby) = true ∧ (cfg running 0x720 = 1 ↔ false = true) ∧ (cfg running 0x720 = 1 ↔ true = false) ∧
    (let s := running.onPwr fun p => { p with entry := some (.retain, 0) }
     s.pwr.state = .run ∧ s.pwr.entry = some (.retain, 0) ∧ s.portB.vio = true) ∧
    ((inState .retain).onAon fun a => { a with wakeAt := some 0 }).aon.wakeAt = some 0 ∧
    ((inState .retain).onPortB fun q => { q with vio := true }).portB.vio = true := by decide

/-! ## Containment -/

theorem witness_fence : fenceCause 13 15 = true ∧ fenceable running 13 = true ∧ fenced hot 11 = true ∧
    fenceCause 11 13 = true ∧ fenceable hot 11 = true ∧ fenced running 13 = false ∧
    running.fence.causes.length = 14 ∧ ReadyHere .house 0x0103 (le 4 0x3FFF) hot := by decide
/-- UNFENCE that names no fenced unit, and one whose first self-test runs, ends, and meets a further cause. -/
def testing (hit : Bool) (end_ : Nat) (us : List Nat) : Exec :=
  { fresh 0x0103 0 (le 4 0x3FFF) with phase := .testing ⟨[10, 11], us, [], 255, {}, end_, hit⟩ }
theorem witness_self_test : ReadyHere .house 0x0103 (le 4 0) hot ∧ ReadyHere .house 0x0103 (le 4 0x3FFF) running ∧
    execOf (withExec .house (testing false 1000001 [10, 11]) hot) .house = some (testing false 1000001 [10, 11]) ∧
    hot.time < 1000001 ∧ execOf (withExec .house (testing true 1000000 [11]) hot) .house = some (testing true 1000000 [11]) ∧
    1000000 ≤ hot.time ∧ execOf (withExec .house (testing false 0 [10, 11]) hot) .house = some (testing false 0 [10, 11]) ∧
    causePersists hot 11 = true ∧ fenced hot 11 = true := by decide
theorem witness_rng_fence : fenceCause 4 8 = true ∧ fenceable running 4 = true ∧ fenced running 4 = false := by decide
theorem witness_scrub : 0x3FFFFF < basinSize ∧ 0x3FFFFF / 4 * 4 ∉ running.basin.fenced ∧ running.contain.queue.length < 16 ∧
    (let s := charged.onContain fun c => { c with queue := [⟨1, false, 5, 0, 0, 0, 0, 0, 0, 0, []⟩] }
     logRuns s = false ∧ logAreaFree s = true ∧
       (nvSubmit (nvJob (.log ⟨1, false, 5, 0, 0, 0, 0, 0, 0, 0, []⟩) none (0xE90 + s.nv.logPos / 4) 0) s).isSome = true) ∧
    16 ≤ (running.onContain fun c => { c with
      queue := List.replicate 16 ⟨1, false, 5, 0, 0, 0, 0, 0, 0, 0, []⟩ }).contain.queue.length := by decide

/-! ## Charter, random numbers, keys, SAM and pins -/

/-- A charter made from the EU profile: HF up to 1 W, no cable loss, no antenna gain. -/
def charterP : List Byte := le 1 1 ++ le 1 1 ++ le 2 0 ++ le 4 0 ++ le 4 1000000 ++ le 2 0 ++ le 2 0
def eu : Charter := { charterOf (charterSource running (pkt 0x0107 0 charterP)) with gen := 1 }
def chartered (s : State) : State := s.onChr fun c => { c with inForce := some eu }
def sealedS : State := (chartered charged).onChr fun c => { c with sealed := true }
theorem witness_charter_write : ReadyHere .house 0x0106 (le 4 0x3000) running ∧
    ReadyHere .house 0x0107 charterP charged ∧ charterParamsOk (pkt 0x0107 0 charterP) = true ∧
    charged.chr.sealed = false ∧ charterCode (charterSource running (pkt 0x0107 0 charterP)) true = 0 ∧
    gateOk charged (.charter eu) = true ∧
    (nvSubmit (nvJob (.charter eu) (some .house) (pageOf (.charter eu)) 1) (stopTransmission charged)).isSome = true := by
  decide +kernel
theorem witness_charter_seal : ReadyHere .house 0x0108 [] (chartered charged) ∧ (chartered charged).nv.sealPage = .erased ∧
    (nvSubmit (nvJob (.sealCharter 1) (some .house) (pageOf (.sealCharter 1)) 0) (chartered charged)).isSome = true ∧
    running.chr.inForce = none ∧ ReadyHere .house 0x0107 charterP sealedS ∧ sealedS.chr.sealed = true := by decide
theorem witness_no_charter : Ready .house 0x0108 (fresh 0x0108 0 []) (given .house 0x0108 [] running) ∧
    (given .house 0x0108 [] running).chr.inForce = none := by decide
/-- Each kind of packet that waits for a draw, 100 ms after it began. -/
def waitsDraw (ph : Phase) (op : Nat) (s : State) : State := withExec .hf { fresh op 0 [] with phase := ph } s
def invWaits : InvOp := ⟨0, 0, 0, false, false, 1, 1, 1, 0, [], 0, 0, 0, 0, 0, 0, 0, 0, 0, false, .between, some 0, 0, 0⟩
def swapLink : PeerRun :=
  ⟨0, true, true, 0, true, 0, 0, 0, 0x3000, [], [], true, .swapGap, [], [], false, false, false, 0, 0, 0, 0, true, 0, none, 0, 0, some (0, true), 0, 0⟩
theorem witness_draws : execOf (waitsDraw (.draw 0) 0x0512 running) .hf = some { fresh 0x0512 0 [] with phase := .draw 0 } ∧
    execOf (waitsDraw (.cipherDraw [] 0) 0x0720 running) .hf = some { fresh 0x0720 0 [] with phase := .cipherDraw [] 0 } ∧
    execOf (waitsDraw (.inventory invWaits) 0x0400 running) .hf = some { fresh 0x0400 0 [] with phase := .inventory invWaits } ∧
    invWaits.draw = some 0 ∧ 0 + 100000 ≤ running.time ∧
    (let s := (waitsDraw .peerSwap 0x0512 running).onPeer fun _ => some swapLink
     execOf s .hf = some { fresh 0x0512 0 [] with phase := .peerSwap } ∧ s.peer = some swapLink ∧ swapLink.drawAt = some (0, true)) := by
  decide
def opened : State := (running.onPins fun p => { p with testEn := true }).onPwr fun p => { p with testEn1 := true }
theorem witness_charter_break : ReadyHere .house 0x0109 [] opened ∧ opened.pins.testEn = true ∧ opened.pwr.testEn1 = true ∧
    (nvSubmit (nvJob .breakCharter (some .house) (pageOf .breakCharter) 17)
      (((stopTransmission opened).onHouseLane stopKeys).onChr fun k => { k with keysDead := true })).isSome = true ∧
    ReadyHere .house 0x0109 [] running ∧ running.pins.testEn = false := by decide
def noisy (pool : Nat) : State :=
  running.onRng fun r => { r with jitterOn := true, noiseOn := true, pool := List.replicate pool 0 }
def stretched : State := (noisy 32).onRng fun r => { r with instantiated := true, stretched := true }
def drawing : State := withExec .uhf { fresh 0x0400 0 [] with phase := .draw 0 } running
theorem witness_noise : fabStopped (noisy 0) = false ∧ blockNext (noisy 0) true ≤ (noisy 0).time ∧
    blockNext (noisy 0) false ≤ (noisy 0).time ∧ sourceOn (noisy 0) true = true ∧ sourceOn (noisy 0) false = true ∧
    sourceFails (noisy 0) true + 1 < cfg (noisy 0) 0x600 ∧ 384 ≤ poolBits (noisy 48) ∧
    (noisy 48).rng.instantiated = false ∧ stretched.rng.stretched = true ∧ 256 ≤ poolBits stretched ∧
    execOf drawing .uhf = some { fresh 0x0400 0 [] with phase := .draw 0 } ∧ 0 + 100000 ≤ drawing.time := by decide
set_option maxRecDepth 1000000 in
/-- Raw input that passes, and that fails the repetition count and the edge counts of the rings. -/
theorem witness_blocks : (blockTest true HealthTest.reset (List.replicate 256 0x55) [] []).1 = 0 ∧
    (blockTest true HealthTest.reset (List.replicate 256 0) [] []).1 = 1 ∧
    (blockTest false HealthTest.reset (List.replicate 512 0x55) [(500, 199)] []).1 = 3 ∧
    (List.replicate 512 (0x55 : Byte)).length = rawLength false := by decide +kernel
theorem witness_rng_opcodes : ReadyHere .house 0x0700 (le 4 65536 ++ le 4 0 ++ le 4 0x3000) running ∧
    ReadyHere .house 0x0701 [] running ∧ ReadyHere .house 0x0702 (le 1 3) running := by decide
/-- A valid record of a slot and version. -/
def aRecord (slot v : Nat) : List Byte :=
  withCrc (padTo 224 (le 4 0x72144B53 ++ le 1 slot ++ le 3 0 ++ le 2 v)) ++ le 12 0 ++ commitHalf
def keyed : State := charged.onNv fun n => { n with
  keyLog := .valid, keyLogFree := 100, pool := modAt n.pool 0 fun _ => .live 63
  poolBytes := modAt n.poolBytes 0 fun _ => aRecord 63 1
  slots := modAt n.slots 63 fun _ => ⟨1, 0, 0, 0xF, 1, 1000, List.replicate 16 0, [], 0, none, none⟩ }
def shadowed : State := keyed.onNv fun n => { n with
  slots := modAt n.slots 63 fun k => { k with shadow := some ⟨0, 0, 0xF, 2, List.replicate 16 0, [], 1, false⟩ } }
def stageP : List Byte := bytes [63, 0, 15, 0] ++ le 2 2 ++ bytes [0, 0] ++ le 4 0x3000 ++ le 2 0
theorem witness_key_stage : ReadyHere .house 0x0710 stageP keyed ∧ stageOk (pkt 0x0710 0 stageP) = true ∧
    slotOpen keyed 0 63 = true ∧ (slotOf keyed 63).version < 2 ∧ stageWaits keyed = false ∧ keyed.chr.keysDead = false := by
  decide
theorem witness_key_store : ReadyHere .house 0x0711 (le 1 63) shadowed ∧ (shadowOf shadowed 63).isSome = true ∧
    (entrySubmit (.keyActivate 63 ⟨0, 0, 0xF, 2, List.replicate 16 0, [], 1, false⟩) (some .house) shadowed).isSome = true ∧ ReadyHere .house 0x0712 (le 1 63) keyed ∧
    ReadyHere .house 0x0713 (le 1 63) keyed ∧ (entrySubmit (.keyDestroy 63) (some .house) keyed).isSome = true ∧
    (let s := keyed.onNv fun n => { n with keyLogFree := 7 }
     s.nv.keyLog = .valid ∧ s.nv.keyLogFree < 8 ∧ keyCommitRuns s = false ∧ fenced s 6 = false ∧
       ((rollJob s).bind (nvSubmit · s)).isSome = true) := by decide
/-- KEY_STAGE derived from a parent slot: of another tenant, within its ceiling, at it; and with a log to erase first.
-/
def deriveP : List Byte := bytes [62, 0, 15, 0] ++ le 2 2 ++ bytes [1, 63] ++ le 4 0x3000 ++ le 2 1
def parented (owner used : Nat) : State := keyed.onNv fun n => { n with
  slots := modAt n.slots 63 fun k => { k with owner := owner, ceiling := used } }
theorem witness_derive : stageOk (pkt 0x0710 0 deriveP) = true ∧ Packet8 (pkt 0x0710 0 deriveP) 6 = 1 ∧
    (let s := given .house 0x0710 deriveP (parented 1 1000)
     Ready .house 0x0710 (fresh 0x0710 0 deriveP) s ∧ slotOpen s 0 62 = true ∧ (slotOf s 62).version < 2 ∧
       s.chr.keysDead = false ∧ useBar s 0 63 3 = some 0x32) ∧
    (let s := given .house 0x0710 deriveP (parented 0 1000)
     Ready .house 0x0710 (fresh 0x0710 0 deriveP) s ∧ slotOpen s 0 62 = true ∧ useBar s 0 63 3 = none ∧
       stageWaits s = false ∧ atCeiling s 63 = false) ∧
    (let s := given .house 0x0710 deriveP (parented 0 0)
     Ready .house 0x0710 (fresh 0x0710 0 deriveP) s ∧ slotOpen s 0 62 = true ∧ useBar s 0 63 3 = none ∧
       stageWaits s = false ∧ atCeiling s 63 = true ∧ (useSubmit 63 s).isSome = true) ∧
    (let s := given .house 0x0710 stageP (keyed.onNv fun n => { n with keyLog := .noHeader })
     Ready .house 0x0710 (fresh 0x0710 0 stageP) s ∧ slotOpen s 0 63 = true ∧ (slotOf s 63).version < 2 ∧
       s.chr.keysDead = false ∧ stageWaits s = true) := by decide
def aesP : List Byte := bytes [63, 2, 0, 0] ++ le 4 65536 ++ le 4 0x3000 ++ le 4 0x4000
def cmacP : List Byte := bytes [63, 0, 16, 0] ++ le 4 65536 ++ le 4 0x3000
theorem witness_cipher : ReadyHere .house 0x0720 aesP keyed ∧ aesOk (pkt 0x0720 0 aesP) = true ∧
    (let x := admittedSlot keyed (fresh 0x0720 0 aesP)
     barOf x (usedOf keyed 63) 0 1 = none ∧ (barOf x (usedOf keyed 63) 1 1).isSome = true ∧
       barOf x (usedOf keyed 63) 0 2 = none ∧ (barOf x (usedOf keyed 63) 1 2).isSome = true) ∧ atCeiling keyed 63 = false ∧
    ReadyHere .house 0x0721 cmacP keyed ∧ 4 ≤ Packet8 (pkt 0x0721 0 cmacP) 2 ∧ Packet8 (pkt 0x0721 0 cmacP) 2 ≤ 16 ∧
    Packet32 (pkt 0x0721 0 cmacP) 4 ≤ 65536 := by decide
/-- The slot belongs to another tenant. -/
theorem witness_barred : (let s := given .house 0x0720 aesP (parented 1 1000)
    Ready .house 0x0720 (fresh 0x0720 0 aesP) s ∧ aesOk (pkt 0x0720 0 aesP) = true ∧ s.chr.keysDead = false ∧
      barOf (admittedSlot s (fresh 0x0720 0 aesP)) (usedOf s 63) 0 1 = some 0x32) ∧
    (let s := given .house 0x0721 cmacP (parented 1 1000)
     Ready .house 0x0721 (fresh 0x0721 0 cmacP) s ∧
       barOf (admittedSlot s (fresh 0x0721 0 cmacP)) (usedOf s 63) 0 2 = some 0x32) := by decide
set_option maxRecDepth 1000000 in
/-- An active record that reads uncorrectable, one that stands at its ceiling, and a slot that another key has taken. -/
theorem witness_record_gone : recordGone keyed 63 = false ∧
    recordGone (eccRead 0xD3000 0xD3100 ⟨[0xD3010], 0⟩ keyed) 63 = true ∧
    keyStands keyed (fresh 0x0720 0 aesP) = true ∧
    (let e := { fresh 0x0720 0 aesP with slot := some { KeySlot.empty with state := 1, version := 9, usage := 15 } }
     keyStands keyed e = false ∧ barOf (admittedSlot keyed e) (usedBy keyed e) 0 1 = none) ∧
    (let s := given .house 0x0720 aesP (keyed.onNv fun n =>
       { n with slots := modAt n.slots 63 fun k => { k with ceiling := 0 } })
     let t := keyRead {} 63 s
     keyStands t (fresh 0x0720 0 aesP) = true ∧ atCeiling t 63 = true ∧ (useSubmit 63 t).isSome = true) := by
  decide +kernel
def samOwned : State := running.onSam1 fun m => { m with lease := some 0 }
def samOp : SamPowerOp := ⟨1, false, 1, [], 0, false, false, 0, false⟩
def samDuring (st : SamStage) (ph : Phase) : State :=
  withExec .house { fresh 0x0800 0 [] with phase := ph } (samOwned.onSam1 fun m => { m with stage := st, waitAt := some 0 })
def xop : SamXchgOp := ⟨1, false, [], [], [], 0, 2, 0, 0, 0, false⟩
def exchangeP : List Byte := le 1 1 ++ le 1 0 ++ le 2 4 ++ le 4 0x3000 ++ le 4 0x4000 ++ le 2 4096
theorem witness_sam_power : ReadyHere .house 0x0800 (bytes [1, 1, 3, 0] ++ le 4 0) samOwned ∧ samLeased samOwned 1 0 = true ∧
    samUser (samDuring .atrWait (.samPower samOp)) 1 = some { fresh 0x0800 0 [] with phase := .samPower samOp } ∧
    (samSt (samDuring .atrWait (.samPower samOp)) 1).stage = .atrWait ∧
    rstHigh (samDuring .atrWait (.samPower samOp)) 1 = true ∧ (atrInfo (bytes [0x3B, 0x00])).valid = true ∧ (atrInfo (bytes [0x3A, 0x00])).valid = false ∧
    windowOver (samDuring .atrWait (.samPower samOp)) (samSt (samDuring .atrWait (.samPower samOp)) 1).waitAt = true ∧
    (samSt (samDuring .offWait (.samPower samOp)) 1).offAt + 10000 ≤ running.time := by decide
/-- S(IFS request) waits for its answer; an exchange that is to stop; a block of T=1 whose characters came too far
apart. -/
theorem witness_sam_ifs : samUser (samDuring .ifsWait (.samPower samOp)) 1 = some { fresh 0x0800 0 [] with phase := .samPower samOp } ∧
    (samSt (samDuring .ifsWait (.samPower samOp)) 1).stage = .ifsWait ∧
    windowOver (samDuring .ifsWait (.samPower samOp)) (samSt (samDuring .ifsWait (.samPower samOp)) 1).waitAt = true ∧
    stopDue (samDuring .ifsWait (.samPower samOp)) { fresh 0x0800 0 [] with phase := .samPower samOp } = none ∧
    (let e := { fresh 0x0801 0 [] with phase := .samXchg xop, stop := some 0x15 }
     let s := withExec .house e (samDuring .ready (.samXchg xop))
     samUser s 1 = some e ∧ stopDue s e = some 0x15) ∧ samCwt { Sam.reset with proto := 1 } < 10 ^ 9 := by decide
theorem witness_sam_exchange : (let s := samOwned.onSam1 fun m => { m with stage := .ready }
    ReadyHere .house 0x0801 exchangeP s ∧ (samSt s 1).stage = .ready) ∧
    Packet16 (pkt 0x0801 0 exchangeP) 2 = 4 ∧ Packet16 (pkt 0x0801 0 exchangeP) 12 = 4096 ∧
    samUser (samDuring .ready (.samXchg xop)) 1 = some { fresh 0x0800 0 [] with phase := .samXchg xop } ∧
    windowOver (samDuring .ready (.samXchg xop)) (samSt (samDuring .ready (.samXchg xop)) 1).waitAt = true := by decide
theorem witness_sam_lease : ReadyHere .house 0x0802 (bytes [1, 0, 0, 0]) running ∧ (samSt running 1).lease = none ∧
    ReadyHere .house 0x0802 (bytes [1, 1, 0, 0]) samOwned ∧ (samSt samOwned 1).lease = some 0 ∧
    running.pwr.state = .run ∧ (samSt running 1).present = false ∧ (cfg running 0x703 = 1 ↔ false = true) ∧
    1000 * cfg running 0x704 ≤ 1000000 ∧
    (let s := running.onSam1 fun m => { m with present := true }
     (samSt s 1).present = true ∧ (samSt s 1).stage = .off ∧ (cfg s 0x703 = 1 ↔ true = false)) ∧
    samPowered (samDuring .ready .fresh) 1 = true ∧
    ((samOwned.onSam1 fun m => { m with limitAt := some 0 }).sam1.limitAt = some 0 ∧ 0 + 1000 ≤ running.time) := by decide
theorem witness_gpio : ReadyHere .house 0x0810 (bytes [15, 15, 15, 0]) running ∧
    (List.range 4).all (fun i => pinOwnedBy running i 0) = true ∧ running.gpio.level.getLsbD 3 ≠ true ∧
    cfg running 0x718 ≤ 1000 ∧ running.gpio.dir.getLsbD 3 = false ∧ edgeSelected running 3 true = false ∧
    edgeSelected (setField 0x717 1 running) 3 true = true := by decide
theorem witness_pins : running.portB.vio = true ∧ inService running = true ∧ (inState .retain).portB.vio = false ∧
    (inState .retain).pwr.state ≠ .startup ∧ (inState .retain).pwr.state ≠ .off ∧
    (inState .retain).pwr.state ≠ .deepStandby ∧ (inState .off).pwr.state = .off ∧
    (inState .deepStandby).pwr.state = .deepStandby ∧ (inState .lpcd).pwr.state ≠ .run := by decide
/-- A SAM_EXCHANGE is suspended behind a NOP. -/
def samE : Exec := { fresh 0x0801 0 [] with phase := .samXchg xop }
def parkedSam : State :=
  (withExec .house { fresh 0 0 [] with pkt := { pkt 0 0 [] with id := 8 } } (samOwned.onSam1 fun m =>
    { m with stage := .ready })).onHouseLane fun x => { x with susp := [samE] }
theorem witness_suspended : samWaiter 1 samE = true ∧ execOf (withExec .house samE running) .house = some samE ∧
    (laneSt running .house).susp = [] ∧
    (∀ x, parkedSam.houseLane.exec = some x → samWaiter 1 x = false) ∧
    parkedSam.houseLane.susp.find? (samWaiter 1) = some samE ∧ (samSt parkedSam 1).stage = .ready ∧
    running.houseLane.exec = none ∧ running.houseLane.susp = [] ∧ samE.parked = false := by
  refine ⟨by decide, by decide, by decide, ?_, by decide, by decide, by decide, by decide, by decide⟩
  intro x h; cases h; rfl

/-! ## HF chain -/

/-- A Keeper's packet with these parameters on the lane of a chain it holds. -/
abbrev ReadyChain (c : Chain) (op : Nat) (ps : List Byte) (s : State) : Prop :=
  ReadyLeased c op (fresh op 0 ps) (withExec (chainLane c) (fresh op 0 ps) s)

def region : Charter := profileEu 1000000 0 0
/-- Both leases with the Keeper, a charter in force, both synthesisers locked, both transmitters off. -/
def dark : State :=
  let s := heldBy 0 (running.onChr fun c => { c with inForce := some region })
  (s.onHf fun h => { h with radio := .listen, pll := .locked }).onUhf fun u => { u with radio := .listen, synth := .locked }
def hfOn : State := dark.onHf fun h => { h with on := true, radio := .rx }
theorem witness_field_on_off : ReadyChain .hf 0x0300 (bytes [0, 0, 0, 0] ++ le 4 0) hfOn ∧ hfEmits hfOn = true ∧
    ReadyChain .hf 0x0300 (bytes [0, 0, 0, 0] ++ le 4 0) dark ∧ hfEmits dark = false ∧
    ReadyChain .hf 0x0300 (bytes [1, 0, 0, 0] ++ le 4 0) dark ∧ ReadyChain .hf 0x0300 (bytes [1, 1, 0, 0] ++ le 4 0) dark ∧
    hfBusy dark = false ∧ (charter dark).isSome = true ∧ hfUp dark = false ∧ hfAllowed dark = true ∧
    dark.hf.falling = none ∧ (powerCheck dark 0 true 0x200 0).noRoom = false ∧
    ReadyChain .hf 0x0300 (bytes [2, 0, 0, 0] ++ le 4 0) hfOn ∧ hfUp hfOn = true ∧
    (powerCheck hfOn 0 true 0x200 0).noRoom = false := by decide
def sensing (ext : Bool) : State :=
  withExec .hf { fresh 0x0300 0 [] with phase := .sense 0 } (dark.onHf fun h => { h with ext := ext })
theorem witness_sensing : (sensing true).hfLane.exec = some { fresh 0x0300 0 [] with phase := .sense 0 } ∧
    0 ≤ (sensing true).time ∧ (sensing true).hf.ext = true ∧ (sensing false).hf.ext = false ∧
    stopDue (sensing true) { fresh 0x0300 0 [] with phase := .sense 0 } = none ∧ setpointMet hfOn 0 = true := by decide
theorem witness_field_moments : (dark.onHf fun h => { h with rising := true }).hf.rising = true ∧
    dark.hf.riseEnd ≤ dark.time ∧ hfLit hfOn = true ∧ hfOn.hf.rising = false ∧ hfOn.hf.nextStep = none ∧
    hfInFrame hfOn = false ∧ (dark.onHf fun h => { h with falling := some 2 }).hf.falling = some 2 ∧
    dark.hf.fallEnd ≤ dark.time ∧ (running.onHf fun h => { h with pll := .starting }).hf.pll = .starting ∧
    dark.hf.pll = .locked ∧ hfOn.hf.limited = false ∧ hfEmits hfOn = true ∧ hfOn.hf.drive = 0 ∧
    (hfOn.onHf fun h => { h with drive := 1 }).hf.drive ≠ 0 ∧ driveHeld hfOn = false ∧
    hfOn.hf.wait = none ∧ (hfOn.onHf fun h => { h with wait := some 0 }).hf.wait.isSome = true := by decide
theorem witness_matching : measureDue hfOn = true ∧ mismatched hfOn 200 1229 = false ∧
    mismatched hfOn 200 1230 = true ∧ hfOn.hf.bad < 2 ∧ (hfOn.onHf fun h => { h with bad := 2 }).hf.bad = 2 ∧
    hfOn.hf.alarm = false ∧ (hfOn.onHf fun h => { h with alarm := true }).hf.alarm = true ∧
    ReadyChain .hf 0x0306 (bytes [2, 63, 63, 0]) hfOn ∧ hfFrameRuns (abandonRetune hfOn) = false ∧
    ReadyChain .hf 0x0306 (bytes [2, 63, 63, 0]) (hfOn.onHf fun h => { h with wait := some 0 }) ∧
    hfFrameRuns (abandonRetune (hfOn.onHf fun h => { h with wait := some 0 })) = true := by decide
def lpcdP : List Byte := le 2 1000 ++ bytes [8, 63, 4, 1]
theorem witness_lpcd : Ready .hf 0x0307 (fresh 0x0307 0 lpcdP) (withExec .hf (fresh 0x0307 0 lpcdP) dark) ∧
    Packet16 (pkt 0x0307 0 lpcdP) 0 = 1000 ∧ Packet8 (pkt 0x0307 0 lpcdP) 2 = 8 ∧ Packet8 (pkt 0x0307 0 lpcdP) 3 = 63 ∧
    Packet8 (pkt 0x0307 0 lpcdP) 4 = 4 ∧ bit (Packet8 (pkt 0x0307 0 lpcdP) 5) 0 = true ∧ hfEmits dark = false ∧
    holds dark .hf 0 = true ∧ hfBusy dark = false ∧ running.hf.lpcd.next ≤ nowAon running ∧ baselining running = none ∧
    lpcdDiscard running = false ∧ lpcdDiscard (running.onPins fun p => { p with fdet := true }) = true ∧
    (let s := running.onHf fun h => { h with lpcd := { h.lpcd with next := 10 ^ 9 } }
     nowAon s < s.hf.lpcd.next) ∧
    (running.onHf fun h => { h with lpcd := { h.lpcd with run := true } }).hf.lpcd.run = true := by decide
theorem witness_agc : (let v := agcView (dark.onHf fun h => { h with gain := 1, quiet := 99999 }) .hf
    v.auto = true ∧ v.runs = true ∧ v.gain = 1 ∧ 0 < v.gain ∧ v.high ≤ 8191 ∧ v.gain < v.top ∧ 0 < v.high ∧ 0 < v.low ∧
      v.dwellDone = true) ∧ (dark.onUhf fun u => { u with radio := .rx }).uhf.radio ≠ .listen := by decide
theorem witness_external : dark.hf.radio = .listen ∧ dark.hf.ext = false ∧ extCode dark ≤ 8191 ∧ extLowCode dark ≤ 8191 ∧
    extLowCode dark < extCode dark ∧ 0 < extLowCode dark ∧
    (let s := dark.onHf fun h => { h with ext := true }
     s.hf.ext = true ∧ s.hf.extSeen + 1000 ≤ s.time) ∧
    dark.time < (dark.onHf fun h => { h with extSeen := 999999 }).hf.extSeen + 1000 := by decide
def card (tech state : Nat) : Card := ⟨8, tech, state, [], 0, 0, 0, 1000, [], [], 0, 0xFF, 0, 0, 8, 4, 0, 0, false⟩
def carded (tech state : Nat) : State := hfOn.onHf fun h => { h with cards := [card tech state] }
def actP (level : Nat) : List Byte := bytes [8, level, 0, 0, 8, 0xFF, 0, 0] ++ le 4 0x3000
theorem witness_card_search : ReadyChain .hf 0x0301 (bytes [7, 0, 4, 0] ++ le 4 0 ++ le 4 0x3000) hfOn ∧
    ReadyChain .hf 0x0302 (actP 0) (carded 0 1) ∧ cardOf (carded 0 1) 8 = some (card 0 1) ∧
    cidClash (carded 0 1) 8 0xFF = false ∧ ReadyChain .hf 0x0302 (actP 0) (carded 1 1) ∧
    ReadyChain .hf 0x0302 (actP 1) (carded 2 1) := by decide
def rawP (h : Nat) : List Byte := bytes [h, 0, 0, 0] ++ le 2 4096 ++ le 2 4096 ++ le 4 0x3000 ++ le 4 0x4000 ++ le 4 5000000
theorem witness_card_exchange : ReadyChain .hf 0x0303 (rawP 0) hfOn ∧ rawHandleOk hfOn 0 false = true ∧
    ReadyChain .hf 0x0308 (rawP 8) (carded 2 1) ∧ request15 8 false 4086 ≤ 4096 ∧ 4096 < request15 8 false 4087 ∧
    request15 8 true 4092 ≤ 4096 ∧ rawHandleOk (carded 2 1) 8 true = true ∧
    ReadyChain .hf 0x0304 (bytes [8, 0, 0, 0] ++ le 4 65535 ++ le 4 0x3000 ++ le 4 0x4000 ++ le 4 65535) (carded 0 3) ∧
    ReadyChain .hf 0x0305 (bytes [8, 1]) (carded 0 3) ∧ ReadyChain .hf 0x0305 (bytes [8, 0]) (carded 0 3) := by decide
def rawP15 (h n : Nat) : List Byte :=
  bytes [h, 0x20, 0, 0] ++ le 2 n ++ le 2 4096 ++ le 4 0x3000 ++ le 4 0x4000 ++ le 4 5000000
def hfSent : State := hfOn.onHf fun h => { h with wait := some 0 }
def uhfOn : State := dark.onUhf fun u => { u with on := true, radio := .rx, visitFrom := some 0 }
def uhfSent : State := uhfOn.onUhf fun u => { u with wait := some 0 }
theorem witness_frames : (hfOn.onHf fun h => { h with tx := some .reqa }).hf.tx = some .reqa ∧
    uhfNoReply (.query 0 0 false 4 ⟨false, 10, 4, false, 320⟩) = false ∧ hfSent.hf.wait = some 0 ∧ hfSent.hf.tx = none ∧ hfBusy hfSent = false ∧
    uhfSent.uhf.wait = some 0 ∧ uhfSent.uhf.tx = none ∧ uhfLit uhfSent = true ∧ 0 ≤ uhfSent.time ∧
    FrameResult.ok ≠ .noSof := by decide

theorem witness_loop_limit : (let s := hfOn.onHf fun h => { h with lowSince := some 0, drive := 1023 }
    hfLit s = true ∧ s.hf.rising = false ∧ s.hf.limited = false ∧ loopLimited s = true ∧ s.hf.wait = none ∧
      (s.onHf fun h => { h with wait := some 0 }).hf.wait.isSome = true ∧
      loopLimited (s.onHf fun h => { h with wait := some 0 }) = true) ∧
    (let s := (running.onPins fun p => { p with fdet := true }).onHf fun h => { h with lpcd := { h.lpcd with run := true } }
     s.hf.lpcd.next ≤ nowAon s ∧ baselining s = none ∧ s.hf.lpcd.run = true ∧ lpcdDiscard s = true) := by decide
theorem witness_15693 : ReadyChain .hf 0x0308 (rawP15 8 4086) (carded 2 1) ∧ (4086 : Nat) ≤ 4092 ∧
    request15 8 (bit (Packet8 (pkt 0x0308 0 (rawP15 8 4086)) 2) 1) 4086 ≤ 4096 ∧
    rawHandleOk (given .hf 0x0308 (rawP15 8 4086) (carded 2 1)) 8 true = true ∧
    (uhfOn.onUhf fun u => { u with tx := some .queryRep }).uhf.tx = some .queryRep ∧ uhfNoReply .queryRep = false := by decide

/-! ## UHF chain -/

theorem witness_carrier : ReadyChain .uhf 0x0403 (bytes [0, 0, 0, 0] ++ le 4 0) uhfOn ∧ uhfEmits uhfOn = true ∧
    ReadyChain .uhf 0x0403 (bytes [0, 0, 0, 0] ++ le 4 0) dark ∧
    ReadyChain .uhf 0x0403 (bytes [1, 0, 0, 0] ++ le 4 0) dark ∧ dark.uhf.blocked = false ∧ (charter dark).isSome = true ∧
    channelOk dark dark.uhf.mode dark.uhf.index = true ∧ carrierOn dark = false ∧ uhfAllowed dark = true ∧
    dark.uhf.falling = none ∧ (powerCheck dark 0 true 0x300 0).noRoom = false ∧
    ReadyChain .uhf 0x0404 (bytes [1, 0]) dark ∧ channelOk dark 1 0 = true ∧ channelOk dark 0 3 = true ∧
    uhfEmits dark = false ∧ dark.chr.inForce = some region ∧ dark.uhf.synth = .locked ∧ dark.uhf.index ≠ 3 := by decide
theorem witness_carrier_moments : (dark.onUhf fun u => { u with rising := true }).uhf.rising = true ∧
    dark.uhf.riseEnd ≤ dark.time ∧ uhfEmits uhfOn = true ∧
    uhfOn.uhf.falling = none ∧ (dark.onUhf fun u => { u with falling := some .hop }).uhf.falling = some .hop ∧ dark.uhf.fallEnd ≤ dark.time := by
  decide
theorem witness_synth : (dark.onUhf fun u => { u with synth := .starting }).uhf.synth = .starting ∧
    (dark.onUhf fun u => { u with synth := .starting, relock := true }).uhf.relock = true ∧
    secondUnlock (dark.onUhf fun u => { u with unlockAt := some 999999 }) = true ∧ secondUnlock dark = false ∧
    dark.uhf.synth = .locked ∧
    (let s := (dark.onTow fun t => { t with recalDue := true }).onUhf fun u => { u with radio := .synth }
     recalMayRun s = true ∧ (s.onTow fun t => { t with recalRun := true }).tow.recalRun = true ∧
       recalMayRun (s.onTow fun t => { t with recalRun := true }) = true) := by decide
def longVisit : State := { uhfOn with time := 10 ^ 7 }
theorem witness_visits : uhfLit longVisit = true ∧ longVisit.uhf.visitFrom = some 0 ∧ longVisit.uhf.hopDue = false ∧
    longVisit.cal.holding = none ∧ hardLimit longVisit ≤ visitTime longVisit ∧
    hardLimit longVisit - hopGuard longVisit ≤ visitTime longVisit ∧
    hopReady (uhfOn.onUhf fun u => { u with hopDue := true }) = true ∧
    (dark.onUhf fun u => { u with riseWait := .rest }).uhf.riseWait = .rest ∧
    (dark.onUhf fun u => { u with riseWait := .channel }).uhf.riseWait = .channel ∧ dark.uhf.restUntil ≤ dark.time := by
  decide
theorem witness_listening : charter dark = some region ∧ (dark.onUhf fun u => { u with riseWait := .lbt }).uhf.riseWait = .lbt ∧
    dark.uhf.readyAt ≤ dark.time ∧ (-701 : Int) < region.lbtThr ∧ region.lbtThr ≤ -700 ∧
    (dark.onUhf fun u => { u with mode := 0, riseWait := .lbt }).uhf.mode = 0 ∧
    (dark.onUhf fun u => { u with riseWait := .backoff }).uhf.riseWait = .backoff ∧ dark.uhf.restUntil ≤ dark.time ∧
    uhfOn.uhf.measAt ≤ uhfOn.time ∧ uhfLit uhfOn = true ∧ uhfOn.uhf.radio = .rx ∧ uhfInFrame uhfOn = false ∧
    cfg uhfOn 0x307 ≤ 300 ∧ 9 < cfg uhfOn 0x307 ∧ uhfOn.uhf.low < 2 ∧ uhfOn.uhf.alarm = false ∧
    (uhfOn.onUhf fun u => { u with low := 2 }).uhf.low = 2 := by decide
def accessP : List Byte := bytes [62, 1, 0, 0] ++ le 4 0x3000 ++ le 4 0x4000 ++ le 4 0x5000
theorem witness_tags : ReadyChain .uhf 0x0400
      (bytes [3, 2, 3, 0] ++ le 2 4096 ++ bytes [1, 0] ++ le 4 60000 ++ le 4 0x3000) uhfOn ∧ carrierOn uhfOn = true ∧
    ReadyChain .uhf 0x0402 (bytes [3, 1, 4, 7, 3, 2] ++ le 2 255 ++ le 4 0 ++ le 4 0x3000) uhfOn ∧
    ReadyChain .uhf 0x0401 accessP (poundWrite 0 0x4000 (bytes [0, 1, 255, 0]) uhfOn) ∧
    entryOk (poundWrite 0 0x4000 (bytes [0, 1, 255, 0]) uhfOn) 0
      (poundRead (poundWrite 0 0x4000 (bytes [0, 1, 255, 0]) uhfOn) 0 0x4000 16) 0 = true ∧
    inPound uhfOn 0 0x5000 (8 + 510) = true := by decide

def selectP (now : Nat) : List Byte := bytes [3, 1, 4, 7, 3, now] ++ le 2 255 ++ le 4 0 ++ le 4 0x3000
theorem witness_select : ReadyChain .uhf 0x0402 (selectP 0) uhfOn ∧ bit (Packet8 (pkt 0x0402 0 (selectP 0)) 5) 1 = false ∧
    Packet16 (pkt 0x0402 0 (selectP 0)) 6 = 255 ∧
    ReadyChain .uhf 0x0402 (selectP 2) uhfOn ∧ bit (Packet8 (pkt 0x0402 0 (selectP 2)) 5) 1 = true ∧
    carrierOn (given .uhf 0x0402 (selectP 2) uhfOn) = true := by decide

/-! ## Spectrum, captures, calibration and the towpath -/

def captureP : List Byte := bytes [1, 2, 2, 0] ++ le 2 32768 ++ le 2 60000 ++ le 4 0x3000
def captured (armed : Bool) : State :=
  dark.onCapUhf fun _ => some ⟨0, 2, 1, 64, 0x3000, 0, armed, false, 0, 0, false, false, false⟩
theorem witness_spectrum : (dark.onSpec fun m => { m with queue := [(.uhf, none)] }).spec.queue = [(.uhf, none)] ∧
    (dark.onSpec fun m => { m with queue := [(.hf, none)] }).spec.queue = [(.hf, none)] ∧ dark.spec.queue = [] ∧
    Ready .uhf 0x0A01 (fresh 0x0A01 0 (bytes [1, 0])) (withExec .uhf (fresh 0x0A01 0 (bytes [1, 0])) dark) ∧
    laneOfFresh (withExec .uhf (fresh 0x0A01 0 (bytes [1, 0])) dark) 0x0A01 = .uhf ∧
    (checkKey dark .uhf [(0, 0), (100000, 5)]).2.isSome = true := by decide
theorem witness_captures : Ready .uhf 0x0A00 (fresh 0x0A00 0 captureP) (withExec .uhf (fresh 0x0A00 0 captureP) dark) ∧
    captureOk (pkt 0x0A00 0 captureP) = true ∧ holds dark .uhf 0 = true ∧ capOf dark .uhf = none ∧
    radioOf dark .uhf ≠ .synth ∧ (capOf (captured true) .uhf).isSome = true ∧ (capOf (captured false) .uhf).isSome = true ∧
    (capOf (captured true) .uhf).map (·.trigger) = some 1 ∧
    ((capOf ((captured true).onCapUhf (Option.map fun k => { k with trigger := 2 })) .uhf).map (·.trigger)) = some 2 := by
  decide
def stepDue : State := onTowLane .hf (fun t => { t with due := [.noise], credit := 10 ^ 9 })
  (hfOn.onHf fun h => { h with gain := 0 })
def stepOn : State := onTowLane .uhf (fun t => { t with step := some .null }) uhfOn
theorem witness_towpath : (towNext stepDue .hf).isSome = true ∧ towNext hfOn .hf = none ∧
    (let s := stepOn.onTow fun t => { t with uhf := { t.uhf with stepAt := 999990 } }
     (towLane s .uhf).step = some .null ∧ overran s .uhf .null = false ∧
       s.time < (towLane s .uhf).stepAt + stepLen .uhf .null + 2 ∧ (towLane s .uhf).void = false ∧
       (towLane (onTowLane .uhf (fun t => { t with void := true }) s) .uhf).void = true ∧
       towNext (onTowLane .uhf (fun t => { t with step := none }) s) .uhf = none) ∧
    ((towLane stepOn .uhf).step = some .null ∧
      (towLane stepOn .uhf).stepAt + stepLen .uhf .null + 2 ≤ stepOn.time) ∧
    ReadyHere .house 0x0604 (bytes [2]) running := by decide
def calP (chain type ref : Nat) : List Byte := bytes [chain, type, 0, 0] ++ le 4 ref ++ le 4 0
def calHouse : State := withExec .house { fresh 0x0600 0 (calP 2 0 1) with phase := .calOsc } (running.onCal fun c =>
  { c with osc := some ⟨20000000, 0, 0, 0, 129, 0, 0, false, 128⟩ })
def holding : State := withExec .uhf { fresh 0x0600 0 [] with phase := .calHold true } (uhfOn.onCal fun c =>
  { c with holding := some 1, holdUntil := 0 })
theorem witness_cal_runs : ReadyChain .hf 0x0600 (calP 0 1 0) hfOn ∧ hfLit (discardGather .hf hfOn) = true ∧
    (discardGather .hf hfOn).hf.rising = false ∧ hfInFrame (discardGather .hf hfOn) = false ∧ ReadyChain .uhf 0x0600 (calP 1 2 0) dark ∧ uhfEmits (discardGather .uhf dark) = false ∧
    (discardGather .uhf dark).uhf.wantOn = false ∧ ReadyHere .house 0x0600 (calP 2 0 20000000) running ∧
    laneOfFresh (withExec .house (fresh 0x0600 0 (calP 2 0 20000000)) running) 0x0600 = .house ∧
    running.cal.osc = none := by decide
theorem witness_cal_moments : (oscRun calHouse).isSome = true ∧ calHouse.cal.xoTrim ≠ 129 ∧
    (let s := calHouse.onCal fun c => { c with xoTrim := 129 }
     s.cal.xoTrim = 129 ∧ 0 + 1000000 ≤ s.time ∧ 0 + 2000000 ≤ ({ s with time := 2000000 }).time) ∧ holding.cal.holding = some 1 ∧
    execOf holding .uhf = some { fresh 0x0600 0 [] with phase := .calHold true } ∧ holdOverAt holding = true ∧
    calHouse.hf.tx = none ∧ calHouse.uhf.wait = none := by decide
theorem witness_cal_banks : ReadyHere .house 0x0601 [] running ∧ stepRuns running = false ∧ stepRuns stepOn = true ∧
    ReadyHere .house 0x0602 (bytes [7, 0]) running ∧ (namedBank running 0).isSome = true := by decide
theorem witness_cal_load : Ready .house 0x0602 (fresh 0x0602 0 (bytes [7, 0])) (given .house 0x0602 (bytes [7, 0]) running) ∧
    (let s := eccRead 0xC1000 0xC5000 {} (given .house 0x0602 (bytes [7, 0]) running)
     stepRuns s = false ∧ (namedBank s 0).isSome = true) ∧
    (let s := eccRead 0xC1000 0xC5000 ⟨[0xC1000], 1⟩ (given .house 0x0602 (bytes [7, 0]) running)
     stepRuns s = false ∧ namedBank s 0 = none) ∧
    Ready .house 0x0602 (fresh 0x0602 0 (bytes [7, 0])) (given .house 0x0602 (bytes [7, 0]) stepOn) ∧
    stepRuns (eccRead 0xC1000 0xC5000 {} (given .house 0x0602 (bytes [7, 0]) stepOn)) = true := by decide

/-- Captures: armed with each trigger, and begun with its samples there. -/
def capture (trigger : Nat) (armed : Bool) : Capture := ⟨0, 2, trigger, 64, 0x3000, 0, armed, false, 0, 0, false, false, false⟩
theorem witness_capture_moments :
    capOf (dark.onCapUhf fun _ => some (capture 1 true)) .uhf = some (capture 1 true) ∧
    capOf (dark.onCapUhf fun _ => some (capture 2 true)) .uhf = some (capture 2 true) ∧ (capture 2 true).timeoutAt ≤ dark.time ∧
    capOf (dark.onCapUhf fun _ => some (capture 1 false)) .uhf = some (capture 1 false) ∧
    (capture 1 false).count ≤ (List.replicate 64 ((0, 0) : Int × Int)).length := by decide
/-- A step that ends with another due behind it. -/
def stepsOn : State := onTowLane .hf (fun t => { t with step := some .noise, stepAt := 999999, due := [.null], credit := 10 ^ 9 })
  (hfOn.onHf fun h => { h with gain := 0 })
theorem witness_next_step : (towLane stepsOn .hf).step = some .noise ∧ overran stepsOn .hf .noise = false ∧
    (towLane stepsOn .hf).void = false ∧
    (let v := (onTowLane .hf (fun t => { t with step := none, void := false }) stepsOn).onHf fun h => { h with stepFrom := none }
     (towNext (towWaiter (ctrAdd (towCtr .hf 2) 1 (imposeDelay .hf (stepEffect .hf .noise 0 0 0 v)))) .hf).isSome = true) ∧
    Ready .house 0x0604 (fresh 0x0604 0 (bytes [0])) (given .house 0x0604 (bytes [0]) running) ∧
    Ready .house 0x0604 (fresh 0x0604 0 (bytes [1])) (given .house 0x0604 (bytes [1]) running) ∧
    Ready .house 0x0601 (fresh 0x0601 0 []) (given .house 0x0601 [] stepOn) ∧ stepRuns (given .house 0x0601 [] stepOn) = true := by
  decide

/-! ## Emulation and peer mode -/

def emuP : List Byte := bytes [0, 0, 4, 0, 0x20, 2] ++ le 2 0 ++ le 8 0 ++ le 4 0 ++ le 4 0x3000 ++ le 4 0x4000 ++ le 4 0x5000
def emuReady : State := dark.onEmu fun _ => { Emu.reset with profile := some ⟨0, 0, 4, 0x20, [2, 0], [1, 2, 3, 4], 0, 0, 4⟩ }
def emuArmed (st : Nat) : State := emuReady.onEmu fun m => { m with armed := true, state := st, await := true }
theorem witness_emulation : ReadyChain .hf 0x0500 emuP dark ∧ emuParamsOk (pkt 0x0500 0 emuP) = true ∧
    ReadyChain .hf 0x0501 [] emuReady ∧ (profileOf emuReady 0).isSome = true ∧ hfEmits emuReady = false ∧
    (emuArmed 5).emu.state = 5 ∧ (emuArmed 1).emu.armed = true ∧ (emuArmed 5).hf.tx = none ∧
    (emuArmed 5).emu.wtxAt ≤ (emuArmed 5).time ∧ (emuArmed 5).emu.wtxOpen = false ∧
    ((emuArmed 5).onEmu fun m => { m with wtxOpen := true }).emu.wtxOpen = true ∧
    cfg (emuArmed 5) 0x233 ≤ ((emuArmed 5).onEmu fun m => { m with wtx := 255 }).emu.wtx ∧ (emuArmed 5).emu.wtx < cfg (emuArmed 5) 0x233 ∧
    ReadyChain .hf 0x0502 (le 2 4096) (emuArmed 5) ∧ inPound (emuArmed 5) 0 0 4096 = true ∧ poundFenced (emuArmed 5) 0 0 4096 = false ∧
    ReadyChain .hf 0x0503 [] (emuArmed 5) := by decide
def peerP : List Byte := bytes [1, 1, 2, 0, 14, 44, 0, 0] ++ le 4 0 ++ le 4 0x3000 ++ le 4 0x4000
def link (target : Bool) (st : PeerStage) : State := dark.onPeer fun _ =>
  some ⟨0, target, true, 0, true, 0, 0, 0, 0x3000, [], [], true, st, [], [], false, false, false, 0, 0, 0, 0, true, 0, none, 0, 0, none, 0, 0⟩
/-- A target whose answer is due, within its RWT and past it; a new initiator that has heard nothing. -/
def owing (end_ : Nat) : State := onPeerRun (fun p => { p with rwtEnd := end_ }) (link true .answerDue)
theorem witness_rtox : (owing 1000000).peer.any (fun r => answerOwed r && decide ((owing 1000000).time ≤ r.rwtEnd)) = true ∧
    (owing 0).peer.any (fun r => answerOwed r && decide (r.rwtEnd < (owing 0).time)) = true ∧ (owing 0).hf.tx = none ∧
    (owing 0).hf.held = none ∧ (link false .swapListen).hf.tx = none ∧ (link false .swapListen).hf.held = none ∧
    ((link false .open).peer.map (·.activeMode)) = some true := by decide
theorem witness_peer : ReadyChain .hf 0x0510 peerP dark ∧ hfBusy dark = false ∧
    ReadyChain .hf 0x0511 (le 4 4096 ++ le 4 0x3000) (link false .open) ∧
    ReadyChain .hf 0x0511 (le 4 4096 ++ le 4 0x3000) (link true .answerDue) ∧ peerHears (link true .listening) = true ∧
    ReadyChain .hf 0x0513 (bytes [0]) (link true .open) ∧
    ReadyChain .hf 0x0513 (bytes [1]) ((link false .open).onHf fun h => { h with on := true }) ∧
    hfLit ((link false .open).onHf fun h => { h with on := true }) = true := by decide
theorem witness_swap : ReadyChain .hf 0x0512 [] (link true .open) ∧ swapReady (link true .open) = true ∧
    swapReady (link true .listening) = false ∧ ReadyChain .hf 0x0512 [] (link true .listening) ∧ ((link false .swapBackoff).peer.map (·.stage)) = some .swapBackoff ∧
    ((link false .swapGap).peer.map (·.drawAt)) = some none ∧
    0 ≤ (link false .swapBackoff).time ∧ (link false .swapGap).hf.held = none ∧ hfAllowed (link false .swapGap) = true ∧
    ((link false .swapListen).peer.map (·.until_)) = some 0 ∧ ((link false .open).peer.map (·.otherOn)) = some true ∧
    ((link false .open).peer.map (·.activeMode)) = some true ∧ ((link false .sensing).peer.map (·.stage)) = some .sensing ∧
    inPeerPhase (link false .sensing) .peerStart = false ∧ inPeerPhase ((link false .sensing).onHfLane fun l =>
      { l with exec := some { fresh 0x0510 0 [] with phase := .peerStart } }) .peerStart = true ∧
    (rngDraw1 1 ((link true .open).onRng fun r => { r with reserve := [1, 2, 3, 4] })).isSome = true ∧
    (let s := (link false .open).onHf fun h => { h with held := some .reqa }
     s.hf.held.isSome = true ∧ hfEmits s = false) := by decide

end Sys2Proof.Tests
end

/-! # Doorbells: where they wait and how they reach the interrupt controller

First the rules of a port write that ends with its one word, then one rule for each step of a doorbell, then the two
statements. -/

namespace Sys2Proof.Machine

open Sys2Proof

/-! ## A port write of one word (R160, R163, R175, R205) -/

theorem state_ne_recovery_of_inService {s : State} (h : inService s = true) : s.pwr.state ≠ .recovery := by
  intro hr
  simp [inService, hr] at h

/-- On an open port a transaction finds nothing to end first. -/
theorem portBegin_of_open {p : Port} {s : State} (h : PortOpen p s) : portBegin p s = s := by
  obtain ⟨-, hstall, hburst⟩ := h
  cases p <;> simp [portBegin, hstall, hburst]

/-- A write to an open port with an aligned address is the run of its words. -/
theorem portWriteTx_of_open {p : Port} {s : State} {addr : Nat} (ws : List Word) (fin : TxEnd) (h : PortOpen p s)
    (ha : addr % 4 = 0) : portWriteTx p addr ws fin s = writeRun p { addr := addr, write := true } ws fin s := by
  simp [portWriteTx, portBegin_of_open h, h.1, ha]

/-- Words that miss a register leave nothing to it for the moment at which chip select rises. -/
theorem lateWord_eq_none {reg addr : Nat} {ws : List Word} (s : State) (p : Port)
    (h : reg < addr ∨ addr + 4 * ws.length ≤ reg) : lateWord s p reg addr ws = none := by
  rw [lateWord]
  exact if_neg fun ⟨h1, h2, _⟩ => by omega

/-- Where its words have left nothing for it, the rise of chip select has no effect. -/
theorem lateWords_of_none {o : OpenTx} (s : State) (hr : o.reset = 0) (hp : o.paCfg = none) : lateWords o s = s := by
  simp [lateWords, hr, hp, portResetReg, bits]

/-- A write of one word that passes its check, to neither PA_CFG nor PORT_RESET, is the effect of that word. -/
theorem portWriteTx_word {p : Port} {s : State} {addr : Nat} {w : Word} (h : PortOpen p s) (ha : addr % 4 = 0)
    (hcfg : addr ≠ 0x400020) (hreset : addr ≠ 0x400040) (hk : accessKind s p true addr w.toNat = none) :
    portWriteTx p addr [w] .whole s = writeWord p addr w.toNat s := by
  have hlate : ∀ reg, reg % 4 = 0 → addr ≠ reg → lateWord s p reg addr [w] = none := fun reg hreg hne =>
    lateWord_eq_none s p (by simp only [List.length_singleton]; omega)
  rw [portWriteTx_of_open _ _ h ha]
  simp only [writeRun, endWords, Bool.not_true, Bool.false_and, Bool.false_eq_true, if_false]
  rw [lateWords_of_none]
  · simp only [burstWrite, hk]
  · simp [resetWord, hlate 0x400040 rfl hreset]
  · simp [hlate 0x400020 rfl hcfg]

/-! ## The register block of the interrupt controller (R314, R317) -/

/-- A word of the block that is listed passes its check unless its rules deny it. -/
theorem accessKind_ic {p : Port} {s : State} {off v : Nat} (h : s.pwr.state ≠ .recovery) (hoff : off < 0x1000)
    (hl : icListed off = true) (hd : icDenied s p off v = false) : accessKind s p true (icBase + off) v = none := by
  have hpage : inTenantPages (icBase + off) = false := by
    rw [inTenantPages, Bool.and_eq_false_iff, decide_eq_false_iff_not]
    exact .inl (by simp only [icBase]; omega)
  have hbelow : ¬ icBase + off < 0x400000 ∧ ¬ icBase + off < 0x401000 ∧ icBase + off < 0x402000 := by
    simp only [icBase]; omega
  simp [accessKind, hpage, h, hbelow, hl, hd]

/-- A word of the block that passed its check has the effect of its register. -/
theorem writeWord_ic {s : State} {off : Nat} (p : Port) (v : Nat) (h : s.pwr.state ≠ .recovery) (hoff : off < 0x1000) :
    writeWord p (icBase + off) v s = icWrite p off v s := by
  have hbelow : ¬ icBase + off < 0x400000 ∧ ¬ icBase + off < 0x401000 ∧ icBase + off < 0x402000 := by
    simp only [icBase]; omega
  simp [writeWord, h, hbelow]

/-- A write to a listed register of the block that its rules allow is the effect of the register. -/
theorem portWriteTx_ic {p : Port} {s : State} {off : Nat} {w : Word} (h : PortReady p s) (hoff : off < 0x1000)
    (hl : icListed off = true) (hd : icDenied s p off w.toNat = false) :
    portWriteTx p (icBase + off) [w] .whole s = icWrite p off w.toNat s := by
  obtain ⟨hopen, hserv⟩ := h
  have hr := state_ne_recovery_of_inService hserv
  have ha : off % 4 = 0 := by
    simp only [icListed, Bool.and_eq_true, beq_iff_eq] at hl
    exact hl.1
  rw [portWriteTx_word hopen (by simp only [icBase]; omega) (by simp only [icBase]; omega)
    (by simp only [icBase]; omega) (accessKind_ic hr hoff hl hd), writeWord_ic p _ hr hoff]

/-- IC_DOORBELL takes a doorbell for the sources 112 to 127 from a port of the tenant that the source belongs to. -/
theorem icDenied_doorbell {s : State} {p : Port} {v : Nat} (hlo : 112 ≤ v % 2 ^ 8) (hhi : v % 2 ^ 8 < 128)
    (hp : portOf s p ((v % 2 ^ 8 - 112) / 2) = true) : icDenied s p 0 v = false := by
  have hmod : v % 128 = v % 2 ^ 8 := by omega
  have hbit : bit v 7 = false := by
    rw [bit, Nat.testBit_eq_decide_div_mod_eq, decide_eq_false_iff_not]
    omega
  rw [icDenied, if_pos rfl, hmod, hbit, decide_eq_false (Nat.not_lt.2 hlo), hp]
  rfl

/-! ## The steps of a doorbell -/

/-- While CK-FAB runs a doorbell waits at the fabric behind those of its producer (R11, R21). -/
theorem raise_of_running {s : State} (src pay : Nat) (h : fabStopped s = false) :
    raise src pay s = enqueue (producerOf src) ⟨src, BitVec.ofNat 24 pay, false⟩ s := by
  simp [raise, raiseAs, h]

/-- While CK-FAB stands the AON queue takes a doorbell that finds room (R109). -/
theorem raise_of_room {s : State} (src pay : Nat) (h : fabStopped s = true) (hroom : s.aon.queue.length < 4) :
    raise src pay s = s.onAon fun a => { a with queue := a.queue ++ [⟨src, BitVec.ofNat 24 pay, false⟩] } := by
  simp [raise, raiseAs, h, State.onAon, hroom]

/-- A doorbell that finds the AON queue full marks bit 23 of the fourth (R110). -/
theorem raise_of_full {s : State} (src pay : Nat) (h : fabStopped s = true) (hfull : 4 ≤ s.aon.queue.length) :
    raise src pay s = s.onAon fun a =>
      { a with queue := modAt a.queue 3 fun q => { q with pay := q.pay ||| 0x800000 } } := by
  simp [raise, raiseAs, h, State.onAon, Nat.not_lt.2 hfull]

theorem setPend_true (n : Nat) (s : State) :
    setPend n true s = s.onIc fun i => { i with pend := i.pend ||| (1#128 <<< n) } := rfl

theorem setPend_false (n : Nat) (s : State) :
    setPend n false s = s.onIc fun i => { i with pend := i.pend &&& ~~~(1#128 <<< n) } := rfl

/-- An allowed write to IC_DOORBELL puts the port's doorbell at the fabric (R314, R315). -/
theorem exec_icDoorbellWrite {p : Port} {v : Word} {s : State} (h : PortReady p s) (hlo : 112 ≤ v.toNat % 2 ^ 8)
    (hhi : v.toNat % 2 ^ 8 < 128) (hp : portOf s p ((v.toNat % 2 ^ 8 - 112) / 2) = true) :
    exec (.icDoorbellWrite p v) s = .next (enqueue (match p with | .a => .portA | .b => .portB)
      ⟨v.toNat % 2 ^ 8, BitVec.ofNat 24 (v.toNat / 256), true⟩ s) := by
  have hmod : v.toNat % 128 = v.toNat % 2 ^ 8 := by omega
  calc exec (.icDoorbellWrite p v) s
      = .next (portWriteTx p (icBase + 0) [v] .whole s) := rfl
    _ = .next (icDoorbell p v.toNat s) := by
        rw [portWriteTx_ic h (by decide) rfl (icDenied_doorbell hlo hhi hp)]
        rfl
    _ = _ := by rw [← hmod]; rfl

theorem exec_doorbellArrived_eq (s : State) : exec .doorbellArrived s = execDoorbellArrived s := rfl
theorem exec_coalesceTimeout_eq (n : Nat) (s : State) : exec (.coalesceTimeout n) s = execCoalesceTimeout n s := rfl
theorem exec_arbitration_eq (s : State) : exec .arbitration s = execArbitration s := rfl
theorem exec_delivery_eq (s : State) : exec .delivery s = execDelivery s := rfl

/-- In service the next doorbell of the fabric arrives at the controller (R21). -/
theorem exec_doorbellArrived {d : Doorbell} {s u : State} (h : inService s = true) (hd : takeDoorbell s = some (d, u)) :
    exec .doorbellArrived s = .next (arrive d u) := by
  simp [exec_doorbellArrived_eq, execDoorbellArrived, h, hd]

/-- A count whose TIME has passed makes its source pending (R326). -/
theorem exec_coalesceTimeout {n : Nat} {s : State} (hf : fenced s 7 = false) (h : inService s = true)
    (hc : nth s.ic.count n 0 ≠ 0) (ht : nth s.ic.timer n 0 + coalesceTime s n ≤ s.time) :
    exec (.coalesceTimeout n) s =
      .next (setPend n true (s.onIc fun i => { i with count := modAt i.count n fun _ => 0 })) := by
  simp [exec_coalesceTimeout_eq, execCoalesceTimeout, hf, h, hc, ht]

/-- The best source wins its target: it is no longer pending, and its delivery is on its way (R333). -/
theorem arbitrate_of_winner {s : State} {n t : Nat} (hn : bestSource s = some n) (ht : chooseTarget s n = some t) :
    arbitrate s = setPend n false (s.onIc fun i =>
      { i with
        rr := t
        st := if srcModeC s n then modAt i.st n fun _ => .won t else i.st
        flight := i.flight ++ [(n, t, srcOwner s n, srcModeC s n)] }) := by
  simp [arbitrate, hn, ht]

theorem exec_arbitration {s : State} (hf : fenced s 7 = false) (h : inService s = true) :
    exec .arbitration s = .next (arbitrate s) := by
  simp [exec_arbitration_eq, execArbitration, hf, h]

/-- The delivery that has been on its way longest is made (R334). -/
theorem exec_delivery {s : State} {x : Nat × Nat × Nat × Bool} {rest : List (Nat × Nat × Nat × Bool)}
    (hf : fenced s 7 = false) (h : inService s = true) (hx : s.ic.flight = x :: rest) :
    exec .delivery s = .next (deliver x (stallNearer (s.onIc fun i => { i with flight := rest }))) := by
  simp [exec_delivery_eq, execDelivery, deliverOldest, hf, h, hx]

/-- While no firmware runs no step of a doorbell changes anything (R356, R357). -/
theorem exec_doorbell_steps_idle {s : State} (n : Nat) (h : inService s = false) :
    exec .doorbellArrived s = .next s ∧ exec (.coalesceTimeout n) s = .next s ∧
      exec .arbitration s = .next s ∧ exec .delivery s = .next s := by
  refine ⟨?_, ?_, ?_, ?_⟩
  · simp [exec_doorbellArrived_eq, execDoorbellArrived, h]
  · simp [exec_coalesceTimeout_eq, execCoalesceTimeout, h]
  · simp [exec_arbitration_eq, execArbitration, h]
  · simp [exec_delivery_eq, execDelivery, h]

/-! ## The statements -/

/-- Settles O11: while CK-FAB runs, while the AON queue has room, and when it is full. -/
theorem doorbellWaits : Obligations.DoorbellWaits := by
  unfold Obligations.DoorbellWaits
  intro s src pay
  refine ⟨raise_of_running src pay, raise_of_room src pay, fun q1 q2 q3 q4 h hq => ?_⟩
  rw [raise_of_full src pay h (by simp [hq]), State.onAon, hq]
  rfl

/-- Settles O25: the port's write, arrival, coalescing, arbitration and delivery by the rule of each, and then the
rule that all of them stand still out of service. -/
theorem doorbellPath : Obligations.DoorbellPath := by
  unfold Obligations.DoorbellPath
  intro p v d n t x rest s u hf
  refine ⟨exec_icDoorbellWrite, exec_doorbellArrived, fun h hc ht => ?_, fun h hn ht => ?_, exec_delivery hf,
    exec_doorbell_steps_idle n⟩
  · rw [exec_coalesceTimeout hf h hc ht, setPend_true]
    rfl
  · rw [exec_arbitration hf h, arbitrate_of_winner hn ht, setPend_false]
    rfl

end Sys2Proof.Machine

/-! # The supply, the resets and the low-power states

First what a row does whose supply lies within the rating, then one rule for each event of the supply and of the
thermal sensor, each reset, and each wake, and then the statements. -/

namespace Sys2Proof.Machine

open Sys2Proof

/-! ## Supply within the absolute maximum (R38, R851) -/

theorem withinRating_of_le {vin : Nat} (h : vin ≤ 72000) (t : State) : withinRating vin t = .next t := by
  rw [withinRating, if_neg (Nat.not_lt.2 h)]

theorem withinRating_of_lt {vin : Nat} (h : 72000 < vin) (t : State) : withinRating vin t = .fault .beyondRating :=
  if_pos h

/-! ## Early warning (R40, R43, R865) -/

/-- VIN falls through the threshold: the filter starts, and outside an episode the episode's moments too. -/
theorem exec_vinBelowThreshold {vin : Nat} {s : State} (hv : vin ≤ 72000) (hc : comparatorOn s = true)
    (hlow : vin < cfg s 0x100) : exec (.vinBelowThreshold vin) s = .next (s.onPwr fun p =>
      { p with
        vin := vin, below := true, aboveAt := none, warnAt := if p.warn then p.warnAt else nowAon s
        filterAt := nowAon s + 2, warnCommit := if p.warn then p.warnCommit else commitRunning s }) := by
  change execVinBelowThreshold vin s = _
  simp [execVinBelowThreshold, withinRating_of_le hv, hc, hlow]

/-- The filter expires with VIN still below: source 1 and the shedding of RF load. -/
theorem exec_vinEarlyWarn {vin : Nat} {s : State} (hv : vin ≤ 72000) (hc : comparatorOn s = true)
    (hlow : vin < cfg s 0x100) (hb : s.pwr.below = true) (hw : s.pwr.warn = false) (hf : s.pwr.filterAt ≤ nowAon s) :
    exec (.vinEarlyWarn vin) s = .next (shedLoad
      ((raise 1 (min 65535 (vin / 10) + 2 ^ 16 * b2n s.pwr.warnCommit) s).onPwr fun p =>
        { p with vin := vin, warn := true, aboveAt := none })) := by
  change execVinEarlyWarn vin s = _
  simp [execVinEarlyWarn, withinRating_of_le hv, hc, hlow, hb, hw, hf]

/-- VIN rises through the hysteresis: in an episode the 1 ms starts. -/
theorem exec_vinAboveHysteresis {vin : Nat} {s : State} (hv : vin ≤ 72000) (hc : comparatorOn s = true)
    (hhigh : cfg s 0x100 + 300 < vin) : exec (.vinAboveHysteresis vin) s = .next (s.onPwr fun p =>
      { p with vin := vin, below := false, aboveAt := if p.warn then some (nowAon s) else none }) := by
  change execVinAboveHysteresis vin s = _
  simp [execVinAboveHysteresis, withinRating_of_le hv, hc, Nat.not_le.2 hhigh]

/-- The 1 ms is over: source 2 ends the episode. -/
theorem exec_vinRecovered {vin at_ : Nat} {s : State} (hv : vin ≤ 72000) (hc : comparatorOn s = true)
    (ha : s.pwr.aboveAt = some at_) (ht : at_ + 1000 ≤ nowAon s) (hw : s.pwr.warn = true)
    (hhigh : cfg s 0x100 + 300 < vin) : exec (.vinRecovered vin) s =
      .next (raise 2 (min 65535 (vin / 10) + 2 ^ 16 * min 255 ((nowAon s - s.pwr.warnAt) / 10000))
        (s.onPwr fun p => { p with vin := vin, warn := false, aboveAt := none })) := by
  change execVinRecovered vin s = _
  rw [execVinRecovered, withinRating_of_le hv, ha]
  exact congrArg _ (if_pos ⟨hc, hw, ht, hhigh⟩)

/-! ## Hold-up and VPA (R46, R49–R52, R59) -/

theorem exec_vpaFault {s : State} (h : inService s = true) : exec .vpaFault s = .next (vpaLost 3 0 s) :=
  congrArg _ (if_pos h)

/-- Once every 100 µs the figures follow from the mean of the last 160 samples. -/
theorem exec_holdupUpdate {vhold pIn pVpa : Nat} {s : State} (hoff : s.pwr.state ≠ .off)
    (hdeep : s.pwr.state ≠ .deepStandby) (hat : s.pwr.holdAt ≤ nowAon s) :
    let l := (((pIn : Int) - pVpa) :: s.pwr.shed).take 160
    let e := eHoldRaw s vhold
    exec (.holdupUpdate vhold pIn pVpa) s = .next (s.onPwr fun p =>
      { p with
        vhold := vhold, shed := l, holdAt := nowAon s + 100, eHold := roundDiv e (10 ^ 10)
        tHold := roundDiv (1000 * e * l.length) (10 ^ 10 * max (250 * l.length) l.sum.toNat) }) := by
  refine congrArg _ (if_neg ?_)
  simp [hoff, hdeep, hat]

theorem exec_choldMeasured {c : Nat} {s : State} (hr : coresRun s = true)
    (hcause : s.aon.startCause = 0 ∨ s.aon.startCause = 3) (hn : s.pwr.capNom = false) :
    exec (.choldMeasured c) s = .next (s.onAon fun a => { a with cHold := some c }) :=
  congrArg _ (if_pos ⟨hr, by simpa using hcause, hn⟩)

/-! ## The thermal sensor (R61–R66, R744, R751) -/

theorem implausible_eq_true_iff {t : Int} : implausible t = true ↔ t < -55 ∨ 175 < t := by
  simp [implausible]

theorem implausible_eq_false_iff {t : Int} : implausible t = false ↔ -55 ≤ t ∧ t ≤ 175 := by
  simp [implausible]

/-- A sample that is due: what it does turns on whether it is plausible and on whether the sensor is fenced. -/
theorem exec_thermalSample {t : Int} {s : State} (h : inService s = true) (hat : s.therm.at_ + 1000 ≤ s.time) :
    exec (.thermalSample t) s = .next
      (if (implausible t && !(fenced s 11 && implausible s.therm.raw)) = true then
        fenceUnit 11 13 0 (s.onTherm fun x => { x with at_ := s.time, raw := t, missed := false })
      else if fenced s 11 = true then s.onTherm fun x => { x with at_ := s.time, raw := t, missed := false }
      else thermRead t (s.onTherm fun x => { x with at_ := s.time, raw := t, missed := false })) := by
  refine congrArg _ (if_neg ?_)
  simp [h, hat]

/-- The three outcomes of a sample that is due: a reading, a cause to fence the sensor, or neither. -/
theorem exec_thermalSample_cases {t : Int} {s : State} (h : inService s = true) (hat : s.therm.at_ + 1000 ≤ s.time) :
    let u := s.onTherm fun x => { x with at_ := s.time, raw := t, missed := false }
    (fenced s 11 = false → -55 ≤ t → t ≤ 175 → exec (.thermalSample t) s = .next (thermRead t u)) ∧
    (fenced s 11 = false ∨ implausible s.therm.raw = false → (t < -55 ∨ 175 < t) →
      exec (.thermalSample t) s = .next (fenceUnit 11 13 0 u)) ∧
    (fenced s 11 = true → implausible s.therm.raw = true ∨ -55 ≤ t ∧ t ≤ 175 →
      exec (.thermalSample t) s = .next u) := by
  rw [exec_thermalSample h hat]
  refine ⟨fun hf hlo hhi => ?_, fun hfirst ht => ?_, fun hf hsame => ?_⟩
  · simp [hf, implausible_eq_false_iff.2 ⟨hlo, hhi⟩]
  · rcases hfirst with hf | hr
    · simp [hf, implausible_eq_true_iff.2 ht]
    · simp [hr, implausible_eq_true_iff.2 ht]
  · rcases hsame with hr | hp
    · simp [hf, hr]
    · simp [hf, implausible_eq_false_iff.2 hp]

/-- 135 °C fences both chains, once. -/
theorem thermTrip_of_hot {t : Int} {s : State} (ht : 135 ≤ t) (hn : s.therm.tripped = false) :
    thermTrip t s = fenceUnit 1 4 0 (fenceUnit 0 4 0
      (raise 4 (tempByte t) (s.onTherm fun x => { x with tripped := true }))) := by
  simp [thermTrip, Int.not_lt.2 ht, hn]

theorem exec_thermalReadingTimeout {s : State} (h : inService s = true) (hm : s.therm.missed = false)
    (hat : s.therm.at_ + 10000 ≤ s.time) : exec .thermalReadingTimeout s =
      .next (fenceUnit 11 13 0 (s.onTherm fun x => { x with missed := true })) :=
  congrArg _ (if_pos ⟨h, hm, decide_eq_true hat⟩)

/-- Settles O37: the four events of the supply, then VPA, the hold-up figures and the thermal sensor. -/
theorem supplyAndThermal : Obligations.SupplyAndThermal := by
  unfold Obligations.SupplyAndThermal
  refine ⟨fun vin at_ s hv hc => ⟨exec_vinBelowThreshold hv hc, exec_vinEarlyWarn hv hc, exec_vinAboveHysteresis hv hc,
    exec_vinRecovered hv hc⟩, fun vhold pIn pVpa c t s => ⟨exec_vpaFault, exec_holdupUpdate, exec_choldMeasured,
    exec_thermalSample_cases, thermTrip_of_hot, exec_thermalReadingTimeout⟩⟩

/-! ## Resets (R39, R79–R82, R117, R152) -/

theorem exec_powerOnReset {vin : Nat} {s : State} (hv : vin ≤ 72000) (h : s.pwr.state = .off) :
    exec (.powerOnReset vin) s = .next (resetPowerOn (s.onPwr fun p => { p with vin := vin })) := by
  change execPowerOnReset vin s = _
  rw [execPowerOnReset, withinRating_of_le hv, if_pos h, setVin]

theorem exec_powerGoodLoss {s : State} (hoff : s.pwr.state ≠ .off) (hdeep : s.pwr.state ≠ .deepStandby) :
    exec .powerGoodLoss s = .next (resetPowerOn s) :=
  congrArg _ (if_neg (not_or.2 ⟨hoff, hdeep⟩))

theorem exec_powerGoodLoss_deepStandby {s : State} (h : s.pwr.state = .deepStandby) :
    exec .powerGoodLoss s = .next s :=
  congrArg _ (if_pos (.inr h))

/-- RESETN low for 2 µs resets. -/
theorem exec_pinReset_long {n : Nat} {s : State} (hoff : s.pwr.state ≠ .off) (hn : 2000 ≤ n) :
    exec (.pinReset n) s = .next (resetWarm 1 s) := by
  change execPinReset n s = _
  rw [execPinReset, if_neg (not_or.2 ⟨hoff, by omega⟩), if_pos hn]

/-- RESETN low for less than 0.5 µs does not reset. -/
theorem exec_pinReset_short {n : Nat} {s : State} (hn : n < 500) : exec (.pinReset n) s = .next s :=
  congrArg _ (if_pos (.inr hn))

/-- In between, a free choice decides (log 112). -/
theorem exec_pinReset_between {n : Nat} {s : State} (hoff : s.pwr.state ≠ .off) (hlo : 500 ≤ n) (hhi : n < 2000) :
    exec (.pinReset n) s = .next (if freeBelow s 2 = 0 then s.useFree else resetWarm 1 s.useFree) := by
  change execPinReset n s = _
  rw [execPinReset, if_neg (not_or.2 ⟨hoff, by omega⟩), if_neg (by omega)]

theorem exec_watchdogReset {o r : Nat} {s : State} (hr : coresRun s = true) (hc : watchdogCause o r = true)
    (hh : r ≠ 0 ∨ halfSince s o = true) : exec (.watchdogReset o r) s = .next (resetWatchdog o r s) := by
  refine congrArg _ (if_pos ?_)
  simpa [hr, hc] using hh

theorem exec_fwActivationReset {at_ : Nat} {s : State} (ha : s.fw.activateAt = some at_) (ht : at_ ≤ s.time) :
    exec .fwActivationReset s = .next (resetWarm 4 s) := by
  change execFwActivationReset s = _
  rw [execFwActivationReset, ha]
  exact congrArg _ (if_pos ht)

theorem exec_startUp {env : StartEnv} {s : State} (hv : env.vin ≤ 72000) (h : s.pwr.state = .startup) :
    exec (.startUp env) s = .next (startUp env s) := by
  change execStartUp env s = _
  rw [execStartUp, withinRating_of_le hv, if_pos h]

theorem exec_crystalStartTimeout {s : State} (h : s.pwr.state = .startup) :
    exec .crystalStartTimeout s = .next (s.onPwr fun p => { p with state := .startup, testEn1 := false }) :=
  congrArg _ (if_pos h)

/-- Settles O39: each row that resets or starts the part by its own rule; what a reset reaches and spares is how
`resetWarm` and `resetPowerOn` are made. -/
theorem resetsAndStart : Obligations.ResetsAndStart := by
  unfold Obligations.ResetsAndStart
  refine ⟨fun vin n o r at_ env s => ⟨exec_powerOnReset, exec_powerGoodLoss, exec_powerGoodLoss_deepStandby, rfl,
    exec_pinReset_long, exec_pinReset_short, exec_pinReset_between, exec_watchdogReset, exec_fwActivationReset,
    exec_startUp, exec_crystalStartTimeout⟩, fun cause s => ?_⟩
  exact ⟨rfl, rfl, rfl, rfl, rfl, rfl, rfl, rfl, rfl, rfl, rfl, rfl, rfl, rfl⟩

/-! ## Entry to a low-power state (R69–R73) -/

/-- On a packet that is ready a row does what it is for. -/
theorem onFresh_of_ready {l : LaneId} {op : Nat} {e : Exec} {s : State} (f : Exec → State → State)
    (h : Ready l op e s) : onFresh l op f s = f e s := by
  obtain ⟨hfresh, hstop, hreads, hneeds⟩ := h
  simp [onFresh, hfresh, hstop, hreads, hneeds]

/-- SET_POWER_STATE accepts a state, LPCD only with the HF chain in service, and stops the chains. -/
theorem exec_setPowerState {e : Exec} {t : PowerState} {s : State} (hready : Ready .house 0x0006 e s)
    (ht : powerStateOf (Packet8 e.pkt 0) = some t) (hf : Packet8 e.pkt 0 = 3 → fenced s 0 = false) :
    exec .setPowerState s = .next (stopChains (finish .house 0 [] none
      (s.onPwr fun p => { p with entry := some (t, Packet32 e.pkt 4) }))) := by
  have hserved : ¬ (Packet8 e.pkt 0 = 3 ∧ fenced s 0 = true) := fun ⟨h3, h0⟩ => by simp [hf h3] at h0
  change execSetPowerState s = _
  rw [execSetPowerState, onFresh_of_ready _ hready, setPower, ht]
  exact congrArg _ (if_neg hserved)

theorem entryReady_iff {s : State} : entryReady s = true ↔ s.clk.xoLost = [] ∧ s.nv.job = none ∧ s.nv.jobs = [] ∧
    s.hfLane.exec = none ∧ s.uhfLane.exec = none ∧ s.houseLane.exec = none := by
  simp [entryReady, and_assoc]

/-- The entry follows once the preparation has ended. -/
theorem exec_lowPowerEntry {t : PowerState} {ms : Nat} {s : State} (he : s.pwr.entry = some (t, ms))
    (hr : s.pwr.state = .run) (hready : entryReady s = true) :
    exec .lowPowerEntry s = .next (enterLowPower t ms s) := by
  change execLowPowerEntry s = _
  rw [execLowPowerEntry, he]
  exact congrArg _ (if_pos ⟨hr, hready⟩)

theorem exec_lowPowerWake {s : State} (h : s.pwr.state = .retain ∨ s.pwr.state = .lpcd) (hw : s.pwr.wakes ≠ []) :
    exec .lowPowerWake s = .next (wakeUp s) :=
  congrArg _ (if_pos ⟨by simpa using h, hw⟩)

/-! ## Wake sources (R74–R77, R653, R831) -/

theorem wakeActive_iff {s : State} {high : Bool} : wakeActive s high = true ↔ (cfg s 0x720 = 1 ↔ high = true) := by
  cases high <;> simp [wakeActive]

theorem wakeLevel_same {s : State} {high : Bool} (h : s.pins.wake = high) : wakeLevel high s = s :=
  if_pos h

/-- A change of WAKE to the active level is an assertion. -/
theorem wakeLevel_active {s : State} {high : Bool} (h : s.pins.wake ≠ high) (ha : wakeActive s high = true) :
    wakeLevel high s = wakeBy .pin (raise 104 0) (s.onPins fun p => { p with wake := high }) := by
  simp [wakeLevel, h, ha]

/-- A change of WAKE away from the active level is none. -/
theorem wakeLevel_inactive {s : State} {high : Bool} (h : s.pins.wake ≠ high) (ha : wakeActive s high = false) :
    wakeLevel high s = s.onPins fun p => { p with wake := high } := by
  simp [wakeLevel, h, ha]

theorem wakeActive_eq_false {s : State} {high : Bool} (h : cfg s 0x720 = 1 ↔ high = false) :
    wakeActive s high = false := by
  rw [Bool.eq_false_iff, ne_eq, wakeActive_iff, h]
  cases high <;> simp

theorem exec_fdetAsserted {s : State} (h : s.pins.fdet = false) (hb : fdetBlind s = false) :
    exec .fdetAsserted s = .next (wakeBy .fdet (raise 105 0) (s.onPins fun p => { p with fdet := true })) := by
  refine congrArg _ (if_neg ?_)
  simp [h, hb]

theorem exec_fdetReleased {s : State} (hb : fdetBlind s = false) :
    exec .fdetReleased s = .next (s.onPins fun p => { p with fdet := false }) := by
  refine congrArg _ (if_neg ?_)
  simp [hb]

theorem exec_wakeTimerExpiry {at_ : Nat} {s : State} (h : sleeping s = true) (hw : s.aon.wakeAt = some at_)
    (ht : at_ ≤ s.aon.elapsed) :
    exec .wakeTimerExpiry s = .next (wakeBy .timer id (s.onAon fun a => { a with wakeAt := none })) := by
  refine congrArg _ (if_pos ?_)
  simp [h, hw, ht]

theorem exec_retainPortWake {s : State}
    (h : s.pwr.state = .retain ∨ s.pwr.state = .run ∧ ∃ ms, s.pwr.entry = some (.retain, ms))
    (hv : s.portB.vio = true) : exec .retainPortWake s = .next (wakeBy .portB id s) := by
  have hahead : retainAhead s = true := by
    rcases h with hr | ⟨hr, ms, he⟩
    · simp [retainAhead, hr]
    · simp [retainAhead, hr, he]
  exact congrArg _ (if_pos ⟨hahead, hv⟩)

/-! ## What a wake source does in each state -/

theorem wakeBy_run {w : WakeSrc} {f : State → State} {s : State} (hr : s.pwr.state = .run) (he : s.pwr.entry = none) :
    wakeBy w f s = f s := by
  simp [wakeBy, hr, he]

/-- During an entry a source is latched. -/
theorem wakeBy_entry {w : WakeSrc} {f : State → State} {s : State} (hr : s.pwr.state = .run)
    (he : s.pwr.entry ≠ none) : wakeBy w f s = s.onPwr fun p => { p with wakes := p.wakes ++ [w] } := by
  simp [wakeBy, hr, Option.isSome_iff_ne_none.2 he]

theorem wakeBy_asleep {w : WakeSrc} {f : State → State} {s : State}
    (h : s.pwr.state = .retain ∨ s.pwr.state = .lpcd) :
    wakeBy w f s = wakeEvent w (s.onPwr fun p => { p with wakes := p.wakes ++ [w] }) := by
  rcases h with h | h <;> simp [wakeBy, h]

theorem wakeBy_deepStandby {w : WakeSrc} {f : State → State} {s : State} (h : s.pwr.state = .deepStandby) :
    wakeBy w f s = wakeReset (wakeEvent w s) := by
  simp [wakeBy, h]

/-- A field that a list of values has reads what it was set to. -/
theorem cfgGet_cfgSet_same {id : Nat} (v : Int) : ∀ {c : List (Nat × Int)}, (∃ x ∈ c, x.1 = id) →
    cfgGet (cfgSet c id v) id = v
  | [], h => by simp at h
  | y :: c, h => by
    by_cases hy : y.1 = id
    · simp [cfgGet, cfgSet, hy]
    · have hc : ∃ x ∈ c, x.1 = id := by simpa [hy] using h
      have ih := cfgGet_cfgSet_same v hc
      simp only [cfgGet, cfgSet] at ih
      simpa [cfgGet, cfgSet, hy] using ih

/-- The wake from DEEP_STANDBY keeps the wake configuration (R70; log 237). -/
theorem cfg_wakeReset (s : State) : cfg (wakeReset s) 0x720 = cfg s 0x720 := by
  have hfield : ∃ x ∈ defaultCfg, x.1 = 0x720 := by decide
  exact congrArg Int.toNat (cfgGet_cfgSet_same (cfgI s 0x720) hfield)

/-- Settles O40: the entry, the wake, each wake source by its own rule, and then what a source does in each state. -/
theorem lowPowerAndWakes : Obligations.LowPowerAndWakes := by
  unfold Obligations.LowPowerAndWakes
  refine ⟨fun e t ms s => ⟨exec_setPowerState, fun he hr hxo hjob hjobs hhf huhf hhouse =>
    exec_lowPowerEntry he hr (entryReady_iff.2 ⟨hxo, hjob, hjobs, hhf, huhf, hhouse⟩), exec_lowPowerWake⟩,
    fun at_ high s => ⟨fun hne ha => ?_, fun hne ha => ?_, fun heq => ?_, exec_fdetAsserted, exec_fdetReleased,
    exec_wakeTimerExpiry, exec_retainPortWake, fun w f => ⟨wakeBy_run, wakeBy_entry, wakeBy_asleep, fun hd => ?_⟩⟩⟩
  · exact congrArg _ (wakeLevel_active hne (wakeActive_iff.2 ha))
  · exact congrArg _ (wakeLevel_inactive hne (wakeActive_eq_false ha))
  · exact ⟨congrArg _ (wakeLevel_same heq), congrArg _ (wakeLevel_same heq)⟩
  · exact ⟨wakeBy_deepStandby hd, cfg_wakeReset _⟩

/-- Settles O4: at reset the Basin and the protection table hold the values of R82 and R227. -/
theorem resetHasInvariants : Obligations.ResetHasInvariants := by
  unfold Obligations.ResetHasInvariants
  exact ⟨reset_wf, by decide, by decide⟩

end Sys2Proof.Machine

/-! # No command is refused, and none changes the queue behind it

A command acts through the model's shared operations, and none of them touches the queue: one rule for each says so, in
the order of the model, and then one for each row. A rule that holds by definition is proved by `(rfl)`, in parentheses,
so that `simp` can use it inside the hypotheses of the rules about folds and waiting packets. -/

namespace Sys2Proof.Machine

open Sys2Proof

/-- The outcome is a next state, with the queue as it is in `s`. -/
def KeepsPending (s : State) (o : Host.Outcome State Fault Refusal) : Prop := ∃ t, o = .next t ∧ t.pending = s.pending

@[simp] theorem keepsPending_next {s t : State} : KeepsPending s (.next t) ↔ t.pending = s.pending := by
  simp [KeepsPending]

@[simp] theorem pending_ite (p : Prop) [Decidable p] (s t : State) :
    (if p then s else t).pending = if p then s.pending else t.pending := apply_ite State.pending p s t

/-- What every turn of a fold keeps, the fold keeps. -/
theorem foldl_keeps {σ α β : Type} (g : σ → β) {f : σ → α → σ} (h : ∀ s x, g (f s x) = g s) (l : List α) (s : σ) :
    g (l.foldl f s) = g s := by
  induction l generalizing s with
  | nil => rfl
  | cons x l ih => rw [List.foldl_cons, ih, h]

@[simp] theorem foldl_pending {α : Type} {f : State → α → State} (h : ∀ s x, (f s x).pending = s.pending) (l : List α)
    (s : State) : (l.foldl f s).pending = s.pending := foldl_keeps State.pending h l s

/-! ## Doorbells and replies -/

@[simp] theorem State.useFree_pending (s : State) : (State.useFree s).pending = s.pending := (rfl)

@[simp] theorem replyWith_pending (p : Packet) (start : Nat) (tow susp : Bool) (clamps : List Clamp)
    (status0 : Nat) (body : List Byte) (own : Option Nat) (s : State) :
    (replyWith p start tow susp clamps status0 body own s).pending = s.pending := by
  simp only [replyWith]
  (repeat' split) <;> simp

@[simp] theorem answer_pending (p : Packet) (status : Nat) (s : State) : (answer p status s).pending = s.pending := by
  simp [answer]

@[simp] theorem replyExec_pending (e : Exec) (status : Nat) (body : List Byte) (own : Option Nat) (s : State) :
    (replyExec e status body own s).pending = s.pending := by simp [replyExec]

/-! ## Port errors -/

@[simp] theorem portErrFlag_pending (p : Port) (code addr : Nat) (s : State) :
    (portErrFlag p code addr s).pending = s.pending := by simp [portErrFlag]

@[simp] theorem portErrEvent_pending (p : Port) (code addr : Nat) (s : State) :
    (portErrEvent p code addr s).pending = s.pending := by simp [portErrEvent]

/-! ## Field, carrier and power budget -/

@[simp] theorem setHfGrant_pending (mw : Nat) (s : State) : (setHfGrant mw s).pending = s.pending := (rfl)
@[simp] theorem setUhfGrant_pending (mw : Nat) (s : State) : (setUhfGrant mw s).pending = s.pending := (rfl)
@[simp] theorem askHfGrant_pending (mw : Nat) (s : State) : (askHfGrant mw s).pending = s.pending := (rfl)
@[simp] theorem askUhfGrant_pending (mw : Nat) (s : State) : (askUhfGrant mw s).pending = s.pending := (rfl)
@[simp] theorem setField_pending (id : Nat) (v : Int) (s : State) : (setField id v s).pending = s.pending := (rfl)
@[simp] theorem hfIdle_pending (s : State) : (hfIdle s).pending = s.pending := by simp [hfIdle]
@[simp] theorem emuOff_pending (cause : Nat) (s : State) : (emuOff cause s).pending = s.pending := by simp [emuOff]
@[simp] theorem peerOff_pending (s : State) : (peerOff s).pending = s.pending := by simp [peerOff]

@[simp] theorem peerLeave_pending (s : State) : (peerLeave s).pending = s.pending := by
  unfold peerLeave
  split <;> simp

@[simp] theorem addDue_pending (c : Chain) (ks : List StepKind) (s : State) : (addDue c ks s).pending = s.pending :=
  (rfl)

@[simp] theorem setCodes_pending (cs cp : Nat) (s : State) : (setCodes cs cp s).pending = s.pending := by
  simp [setCodes]

@[simp] theorem putCodes_pending (cs cp : Nat) (s : State) : (putCodes cs cp s).pending = s.pending := by
  simp [putCodes]

@[simp] theorem undoTuner_pending (s : State) : (undoTuner s).pending = s.pending := by
  unfold undoTuner
  split <;> simp

@[simp] theorem towStop_pending (c : Chain) (s : State) : (towStop c s).pending = s.pending := by simp [towStop]

@[simp] theorem abandonRetune_pending (s : State) : (abandonRetune s).pending = s.pending := by
  unfold abandonRetune
  split <;> simp

@[simp] theorem cutCapture_pending (c : Chain) (s : State) : (cutCapture c s).pending = s.pending := by
  unfold cutCapture
  split <;> simp

@[simp] theorem hfFall_pending (cause : Nat) (s : State) : (hfFall cause s).pending = s.pending := by simp [hfFall]
@[simp] theorem hfApplyStep_pending (k : Nat) (s : State) : (hfApplyStep k s).pending = s.pending := (rfl)
@[simp] theorem lpcdFromBank_pending (c : HfCal) (s : State) : (lpcdFromBank c s).pending = s.pending := (rfl)
@[simp] theorem dropVerdicts_pending (c : Chain) (s : State) : (dropVerdicts c s).pending = s.pending := (rfl)

@[simp] theorem hfTakeValues_pending (s : State) : (hfTakeValues s).pending = s.pending := by
  simp only [hfTakeValues]
  (repeat' split) <;> simp

@[simp] theorem hfBoundary_pending (s : State) : (hfBoundary s).pending = s.pending := by
  fun_cases hfBoundary <;> simp +zetaDelta

@[simp] theorem hfFieldOut_pending (s : State) : (hfFieldOut s).pending = s.pending := by simp [hfFieldOut]

@[simp] theorem hfFieldGone_pending (cause : Nat) (s : State) : (hfFieldGone cause s).pending = s.pending := by
  simp [hfFieldGone]

@[simp] theorem hfDriverCut_pending (s : State) : (hfDriverCut s).pending = s.pending := by simp [hfDriverCut]
@[simp] theorem giveUpRise_pending (s : State) : (giveUpRise s).pending = s.pending := (rfl)

@[simp] theorem uhfFall_pending (why : FallFor) (s : State) : (uhfFall why s).pending = s.pending := by
  unfold uhfFall
  split <;> simp

@[simp] theorem endVisit_pending (s : State) : (endVisit s).pending = s.pending := by
  unfold endVisit
  split <;> simp

@[simp] theorem uhfTakeValues_pending (s : State) : (uhfTakeValues s).pending = s.pending := by
  fun_cases uhfTakeValues <;> simp +zetaDelta

@[simp] theorem uhfCarrierGone_pending (s : State) : (uhfCarrierGone s).pending = s.pending := by simp [uhfCarrierGone]
@[simp] theorem uhfApplyPower_pending (p : Nat) (s : State) : (uhfApplyPower p s).pending = s.pending := (rfl)

@[simp] theorem uhfBoundary_pending (s : State) : (uhfBoundary s).pending = s.pending := by
  simp only [uhfBoundary]
  split <;> simp

@[simp] theorem onLights_pending (c : Chain) (f : Exec → Exec) (s : State) : (onLights c f s).pending = s.pending := by
  simp [onLights]

@[simp] theorem riseClamp_pending (want applied : Nat) (s : State) :
    (riseClamp want applied s).pending = s.pending := by simp [riseClamp]

@[simp] theorem lightFails_pending (c : Chain) (want : Nat) (s : State) :
    (lightFails c want s).pending = s.pending := by simp [lightFails]

@[simp] theorem lowerHf_pending (k : Nat) (s : State) : (lowerHf k s).pending = s.pending := by simp [lowerHf]
@[simp] theorem reduceHf_pending (s : State) : (reduceHf s).pending = s.pending := by simp [reduceHf]
@[simp] theorem lowerUhf_pending (p : Nat) (s : State) : (lowerUhf p s).pending = s.pending := by simp [lowerUhf]
@[simp] theorem reduceUhf_pending (s : State) : (reduceUhf s).pending = s.pending := by simp [reduceUhf]

@[simp] theorem refit_pending (s : State) : (refit s).pending = s.pending := by
  fun_cases refit <;> simp

@[simp] theorem uhfYields_pending (s : State) : (uhfYields s).pending = s.pending := by simp [uhfYields]

/-! ## What ends a lease or a packet -/

@[simp] theorem chainUsersOff_pending (c : Chain) (s : State) : (chainUsersOff c s).pending = s.pending := by
  unfold chainUsersOff
  split <;> simp

@[simp] theorem startHandover_pending (c : Chain) (afterReset : Bool) (s : State) :
    (startHandover c afterReset s).pending = s.pending := by
  unfold startHandover
  split <;> simp

@[simp] theorem revokeLease_pending (c : Chain) (reason : Nat) (s : State) :
    (revokeLease c reason s).pending = s.pending := by
  unfold revokeLease
  split <;> simp

@[simp] theorem preemptDone_pending (c : Chain) (s : State) : (preemptDone c s).pending = s.pending := by
  unfold preemptDone
  split <;> simp

@[simp] theorem leaseAtPacketEnd_pending (c : Chain) (s : State) : (leaseAtPacketEnd c s).pending = s.pending := by
  fun_cases leaseAtPacketEnd <;> simp

@[simp] theorem finish_pending (l : LaneId) (status : Nat) (body : List Byte) (own : Option Nat) (s : State) :
    (finish l status body own s).pending = s.pending := by
  unfold finish
  split <;> simp

theorem withWaiting_pending {f : State → State} (h : ∀ s, (f s).pending = s.pending) (l : LaneId) (who : Exec → Bool)
    (s : State) : (withWaiting l who f s).pending = s.pending := by
  unfold withWaiting
  (repeat' split) <;> simp [h]

/-- A row whose event reaches a waiting packet, suspended or not, keeps the queue where the event does. -/
theorem keepsPending_withWaiting {f : State → State} {l : LaneId} {who : Exec → Bool} {s : State}
    (h : ∀ s, (f s).pending = s.pending) : KeepsPending s (.next (withWaiting l who f s)) :=
  keepsPending_next.2 (withWaiting_pending h l who s)

@[simp] theorem leaveLane_pending (l : LaneId) (s : State) : (leaveLane l s).pending = s.pending := by simp [leaveLane]

/-! ## Fence entry -/

@[simp] theorem stopOnUnit_pending (u status : Nat) (s : State) : (stopOnUnit u status s).pending = s.pending := (rfl)
@[simp] theorem samDown_pending (n : Nat) (s : State) : (samDown n s).pending = s.pending := by simp [samDown]

@[simp] theorem samOff_pending (n : Nat) (s : State) : (samOff n s).pending = s.pending := by
  unfold samOff
  split <;> simp

@[simp] theorem makeSafe_pending (u : Nat) (s : State) : (makeSafe u s).pending = s.pending := by
  unfold makeSafe
  split <;> simp

@[simp] theorem testHit_pending (u : Nat) (s : State) : (testHit u s).pending = s.pending := by simp [testHit]

@[simp] theorem fenceUnit_pending (u cause detail : Nat) (s : State) :
    (fenceUnit u cause detail s).pending = s.pending := by simp [fenceUnit]

/-! ## The expander -/

@[simp] theorem nextBlock_pending (noise : Bool) (delay : Nat) (s : State) :
    (nextBlock noise delay s).pending = s.pending := (rfl)

@[simp] theorem rngInstantiate_pending (s : State) : (rngInstantiate s).pending = s.pending := (rfl)
@[simp] theorem rngReseed_pending (s : State) : (rngReseed s).pending = s.pending := by simp [rngReseed]
@[simp] theorem rngBefore_pending (pr : Bool) (s : State) : (rngBefore pr s).pending = s.pending := by simp [rngBefore]

theorem rngGenerate_pending {pr : Bool} {n : Nat} {ws : List Half} {s t : State}
    (h : rngGenerate pr n s = some (ws, t)) : t.pending = s.pending := by
  unfold rngGenerate at h
  split at h
  · obtain ⟨-, rfl⟩ := Prod.mk.inj (Option.some.inj h)
    simp
  · cases h

@[simp] theorem rngWait_pending (s : State) : (rngWait s).pending = s.pending := by simp [rngWait]

@[simp] theorem rngRefillReserve_pending (s : State) : (rngRefillReserve s).pending = s.pending := by
  fun_cases rngRefillReserve
  case case1 => rfl
  case case2 => simp
  case case3 h => simp [rngGenerate_pending h]

theorem rngDraw1_pending {n : Nat} {ws : List Half} {s t : State} (h : rngDraw1 n s = some (ws, t)) :
    t.pending = s.pending := by
  unfold rngDraw1 at h
  obtain ⟨-, h⟩ := Option.ite_none_left_eq_some.1 h
  obtain ⟨-, rfl⟩ := Prod.mk.inj (Option.some.inj h)
  simp

@[simp] theorem rngRefillPort_pending (s : State) : (rngRefillPort s).pending = s.pending := by
  fun_cases rngRefillPort
  case case1 => simp
  case case2 h => simp [rngGenerate_pending h]
  case case3 => rfl

theorem rngTakeWord_pending {w : Word} {s t : State} (h : rngTakeWord s = some (w, t)) : t.pending = s.pending := by
  unfold rngTakeWord at h
  dsimp only at h
  split at h
  · cases h
  · split at h
    · cases h
    · obtain ⟨-, rfl⟩ := Prod.mk.inj (Option.some.inj h)
      simp

@[simp] theorem rngStat_pending (p : Port) (s : State) : (rngStat p s).2.pending = s.pending := by simp [rngStat]

/-! ## Discards and tenant resets -/

@[simp] theorem advanceCons_pending (n : Nat) (s : State) : (advanceCons n s).pending = s.pending := (rfl)

@[simp] theorem discardQueued_pending (n status : Nat) (s : State) :
    (discardQueued n status s).pending = s.pending := by simp [discardQueued]

@[simp] theorem discardRing_pending (n status k : Nat) (s : State) :
    (discardRing n status k s).pending = s.pending := by
  fun_induction discardRing <;> simp [*]

@[simp] theorem resetDone_pending (n : Nat) (s : State) : (resetDone n s).pending = s.pending := by simp [resetDone]

@[simp] theorem resetAgain_pending (s : State) : (resetAgain s).pending = s.pending := by
  unfold resetAgain
  split <;> simp

@[simp] theorem drainTenant_pending (n : Nat) (s : State) : (drainTenant n s).pending = s.pending := by
  simp [drainTenant]

@[simp] theorem detachJobs_pending (l : LaneId) (s : State) : (detachJobs l s).pending = s.pending := (rfl)
@[simp] theorem stopSense_pending (s : State) : (stopSense s).pending = s.pending := by simp [stopSense]

@[simp] theorem abortHeld_pending (l : LaneId) (e : Exec) (s : State) : (abortHeld l e s).pending = s.pending := by
  unfold abortHeld
  split <;> simp

@[simp] theorem abortEffect_pending (l : LaneId) (e : Exec) (s : State) : (abortEffect l e s).pending = s.pending := by
  fun_cases abortEffect <;> simp +zetaDelta

@[simp] theorem abortLane_pending (l : LaneId) (who : Exec → Bool) (status : Nat) (s : State) :
    (abortLane l who status s).pending = s.pending := by simp [abortLane]

@[simp] theorem chainFree_pending (c : Chain) (s : State) : (chainFree c s).pending = s.pending := by
  unfold chainFree
  split <;> simp

@[simp] theorem dropWaiters_pending (who : Waiter → Bool) (c : Chain) (s : State) :
    (dropWaiters who c s).pending = s.pending := by simp [dropWaiters]

@[simp] theorem withdrawWaits_pending (c : Chain) (n status : Nat) (s : State) :
    (withdrawWaits c n status s).pending = s.pending := by simp [withdrawWaits]

@[simp] theorem releaseSams_pending (n : Nat) (s : State) : (releaseSams n s).pending = s.pending := by
  simp [releaseSams]

@[simp] theorem dropLockWaits_pending (n status : Nat) (s : State) :
    (dropLockWaits n status s).pending = s.pending := by simp [dropLockWaits]

@[simp] theorem tenantReset_pending (n : Nat) (who : Exec → Bool) (s : State) :
    (tenantReset n who s).pending = s.pending := by
  simp only [tenantReset]
  (repeat' split) <;> simp

/-! ## Rows of opcodes -/

@[simp] theorem onFresh_pending {f : Exec → State → State} (h : ∀ e s, (f e s).pending = s.pending) (l : LaneId)
    (op : Nat) (s : State) : (onFresh l op f s).pending = s.pending := by
  fun_cases onFresh <;> simp [h]

@[simp] theorem setPhase_pending (l : LaneId) (ph : Phase) (s : State) : (setPhase l ph s).pending = s.pending := by
  simp [setPhase]

@[simp] theorem onLeased_pending {f : Exec → State → State} (h : ∀ e s, (f e s).pending = s.pending) (c : Chain)
    (op : Nat) (s : State) : (onLeased c op f s).pending = s.pending := by
  simp [onLeased, h]

/-! ## Configuration values -/

@[simp] theorem dropEstimates_pending (c : Chain) (s : State) : (dropEstimates c s).pending = s.pending := (rfl)

@[simp] theorem newGain_pending (c : Chain) (k : Nat) (s : State) : (newGain c k s).pending = s.pending := by
  unfold newGain
  split <;> simp

@[simp] theorem manualGain_pending (s : State) : (manualGain s).pending = s.pending := by simp [manualGain]
@[simp] theorem hfNewStep_pending (k : Nat) (s : State) : (hfNewStep k s).pending = s.pending := by simp [hfNewStep]

@[simp] theorem uhfNewPower_pending (p : Nat) (s : State) : (uhfNewPower p s).pending = s.pending := by
  simp [uhfNewPower]

@[simp] theorem uhfNewOutput_pending (s : State) : (uhfNewOutput s).pending = s.pending := by simp [uhfNewOutput]

@[simp] theorem fieldEffect_pending (id : Nat) (s : State) : (fieldEffect id s).pending = s.pending := by
  simp [fieldEffect]

@[simp] theorem pinOwner_pending (id : Nat) (v : Int) (s : State) : (pinOwner id v s).pending = s.pending := by
  simp [pinOwner]

@[simp] theorem applyField_pending (id : Nat) (v : Int) (s : State) : (applyField id v s).pending = s.pending := by
  simp [applyField]

@[simp] theorem recheckBlf_pending (id : Nat) (s : State) : (recheckBlf id s).1.pending = s.pending := by
  fun_cases recheckBlf <;> simp

@[simp] theorem applyEntry_pending (n : Nat) (a : Applied) (x : Nat × Nat) :
    (applyEntry n a x).s.pending = a.s.pending := by
  fun_cases applyEntry <;> simp +zetaDelta

@[simp] theorem applyEntries_pending (n : Nat) (es : List (Nat × Nat)) (s : State) :
    (applyEntries n es s).s.pending = s.pending :=
  foldl_keeps (fun a : Applied => a.s.pending) (applyEntry_pending n) es _

/-! ## Fetch, admission and deadlines -/

@[simp] theorem fetchFrom_pending (n : Nat) (s : State) : (fetchFrom n s).pending = s.pending := by
  fun_cases fetchFrom <;> simp +zetaDelta

@[simp] theorem execPacketFetch_keepsPending (s : State) : KeepsPending s (execPacketFetch s) := by
  unfold execPacketFetch
  (repeat' split) <;> simp

@[simp] theorem takeCredit_pending (l : LaneId) (n : Nat) (s : State) : (takeCredit l n s).pending = s.pending := by
  simp [takeCredit]

@[simp] theorem admitFrom_pending (l : LaneId) (n : Nat) (s : State) : (admitFrom l n s).pending = s.pending := by
  unfold admitFrom
  split <;> simp

@[simp] theorem execSliceExpiry_keepsPending (l : LaneId) (s : State) : KeepsPending s (execSliceExpiry l s) := by
  unfold execSliceExpiry
  split <;> simp

@[simp] theorem expireWaits_pending (c : Chain) (s : State) : (expireWaits c s).pending = s.pending := by
  refine (foldl_pending (fun s w => ?_) _ _).trans (by simp)
  split <;> simp

/-! ## Frames on the air -/

@[simp] theorem keepVerdict_pending (c : Chain) (code : Nat) (s : State) : (keepVerdict c code s).pending = s.pending :=
  (rfl)

@[simp] theorem requestCheck_pending (c : Chain) (s : State) : (requestCheck c s).pending = s.pending := by
  simp [requestCheck]

@[simp] theorem stopLane_pending (l : LaneId) (status : Nat) (s : State) :
    (stopLane l status s).pending = s.pending := by simp [stopLane]

@[simp] theorem notSooner_pending (c : Chain) (s : State) : (notSooner c s).pending = s.pending := by
  unfold notSooner
  split <;> simp

@[simp] theorem countRefused_pending (c : Chain) (s : State) : (countRefused c s).pending = s.pending := by
  simp [countRefused]

@[simp] theorem hfStart_pending (s : State) : (hfStart s).pending = s.pending := by
  unfold hfStart
  split <;> simp

@[simp] theorem stepYields_pending (c : Chain) (s : State) : (stepYields c s).pending = s.pending := by
  unfold stepYields
  split <;> simp

@[simp] theorem hfRelease_pending (s0 : State) : (hfRelease s0).pending = s0.pending := by simp [hfRelease]

@[simp] theorem hfSendAt_pending (f : HfFrame) (win at_ : Nat) (s : State) :
    (hfSendAt f win at_ s).pending = s.pending := by simp [hfSendAt]

@[simp] theorem hfSend_pending (f : HfFrame) (win : Nat) (s : State) : (hfSend f win s).pending = s.pending := by
  simp [hfSend]

@[simp] theorem setBandwidth_pending (s : State) : (setBandwidth s).pending = s.pending := by simp [setBandwidth]

@[simp] theorem queryLink_pending (f : UhfFrame) (s : State) : (queryLink f s).2.pending = s.pending := by
  unfold queryLink
  split <;> simp

@[simp] theorem uhfStart_pending (s : State) : (uhfStart s).pending = s.pending := by
  unfold uhfStart
  split <;> simp

@[simp] theorem uhfRelease_pending (s0 : State) : (uhfRelease s0).pending = s0.pending := by simp [uhfRelease]

@[simp] theorem uhfSend_pending (f : UhfFrame) (win : Nat) (s : State) : (uhfSend f win s).pending = s.pending := by
  simp [uhfSend]

/-! ## The HF reader -/

@[simp] theorem onCards_pending (f : List Card → List Card) (s : State) : (onCards f s).pending = s.pending := (rfl)
@[simp] theorem onCard_pending (h : Nat) (f : Card → Card) (s : State) : (onCard h f s).pending = s.pending := (rfl)
@[simp] theorem dropCard_pending (h : Nat) (s : State) : (dropCard h s).pending = s.pending := (rfl)

@[simp] theorem recordCard_pending (c : Card) (s : State) : (recordCard c s).pending = s.pending := by
  fun_cases recordCard <;> simp

@[simp] theorem pollFinish_pending (op : PollOp) (s : State) : (pollFinish op s).pending = s.pending := by
  unfold pollFinish
  split <;> simp

@[simp] theorem pollSendAt_pending (op : PollOp) (f : HfFrame) (at_ : Nat) (s : State) :
    (pollSendAt op f at_ s).pending = s.pending := by simp [pollSendAt]

@[simp] theorem pollSend_pending (op : PollOp) (f : HfFrame) (s : State) : (pollSend op f s).pending = s.pending := by
  simp [pollSend]

@[simp] theorem startTech_pending (op : PollOp) (t at_ : Nat) (s : State) :
    (startTech op t at_ s).pending = s.pending := by simp [startTech]

@[simp] theorem nextTech_pending (op : PollOp) (s : State) : (nextTech op s).pending = s.pending := by
  fun_cases nextTech <;> simp

@[simp] theorem foundMore_pending (op : PollOp) (s : State) : (foundMore op s).pending = s.pending := by
  simp [foundMore]

@[simp] theorem againA_pending (op : PollOp) (s : State) : (againA op s).pending = s.pending := by simp [againA]

@[simp] theorem pollA_pending (op : PollOp) (res : FrameResult) (ans : Option HfAnswer) (lq evm : Nat) (s : State) :
    (pollA op res ans lq evm s).pending = s.pending := by
  fun_cases pollA <;> simp

@[simp] theorem afterSlotB_pending (op : PollOp) (s : State) : (afterSlotB op s).pending = s.pending := by
  simp [afterSlotB]

@[simp] theorem pollB_pending (op : PollOp) (res : FrameResult) (ans : Option HfAnswer) (lq evm : Nat) (s : State) :
    (pollB op res ans lq evm s).pending = s.pending := by
  fun_cases pollB <;> simp

@[simp] theorem afterSlotV_pending (op : PollOp) (s : State) : (afterSlotV op s).pending = s.pending := by
  fun_cases afterSlotV <;> simp

@[simp] theorem pollV_pending (op : PollOp) (res : FrameResult) (ans : Option HfAnswer) (lq evm : Nat) (s : State) :
    (pollV op res ans lq evm s).pending = s.pending := by
  fun_cases pollV <;> simp

@[simp] theorem pollNext_pending (op : PollOp) (res : FrameResult) (ans : Option HfAnswer) (lq evm : Nat)
    (s : State) :
    (pollNext op res ans lq evm s).pending = s.pending := by simp [pollNext]

@[simp] theorem pollStart_pending (e : Exec) (s : State) : (pollStart e s).pending = s.pending := by simp [pollStart]

@[simp] theorem activateFail_pending (op : ActivateOp) (status : Nat) (s : State) :
    (activateFail op status s).pending = s.pending := by simp [activateFail]

@[simp] theorem activateDone_pending (op : ActivateOp) (state : Nat) (selected : Bool) (s : State) :
    (activateDone op state selected s).pending = s.pending := by
  fun_cases activateDone <;> simp +zetaDelta

@[simp] theorem actSend_pending (op : ActivateOp) (f : HfFrame) (s : State) : (actSend op f s).pending = s.pending := by
  simp [actSend]

@[simp] theorem actHigh_pending (op : ActivateOp) (s : State) : (actHigh op s).pending = s.pending := by simp [actHigh]

@[simp] theorem actParams_pending (op : ActivateOp) (fsci fwi sfgi : Nat) (s : State) :
    (actParams op fsci fwi sfgi s).pending = s.pending := (rfl)

@[simp] theorem attribSend_pending (op : ActivateOp) (c : Card) (prot : List Byte) (s : State) :
    (attribSend op c prot s).pending = s.pending := by simp [attribSend]

@[simp] theorem activateNext_pending (op0 : ActivateOp) (res : FrameResult) (ans : Option HfAnswer) (lq evm : Nat)
    (s : State) :
    (activateNext op0 res ans lq evm s).pending = s.pending := by
  fun_cases activateNext <;> simp +zetaDelta

@[simp] theorem activateStart_pending (e : Exec) (s : State) : (activateStart e s).pending = s.pending := by
  fun_cases activateStart <;> simp +zetaDelta

@[simp] theorem rawDone_pending (op : RawOp) (res : FrameResult) (ans : Option HfAnswer) (lq evm : Nat) (s : State) :
    (rawDone op res ans lq evm s).pending = s.pending := by
  unfold rawDone
  split <;> simp

@[simp] theorem transceiveStart_pending (e : Exec) (s : State) : (transceiveStart e s).pending = s.pending := by
  simp [transceiveStart]

@[simp] theorem exchange15Start_pending (e : Exec) (s : State) : (exchange15Start e s).pending = s.pending := by
  simp [exchange15Start]

@[simp] theorem isoSend_pending (op : IsoOp) (f : HfFrame) (win : Nat) (s : State) :
    (isoSend op f win s).pending = s.pending := by simp [isoSend]

@[simp] theorem isoNextBlock_pending (op : IsoOp) (c : Card) (s : State) :
    (isoNextBlock op c s).pending = s.pending := by simp [isoNextBlock]

@[simp] theorem isoEnd_pending (op : IsoOp) (status : Nat) (f : State → State) (s : State) (h : ∀ s,
    (f s).pending = s.pending) :
    (isoEnd op status f s).pending = s.pending := by
  fun_cases isoEnd <;> simp [*]

@[simp] theorem isoFinish_pending (op : IsoOp) (s : State) : (isoFinish op s).pending = s.pending := by simp [isoFinish]

@[simp] theorem isoError_pending (op : IsoOp) (c : Card) (status : Nat) (s : State) :
    (isoError op c status s).pending = s.pending := by simp [isoError]

@[simp] theorem isoResend_pending (op : IsoOp) (c : Card) (s : State) : (isoResend op c s).pending = s.pending := by
  simp [isoResend]

@[simp] theorem isoStore_pending (op : IsoOp) (tenant : Nat) (inf : List Byte) (s : State) :
    (isoStore op tenant inf s).2.pending = s.pending := (rfl)

@[simp] theorem isoNext_pending (op0 : IsoOp) (res : FrameResult) (ans : Option HfAnswer) (lq evm : Nat) (s : State) :
    (isoNext op0 res ans lq evm s).pending = s.pending := by
  fun_cases isoNext <;> simp +zetaDelta

@[simp] theorem isoStart_pending (e : Exec) (s : State) : (isoStart e s).pending = s.pending := by
  fun_cases isoStart <;> simp

@[simp] theorem passLive_pending (c : Chain) (s : State) : (passLive c s).pending = s.pending := by simp [passLive]

@[simp] theorem deselectGo_pending (l : LaneId) (op : DeselectOp) (s : State) :
    (deselectGo l op s).pending = s.pending := by
  fun_cases deselectGo <;> simp

@[simp] theorem deselectNext_pending (l : LaneId) (op : DeselectOp) (res : FrameResult) (ans : Option HfAnswer)
    (s : State) :
    (deselectNext l op res ans s).pending = s.pending := by
  fun_cases deselectNext <;> simp

@[simp] theorem deselectStart_pending (e : Exec) (s : State) : (deselectStart e s).pending = s.pending := by
  simp [deselectStart]

@[simp] theorem hfContinue_pending (res : FrameResult) (ans : Option HfAnswer) (lq evm : Nat) (s : State) :
    (hfContinue res ans lq evm s).pending = s.pending := by
  fun_cases hfContinue <;> simp

@[simp] theorem countHf_pending (res : FrameResult) (s : State) : (countHf res s).pending = s.pending := by
  simp [countHf]

@[simp] theorem clipEvents_pending (clipped : Bool) (s : State) : (clipEvents clipped s).pending = s.pending := by
  simp [clipEvents]

@[simp] theorem gatherHf_pending (res : FrameResult) (lq : Nat) (carrier : Int) (s : State) :
    (gatherHf res lq carrier s).pending = s.pending := by simp [gatherHf]

@[simp] theorem cardHeard_pending (lq evm : Nat) (s : State) : (cardHeard lq evm s).pending = s.pending := by
  unfold cardHeard
  split <;> simp

@[simp] theorem hfRx_pending (res0 : FrameResult) (ans : HfAnswer) (m : RxMeas) (clipped : Bool) (s : State) :
    (hfRx res0 ans m clipped s).pending = s.pending := by simp [hfRx]

/-! ## Leases of the chains -/

@[simp] theorem setDivider_pending (s : State) : (setDivider s).pending = s.pending := by
  unfold setDivider
  split <;> simp

@[simp] theorem setPll_pending (c : Chain) (p : Pll) (s : State) : (setPll c p s).pending = s.pending := by
  unfold setPll
  split <;> simp

@[simp] theorem armClocks_pending (c : Chain) (s : State) : (armClocks c s).pending = s.pending := by simp [armClocks]

@[simp] theorem settleRadio_pending (c : Chain) (s0 : State) : (settleRadio c s0).pending = s0.pending := by
  unfold settleRadio
  split <;> simp

@[simp] theorem grantTo_pending (c : Chain) (w : Waiter) (s : State) : (grantTo c w s).pending = s.pending := by
  fun_cases grantTo <;> simp +zetaDelta

@[simp] theorem startGrant_pending (c : Chain) (w : Waiter) (s : State) : (startGrant c w s).pending = s.pending := by
  simp [startGrant]

@[simp] theorem grantLocked_pending (c : Chain) (s : State) : (grantLocked c s).pending = s.pending := by
  fun_cases grantLocked <;> simp +zetaDelta

@[simp] theorem freeLease_pending (c : Chain) (s : State) : (freeLease c s).pending = s.pending := by simp [freeLease]

@[simp] theorem grantStep_pending (c : Chain) (s0 : State) : (grantStep c s0).pending = s0.pending := by
  fun_cases grantStep <;> simp +zetaDelta

@[simp] theorem takePlace_pending (c : Chain) (e : Exec) (s : State) : (takePlace c e s).pending = s.pending := by
  simp [takePlace]

@[simp] theorem acquire_pending (e : Exec) (s : State) : (acquire e s).pending = s.pending := by
  fun_cases acquire <;> simp

@[simp] theorem releaseNow_pending (c : Chain) (s : State) : (releaseNow c s).pending = s.pending := by
  simp [releaseNow]

@[simp] theorem releaseKeep_pending (c : Chain) (s : State) : (releaseKeep c s).pending = s.pending := by
  unfold releaseKeep
  split <;> simp

@[simp] theorem release_pending (e : Exec) (s : State) : (release e s).pending = s.pending := by simp [release]

@[simp] theorem keeperFirst_pending (c : Chain) (s : State) : (keeperFirst c s).pending = s.pending := by
  simp [keeperFirst]

@[simp] theorem grantIfFree_pending (c : Chain) (s : State) : (grantIfFree c s).pending = s.pending := by
  unfold grantIfFree
  split <;> simp

@[simp] theorem preempt_pending (e : Exec) (s : State) : (preempt e s).pending = s.pending := by
  fun_cases preempt <;> simp +zetaDelta

/-! ## The HF chain -/

@[simp] theorem powerApply_pending (l : LaneId) (id v : Nat) (c : Checked) (s : State) :
    (powerApply l id v c s).pending = s.pending := by simp [powerApply]

@[simp] theorem hfRise_pending (k wait : Nat) (s : State) : (hfRise k wait s).pending = s.pending := by simp [hfRise]
@[simp] theorem hfLight_pending (e : Exec) (s : State) : (hfLight e s).pending = s.pending := by simp [hfLight]

@[simp] theorem hfChange_pending (iAnt : Nat) (e : Exec) (s : State) : (hfChange iAnt e s).pending = s.pending := by
  simp [hfChange]

@[simp] theorem hfOff_pending (e : Exec) (s : State) : (hfOff e s).pending = s.pending := by simp [hfOff]

@[simp] theorem hfField_pending (iAnt : Nat) (e : Exec) (s : State) : (hfField iAnt e s).pending = s.pending := by
  simp [hfField]

@[simp] theorem loopSettled_pending (iAnt drive : Nat) (s : State) : (loopSettled iAnt drive s).pending = s.pending :=
  (rfl)

@[simp] theorem autoRetune_pending (s : State) : (autoRetune s).pending = s.pending := by simp [autoRetune]

@[simp] theorem mismatchMeasured_pending (phi : Int) (m : Nat) (s : State) :
    (mismatchMeasured phi m s).pending = s.pending := by simp [mismatchMeasured]

@[simp] theorem tuneApply_pending (e : Exec) (body : List Byte) (s : State) :
    (tuneApply e body s).pending = s.pending := by simp [tuneApply]

@[simp] theorem tuneLight_pending (body : List Byte) (s : State) : (tuneLight body s).pending = s.pending := by
  simp [tuneLight]

@[simp] theorem tuneSet_pending (e : Exec) (body : List Byte) (s : State) : (tuneSet e body s).pending = s.pending := by
  simp [tuneSet]

@[simp] theorem hfTune_pending (ms : List (Int × Nat)) (iAnt : Nat) (e : Exec) (s : State) :
    (hfTune ms iAnt e s).pending = s.pending := by simp [hfTune]

@[simp] theorem lpcdStore_pending (p : Packet) (s : State) : (lpcdStore p s).pending = s.pending := (rfl)
@[simp] theorem lpcdArm_pending (e : Exec) (s : State) : (lpcdArm e s).pending = s.pending := by simp [lpcdArm]

@[simp] theorem lpcdHit_pending (a n : Nat) (byA byN : Bool) (s : State) :
    (lpcdHit a n byA byN s).pending = s.pending := by simp [lpcdHit]

@[simp] theorem lpcdNext_pending (us : Nat) (s : State) : (lpcdNext us s).pending = s.pending := (rfl)

@[simp] theorem lpcdCompare_pending (a n : Nat) (s : State) : (lpcdCompare a n s).pending = s.pending := by
  simp [lpcdCompare]

@[simp] theorem lpcdRebase_pending (left aSum nSum a n : Nat) (s : State) :
    (lpcdRebase left aSum nSum a n s).pending = s.pending := by simp [lpcdRebase]

@[simp] theorem lpcdCal_pending (left aSum nSum a n : Nat) (s : State) :
    (lpcdCal left aSum nSum a n s).pending = s.pending := by simp [lpcdCal]

@[simp] theorem lpcdMeasured_pending (a n : Nat) (s : State) : (lpcdMeasured a n s).pending = s.pending := by
  unfold lpcdMeasured
  split <;> simp

@[simp] theorem setQuiet_pending (c : Chain) (q : Nat) (s : State) : (setQuiet c q s).pending = s.pending := by
  unfold setQuiet
  split <;> simp

@[simp] theorem gainStep_pending (c : Chain) (k : Nat) (clip : Bool) (s : State) :
    (gainStep c k clip s).pending = s.pending := by
  unfold gainStep
  split <;> simp

@[simp] theorem sofSeen_pending (c : Chain) (s : State) : (sofSeen c s).pending = s.pending := by
  unfold sofSeen
  split <;> simp

@[simp] theorem agcWindow_pending (c : Chain) (peak : Nat) (clip : Bool) (s : State) :
    (agcWindow c peak clip s).pending = s.pending := by simp [agcWindow]

/-! ## The UHF chain -/

@[simp] theorem newPerm_pending (s : State) : (newPerm s).pending = s.pending := (rfl)

@[simp] theorem pickNextFrom_pending (avoid : Option Nat) (s : State) :
    (pickNextFrom avoid s).2.pending = s.pending := by
  fun_cases pickNextFrom <;> simp +zetaDelta

@[simp] theorem pickNext_pending (s : State) : (pickNext s).2.pending = s.pending := by simp [pickNext]

theorem pickNext_eq_pending {s t : State} {o : Option Nat} (h : pickNext s = (o, t)) : t.pending = s.pending := by
  rw [← pickNext_pending s, h]

@[simp] theorem pickFirst_pending (s : State) : (pickFirst s).2.pending = s.pending := by simp [pickFirst]

theorem pickFirst_eq_pending {s t : State} {o : Option Nat} (h : pickFirst s = (o, t)) : t.pending = s.pending := by
  rw [← pickFirst_pending s, h]

@[simp] theorem setIndex_pending (c : Nat) (s : State) : (setIndex c s).pending = s.pending := by simp [setIndex]
@[simp] theorem waitRise_pending (w : RiseWait) (s : State) : (waitRise w s).pending = s.pending := (rfl)
@[simp] theorem uhfReturn_pending (s : State) : (uhfReturn s).pending = s.pending := by simp [uhfReturn]
@[simp] theorem uhfRise_pending (s : State) : (uhfRise s).pending = s.pending := by simp [uhfRise]
@[simp] theorem uhfCheckRise_pending (s : State) : (uhfCheckRise s).pending = s.pending := by simp [uhfCheckRise]

@[simp] theorem uhfSense_pending (s : State) : (uhfSense s).pending = s.pending := by
  fun_cases uhfSense <;> simp

@[simp] theorem synthRecal_pending (ch band : Nat) (s : State) : (synthRecal ch band s).pending = s.pending := by
  simp [synthRecal]

@[simp] theorem hopRecal_pending (ch : Nat) (s : State) : (hopRecal ch s).pending = s.pending := by simp [hopRecal]

@[simp] theorem changeChannel_pending (c : Nat) (s : State) : (changeChannel c s).pending = s.pending := by
  simp [changeChannel]

@[simp] theorem hopKnown_pending (c : Nat) (s : State) : (hopKnown c s).pending = s.pending := by simp [hopKnown]
@[simp] theorem restFrom_pending (s : State) : (restFrom s).pending = s.pending := by simp [restFrom]

@[simp] theorem uhfTryRise_pending (s : State) : (uhfTryRise s).pending = s.pending := by
  fun_cases uhfTryRise
  case case6 h => simp [pickNext_eq_pending h]
  case case7 h => simp [pickNext_eq_pending h]
  all_goals simp +zetaDelta

@[simp] theorem uhfLight_pending (e : Exec) (s : State) : (uhfLight e s).pending = s.pending := by simp [uhfLight]
@[simp] theorem uhfChange_pending (e : Exec) (s : State) : (uhfChange e s).pending = s.pending := by simp [uhfChange]
@[simp] theorem uhfOff_pending (e : Exec) (s : State) : (uhfOff e s).pending = s.pending := by simp [uhfOff]
@[simp] theorem uhfCarrier_pending (e : Exec) (s : State) : (uhfCarrier e s).pending = s.pending := by simp [uhfCarrier]

@[simp] theorem applyChannel_pending (mode index : Nat) (s : State) :
    (applyChannel mode index s).pending = s.pending := by
  fun_cases applyChannel
  case case1 => simp +zetaDelta
  case case2 h => simp +zetaDelta [pickFirst_eq_pending h]
  case case3 h => simp +zetaDelta [pickFirst_eq_pending h]

@[simp] theorem uhfSetChannel_pending (e : Exec) (s : State) : (uhfSetChannel e s).pending = s.pending := by
  simp [uhfSetChannel]

@[simp] theorem recalTick_pending (s : State) : (recalTick s).pending = s.pending := (rfl)

@[simp] theorem moveOn_pending (loud : Bool) (s : State) : (moveOn loud s).pending = s.pending := by
  fun_cases moveOn
  case case1 => simp +zetaDelta
  case case2 h => simp +zetaDelta [pickNext_eq_pending h]
  case case3 h => simp +zetaDelta [pickNext_eq_pending h]

@[simp] theorem dwellLimit_pending (s : State) : (dwellLimit s).pending = s.pending := by simp [dwellLimit]

@[simp] theorem execLbtSenseDone_keepsPending (level : Int) (s : State) :
    KeepsPending s (execLbtSenseDone level s) := by
  unfold execLbtSenseDone
  split
  next => simp
  next =>
    have hnext : ∀ o t, pickNext s = (o, t) → t.pending = s.pending := fun o t => pickNext_eq_pending
    (repeat' split) <;> simp [*]

@[simp] theorem channelAtFall_pending (s : State) : (channelAtFall s).pending = s.pending := by
  unfold channelAtFall
  split <;> simp

@[simp] theorem afterMove_pending (why : FallFor) (s : State) : (afterMove why s).pending = s.pending := by
  unfold afterMove
  split <;> simp

@[simp] theorem reflectedAction_pending (s : State) : (reflectedAction s).pending = s.pending := by
  unfold reflectedAction
  split
  · simp only [pending_ite, clampEvent_pending, uhfNewOutput_pending, setField_pending, ite_self]
  · simp only [pending_ite, uhfBoundary_pending, State.onUhf_pending, ite_self]
  · rfl

@[simp] theorem rlMeasured_pending (rl : Nat) (s : State) : (rlMeasured rl s).pending = s.pending := by
  simp [rlMeasured]

/-! ## The UHF reader -/

@[simp] theorem selectGo_pending (left : List Nat) (s : State) : (selectGo left s).pending = s.pending := by
  fun_cases selectGo <;> simp

@[simp] theorem uhfSelect_pending (e : Exec) (s : State) : (uhfSelect e s).pending = s.pending := by simp [uhfSelect]

@[simp] theorem invFinish_pending (op : InvOp) (cause : Nat) (s : State) :
    (invFinish op cause s).pending = s.pending := by simp [invFinish]

@[simp] theorem setInv_pending (op : InvOp) (s : State) : (setInv op s).pending = s.pending := (rfl)

@[simp] theorem invSend_pending (op : InvOp) (f : UhfFrame) (s : State) : (invSend op f s).pending = s.pending := by
  simp [invSend]

@[simp] theorem invOpen_pending (op : InvOp) (x : List Nat) (s : State) : (invOpen op x s).pending = s.pending := by
  fun_cases invOpen <;> simp

@[simp] theorem beginRound_pending (op : InvOp) (s : State) : (beginRound op s).pending = s.pending := by
  simp [beginRound]

@[simp] theorem roundEvent_pending (op : InvOp) (s : State) : (roundEvent op s).pending = s.pending := by
  simp [roundEvent]

@[simp] theorem endRound_pending (op : InvOp) (s : State) : (endRound op s).pending = s.pending := by simp [endRound]
@[simp] theorem slotRep_pending (op : InvOp) (s : State) : (slotRep op s).pending = s.pending := by simp [slotRep]

@[simp] theorem slotDecide_pending (op : InvOp) (u : Nat) (s : State) : (slotDecide op u s).pending = s.pending := by
  simp [slotDecide]

@[simp] theorem slotDraw_pending (op : InvOp) (s : State) : (slotDraw op s).pending = s.pending := by
  unfold slotDraw
  split
  next h => simp [rngDraw1_pending h]
  next => simp

@[simp] theorem afterSlot_pending (op : InvOp) (input : Nat) (s : State) :
    (afterSlot op input s).pending = s.pending := by simp [afterSlot]

@[simp] theorem recordTag_pending (op : InvOp) (pc : Half) (epc : List Byte) (lq evm tenant : Nat) (s : State) :
    (recordTag op pc epc lq evm tenant s).2.pending = s.pending := by
  fun_cases recordTag <;> simp +zetaDelta

@[simp] theorem invNext_pending (op : InvOp) (tenant : Nat) (res : FrameResult) (ans : Option UhfAnswer)
    (lq evm : Nat) (s : State) :
    (invNext op tenant res ans lq evm s).pending = s.pending := by
  fun_cases invNext <;> simp +zetaDelta

@[simp] theorem inventory_pending (e : Exec) (s : State) : (inventory e s).pending = s.pending := by simp [inventory]

@[simp] theorem limitTick_pending (s : State) : (limitTick s).pending = s.pending := by
  fun_cases limitTick <;> simp

@[simp] theorem accessSend_pending (op : AccessOp) (f : UhfFrame) (win : Nat) (s : State) :
    (accessSend op f win s).pending = s.pending := by simp [accessSend]

@[simp] theorem accessAttempt_pending (op : AccessOp) (s : State) : (accessAttempt op s).pending = s.pending := by
  simp [accessAttempt]

@[simp] theorem accessRetry_pending (op : AccessOp) (s : State) : (accessRetry op s).pending = s.pending := by
  simp [accessRetry]

@[simp] theorem accessResult_pending (op : AccessOp) (tenant status code words : Nat) (s : State) :
    (accessResult op tenant status code words s).pending = s.pending := (rfl)

@[simp] theorem accessOp_pending (op : AccessOp) (s : State) : (accessOp op s).pending = s.pending := by
  fun_cases accessOp <;> simp

@[simp] theorem accessFail_pending (op : AccessOp) (tenant status code words : Nat) (s : State) :
    (accessFail op tenant status code words s).pending = s.pending := by simp [accessFail]

@[simp] theorem accessDone_pending (op : AccessOp) (tenant words : Nat) (s : State) :
    (accessDone op tenant words s).pending = s.pending := by simp [accessDone]

@[simp] theorem accessWrite_pending (op : AccessOp) (a : AccessEntry) (tenant w : Nat) (rn : Half) (s : State) :
    (accessWrite op a tenant w rn s).pending = s.pending := by simp [accessWrite]

@[simp] theorem opNext_pending (op : AccessOp) (a : AccessEntry) (tenant w : Nat) (cover : Bool)
    (res : FrameResult) (ans : Option UhfAnswer) (s : State) :
    (opNext op a tenant w cover res ans s).pending = s.pending := by
  unfold opNext
  cases res
  case ok =>
    rcases ans with _ | ans
    · simp
    · cases ans <;> simp
  all_goals simp

@[simp] theorem accessNext_pending (op0 : AccessOp) (tenant : Nat) (res : FrameResult) (ans : Option UhfAnswer)
    (lq evm : Nat) (s : State) :
    (accessNext op0 tenant res ans lq evm s).pending = s.pending := by
  fun_cases accessNext <;> simp

@[simp] theorem access_pending (e : Exec) (s : State) : (access e s).pending = s.pending := by simp [access]

@[simp] theorem uhfContinue_pending (res : FrameResult) (ans : Option UhfAnswer) (lq evm : Nat) (s : State) :
    (uhfContinue res ans lq evm s).pending = s.pending := by
  fun_cases uhfContinue <;> simp

@[simp] theorem countUhf_pending (res : FrameResult) (s : State) : (countUhf res s).pending = s.pending := by
  simp [countUhf]

@[simp] theorem gatherUhf_pending (res : FrameResult) (lq : Nat) (s : State) :
    (gatherUhf res lq s).pending = s.pending := by simp [gatherUhf]

@[simp] theorem uhfRx_pending (res : FrameResult) (ans : UhfAnswer) (m : RxMeas) (s : State) :
    (uhfRx res ans m s).pending = s.pending := by simp [uhfRx]

@[simp] theorem breakRound_pending (s : State) : (breakRound s).pending = s.pending := by
  refine withWaiting_pending (fun s => ?_) _ _ _
  (repeat' split) <;> simp

/-! ## The spectrum monitor and captures -/

@[simp] theorem refuseOn_pending (l : LaneId) (s : State) : (refuseOn l s).pending = s.pending := by
  unfold refuseOn
  split <;> simp

@[simp] theorem onPeerRun_pending (f : PeerRun → PeerRun) (s : State) : (onPeerRun f s).pending = s.pending := (rfl)
@[simp] theorem peerQuit_pending (s : State) : (peerQuit s).pending = s.pending := by simp [peerQuit]
@[simp] theorem peerAlone_pending (s : State) : (peerAlone s).pending = s.pending := (rfl)
@[simp] theorem peerRefused_pending (s : State) : (peerRefused s).pending = s.pending := by simp [peerRefused]

@[simp] theorem maskFail_pending (c : Chain) (reason : Nat) (margin : Int) (s : State) :
    (maskFail c reason margin s).pending = s.pending := by
  fun_cases maskFail <;> simp +zetaDelta

@[simp] theorem maskPass_pending (c : Chain) (s : State) : (maskPass c s).pending = s.pending := by
  unfold maskPass
  split <;> simp

@[simp] theorem spectrumDone_pending (l : LaneId) (bins : List (Int × Int)) (s : State) :
    (spectrumDone l bins s).pending = s.pending := by
  unfold spectrumDone
  split <;> simp

@[simp] theorem specTurns_pending (k : Nat) (s : State) : (specTurns k s).pending = s.pending := by
  induction k generalizing s with
  | zero => rfl
  | succ k ih =>
    unfold specTurns
    split
    · rw [ih, withWaiting_pending]
      · simp
      · intro s
        split <;> simp
    · rfl

@[simp] theorem checkEnds_pending {go : State → State} (h : ∀ s, (go s).pending = s.pending) (c : Chain) (s : State) :
    (checkEnds c go s).pending = s.pending := by
  fun_cases checkEnds <;> exact withWaiting_pending h _ _ _

@[simp] theorem execMaskCheckDone_keepsPending (bins : List (Int × Int)) (s : State) :
    KeepsPending s (execMaskCheckDone bins s) := by
  unfold execMaskCheckDone
  split
  · rw [keepsPending_next, specTurns_pending, checkEnds_pending]
    · simp
    · intro s
      split <;> simp
  · simp

@[simp] theorem spectrumCheck_pending (l : LaneId) (bins : List (Int × Int)) (e : Exec) (s : State) :
    (spectrumCheck l bins e s).pending = s.pending := by simp [spectrumCheck]

@[simp] theorem captureStart_pending (c : Chain) (s0 : State) : (captureStart c s0).pending = s0.pending := by
  simp [captureStart]

@[simp] theorem captureSamples_pending (l : LaneId) (e : Exec) (s : State) :
    (captureSamples l e s).pending = s.pending := by simp [captureSamples]

@[simp] theorem captureEnd_pending (c : Chain) (k : Capture) (samples : List (Int × Int)) (state : Nat)
    (clipped : Bool) (s : State) :
    (captureEnd c k samples state clipped s).pending = s.pending := by simp [captureEnd]

@[simp] theorem captureSof_pending (c : Chain) (s : State) : (captureSof c s).pending = s.pending := by
  unfold captureSof
  split <;> simp

@[simp] theorem captureFrameEnd_pending (c : Chain) (s : State) : (captureFrameEnd c s).pending = s.pending := by
  unfold captureFrameEnd
  split <;> simp

@[simp] theorem execCaptureDone_keepsPending (c : Chain) (samples : List (Int × Int)) (clipped : Bool) (s : State) :
    KeepsPending s (execCaptureDone c samples clipped s) := by
  unfold execCaptureDone
  split <;> simp

@[simp] theorem execCaptureTimeout_keepsPending (c : Chain) (s : State) : KeepsPending s (execCaptureTimeout c s) := by
  unfold execCaptureTimeout
  split <;> simp

/-! ## The NV queue -/

@[simp] theorem jobBegin_pending (j : NvJob) (s : State) : (jobBegin j s).pending = s.pending := (rfl)

@[simp] theorem takeJob_pending (j : NvJob) (s : State) : (takeJob j s).pending = s.pending := by
  unfold takeJob
  split <;> simp

theorem nvSubmit_pending {j : NvJob} {s t : State} (h : nvSubmit j s = some t) : t.pending = s.pending := by
  unfold nvSubmit at h
  split at h
  · obtain rfl := Option.some.inj h
    simp
  · split at h
    · obtain rfl := Option.some.inj h
      simp
    · split at h
      · obtain rfl := Option.some.inj h
        simp
      · cases h

theorem nvSubmitAll_pending {js : List NvJob} {s t : State} (h : nvSubmitAll js s = some t) :
    t.pending = s.pending := by
  cases js with
  | nil => rw [Option.some.inj h]
  | cons j rest =>
    obtain ⟨u, hu, rfl⟩ := Option.map_eq_some_iff.1 h
    simp [nvSubmit_pending hu]

@[simp] theorem nvAhead_pending (j : NvJob) (s : State) : (nvAhead j s).pending = s.pending := (rfl)

@[simp] theorem onBank_pending (b : Bool) (f : FwBank → FwBank) (s : State) : (onBank b f s).pending = s.pending :=
  (rfl)

@[simp] theorem dropAwaited_pending (b : Bool) (k : Nat) (s : State) : (dropAwaited b k s).pending = s.pending := (rfl)
@[simp] theorem nvBadChunk_pending (a : Nat) (s : State) : (nvBadChunk a s).pending = s.pending := by simp [nvBadChunk]

@[simp] theorem eccRead_pending (lo hi : Nat) (r : EccRead) (s : State) : (eccRead lo hi r s).pending = s.pending := by
  simp [eccRead]

/-! ## System opcodes -/

@[simp] theorem setConfigEnd_pending (e : Exec) (a : Applied) : (setConfigEnd e a).pending = a.s.pending := by
  fun_cases setConfigEnd
  case case2 h => simp +zetaDelta [nvSubmit_pending h]
  all_goals simp +zetaDelta

@[simp] theorem setConfig_pending (e : Exec) (s : State) : (setConfig e s).pending = s.pending := by
  fun_cases setConfig
  · simp
  · simp only [setConfigEnd_pending]
    split <;> simp +zetaDelta

@[simp] theorem getConfig_pending (ecc : EccRead) (e : Exec) (s0 : State) :
    (getConfig ecc e s0).pending = s0.pending := by simp [getConfig]

@[simp] theorem setWeights_pending (e : Exec) (s : State) : (setWeights e s).pending = s.pending := by
  simp [setWeights]

@[simp] theorem ctrReset_pending (id : Nat) (s : State) : (ctrReset id s).pending = s.pending := by simp [ctrReset]

@[simp] theorem readOne_pending (n : Nat) (clear : Bool) (id : Nat) (s : State) :
    (readOne n clear id s).2.pending = s.pending := by
  unfold readOne
  split <;> simp

@[simp] theorem readMany_pending (n : Nat) (clear : Bool) (k id : Nat) (s : State) :
    (readMany n clear k id s).2.pending = s.pending := by
  induction k generalizing id s with
  | zero => rfl
  | succ k ih => simp [readMany, ih]

@[simp] theorem readCounters_pending (e : Exec) (s : State) : (readCounters e s).pending = s.pending := by
  simp [readCounters]

@[simp] theorem logEnds_pending (s : State) : (logEnds s).2.2.pending = s.pending := by
  unfold logEnds
  split <;> simp

@[simp] theorem getLog_pending (ecc : EccRead) (e : Exec) (s0 : State) : (getLog ecc e s0).pending = s0.pending := by
  simp [getLog]

@[simp] theorem stageProtection_pending (e : Exec) (s : State) : (stageProtection e s).pending = s.pending := by
  simp [stageProtection]

/-! ## The charter -/

@[simp] theorem recheckField_pending (id : Nat) (s : State) : (recheckField id s).pending = s.pending := by
  unfold recheckField
  split <;> simp

@[simp] theorem resetChannel_pending (s : State) : (resetChannel s).pending = s.pending := by
  fun_cases resetChannel
  case case3 h => simp +zetaDelta [pickFirst_eq_pending h]
  case case4 h => simp +zetaDelta [pickFirst_eq_pending h]
  all_goals simp +zetaDelta

@[simp] theorem setCharter_pending (c : Option Charter) (isSealed : Bool) (s : State) :
    (setCharter c isSealed s).pending = s.pending := by simp [setCharter]

@[simp] theorem dropAllVerdicts_pending (s : State) : (dropAllVerdicts s).pending = s.pending := (rfl)

@[simp] theorem peerFieldLost_pending (s : State) : (peerFieldLost s).pending = s.pending := by
  unfold peerFieldLost
  split <;> simp

@[simp] theorem stopTransmission_pending (s : State) : (stopTransmission s).pending = s.pending := by
  simp [stopTransmission]

@[simp] theorem resumeTransmission_pending (s : State) : (resumeTransmission s).pending = s.pending := (rfl)

@[simp] theorem charterRead_pending (ecc : EccRead) (e : Exec) (s0 : State) :
    (charterRead ecc e s0).pending = s0.pending := by simp [charterRead]

@[simp] theorem charterWrite_pending (e : Exec) (s : State) : (charterWrite e s).pending = s.pending := by
  fun_cases charterWrite
  case case5 h => simp +zetaDelta [nvSubmit_pending h]
  all_goals simp

@[simp] theorem charterErased_pending (s : State) : (charterErased s).pending = s.pending := (rfl)

@[simp] theorem charterCommitted_pending (c : Charter) (s : State) : (charterCommitted c s).pending = s.pending := by
  simp [charterCommitted]

@[simp] theorem charterLost_pending (torn : Bool) (s : State) : (charterLost torn s).pending = s.pending := (rfl)

@[simp] theorem charterSeal_pending (e : Exec) (s : State) : (charterSeal e s).pending = s.pending := by
  fun_cases charterSeal
  case case5 h => simp +zetaDelta [nvSubmit_pending h]
  all_goals simp

@[simp] theorem sealCommitted_pending (gen : Nat) (s : State) : (sealCommitted gen s).pending = s.pending := (rfl)

@[simp] theorem charterBreak_pending (e : Exec) (s : State) : (charterBreak e s).pending = s.pending := by
  fun_cases charterBreak
  case case3 h => simp +zetaDelta [nvSubmit_pending h]
  all_goals simp

@[simp] theorem erasePoolSector_pending (k : Nat) (s : State) : (erasePoolSector k s).pending = s.pending := (rfl)

@[simp] theorem breakErased_pending (left : Nat) (s : State) : (breakErased left s).pending = s.pending := by
  simp [breakErased]

/-! ## Calibration banks -/

@[simp] theorem calStoreGo_pending (s : State) : (calStoreGo s).pending = s.pending := by
  fun_cases calStoreGo
  case case2 h => simp +zetaDelta [nvSubmit_pending h]
  all_goals simp

@[simp] theorem calStore_pending (e : Exec) (s : State) : (calStore e s).pending = s.pending := by simp [calStore]
@[simp] theorem discardGather_pending (c : Chain) (s : State) : (discardGather c s).pending = s.pending := (rfl)

@[simp] theorem loadHf_pending (d : CalData) (bank : Nat) (s : State) : (loadHf d bank s).pending = s.pending := by
  simp [loadHf]

@[simp] theorem loadUhf_pending (d : CalData) (bank : Nat) (s : State) : (loadUhf d bank s).pending = s.pending := by
  simp [loadUhf]

@[simp] theorem loadCommon_pending (d : CalData) (bank : Nat) (s : State) : (loadCommon d bank s).pending = s.pending :=
  (rfl)

@[simp] theorem calLoadGo_pending (e : Exec) (s : State) : (calLoadGo e s).pending = s.pending := by
  fun_cases calLoadGo <;> simp +zetaDelta

@[simp] theorem calLoad_pending (ecc : EccRead) (e : Exec) (s0 : State) : (calLoad ecc e s0).pending = s0.pending := by
  simp [calLoad]

@[simp] theorem towWaiter_pending (s : State) : (towWaiter s).pending = s.pending := by
  fun_cases towWaiter <;> simp

@[simp] theorem towConfig_pending (e : Exec) (s : State) : (towConfig e s).pending = s.pending := by
  fun_cases towConfig
  case case2 => simp [foldl_pending fun s i => ctrClear_pending i s]
  all_goals simp

/-! ## The towpath -/

@[simp] theorem tunerMove_pending (s : State) : (tunerMove s).pending = s.pending := by
  unfold tunerMove
  split <;> simp

@[simp] theorem tunerStep_pending (phi : Int) (m iAnt : Nat) (s : State) :
    (tunerStep phi m iAnt s).pending = s.pending := by
  unfold tunerStep
  split <;> simp

@[simp] theorem hfStepEffect_pending (k : StepKind) (x y : Int) (iAnt : Nat) (s : State) :
    (hfStepEffect k x y iAnt s).pending = s.pending := by
  unfold hfStepEffect
  split <;> simp

@[simp] theorem uhfStepEffect_pending (k : StepKind) (x y : Int) (s : State) :
    (uhfStepEffect k x y s).pending = s.pending := by
  unfold uhfStepEffect
  split <;> simp

@[simp] theorem stepEffect_pending (c : Chain) (k : StepKind) (x y : Int) (iAnt : Nat) (s : State) :
    (stepEffect c k x y iAnt s).pending = s.pending := by
  unfold stepEffect
  split <;> simp

@[simp] theorem startStep_pending (c : Chain) (k : StepKind) (s : State) : (startStep c k s).pending = s.pending := by
  simp [startStep]

@[simp] theorem execTowpathStepStart_keepsPending (c : Chain) (s : State) :
    KeepsPending s (execTowpathStepStart c s) := by
  unfold execTowpathStepStart
  split <;> simp

@[simp] theorem chargeDelay_pending (c : Chain) (l : LaneId) (id ns : Nat) (s : State) :
    (chargeDelay c l id ns s).pending = s.pending := by simp [chargeDelay]

@[simp] theorem imposeDelay_pending (c : Chain) (s : State) : (imposeDelay c s).pending = s.pending := by
  fun_cases imposeDelay <;> simp

@[simp] theorem startHeld_pending (c : Chain) (s : State) : (startHeld c s).pending = s.pending := by
  unfold startHeld
  split <;> simp

@[simp] theorem stepEnd_pending (c : Chain) (k : StepKind) (x y : Int) (iAnt : Nat) (s : State) :
    (stepEnd c k x y iAnt s).pending = s.pending := by
  fun_cases stepEnd <;> simp +zetaDelta

@[simp] theorem execTowpathStepEnd_keepsPending (c : Chain) (x y : Int) (iAnt : Nat) (s : State) :
    KeepsPending s (execTowpathStepEnd c x y iAnt s) := by
  unfold execTowpathStepEnd
  split <;> simp

@[simp] theorem execTowpathStepOverrun_keepsPending (c : Chain) (s : State) :
    KeepsPending s (execTowpathStepOverrun c s) := by
  unfold execTowpathStepOverrun
  split <;> simp

/-! ## CAL_RUN -/

@[simp] theorem hfReceiver_pending (rs : List Int) (s : State) : (hfReceiver rs s).2.pending = s.pending := (rfl)
@[simp] theorem hfAntenna_pending (rs : List Int) (s : State) : (hfAntenna rs s).2.pending = s.pending := (rfl)
@[simp] theorem uhfReceiver_pending (rs : List Int) (s : State) : (uhfReceiver rs s).2.pending = s.pending := (rfl)
@[simp] theorem uhfTable_pending (rs : List Int) (s : State) : (uhfTable rs s).2.pending = s.pending := (rfl)
@[simp] theorem uhfLeak_pending (rs : List Int) (s : State) : (uhfLeak rs s).2.pending = s.pending := by simp [uhfLeak]

@[simp] theorem runOf_pending (p : Packet) (rs : List Int) (s : State) : (runOf p rs s).2.pending = s.pending := by
  fun_cases runOf <;> simp

@[simp] theorem runNow_pending (l : LaneId) (e : Exec) (rs : List Int) (s : State) :
    (runNow l e rs s).pending = s.pending := by simp [runNow]

@[simp] theorem hfRunLight_pending (e : Exec) (rs : List Int) (s : State) :
    (hfRunLight e rs s).pending = s.pending := by simp [hfRunLight]

@[simp] theorem calHf_pending (rs : List Int) (e : Exec) (s : State) : (calHf rs e s).pending = s.pending := by
  simp [calHf]

@[simp] theorem uhfRunLight_pending (e : Exec) (rs : List Int) (s : State) :
    (uhfRunLight e rs s).pending = s.pending := by
  unfold uhfRunLight
  split <;> simp

@[simp] theorem calLeak_pending (e : Exec) (rs : List Int) (s : State) : (calLeak e rs s).pending = s.pending := by
  simp [calLeak]

@[simp] theorem startHold_pending (e : Exec) (point : Nat) (s : State) : (startHold e point s).pending = s.pending := by
  unfold startHold
  split <;> simp

@[simp] theorem solve_pending (e : Exec) (s : State) : (solve e s).pending = s.pending := by
  unfold solve
  split <;> simp

@[simp] theorem calUhf_pending (rs : List Int) (e : Exec) (s : State) : (calUhf rs e s).pending = s.pending := by
  simp [calUhf]

@[simp] theorem holdDone_pending (point : Nat) (own : Bool) (fwd rev : Int) (s : State) :
    (holdDone point own fwd rev s).pending = s.pending := by simp [holdDone]

@[simp] theorem execCalHoldEnd_keepsPending (fwd rev : Int) (s : State) :
    KeepsPending s (execCalHoldEnd fwd rev s) := keepsPending_withWaiting fun s => by
  split <;> simp

@[simp] theorem calOsc_pending (e : Exec) (s : State) : (calOsc e s).pending = s.pending := by simp [calOsc]

@[simp] theorem oscEnd_pending (status result : Nat) (o : OscRun) (s : State) :
    (oscEnd status result o s).pending = s.pending := by simp [oscEnd]

@[simp] theorem gateEnd_pending (error : Int) (o : OscRun) (s : State) : (gateEnd error o s).pending = s.pending := by
  simp [gateEnd]

@[simp] theorem execCalGateEnd_keepsPending (error : Int) (s : State) :
    KeepsPending s (execCalGateEnd error s) := keepsPending_withWaiting fun s => by
  split <;> simp

@[simp] theorem execXoTrimStep_keepsPending (s : State) :
    KeepsPending s (execXoTrimStep s) := keepsPending_withWaiting fun s => by
  split <;> simp

@[simp] theorem execCalRefinTimeout_keepsPending (s : State) :
    KeepsPending s (execCalRefinTimeout s) := keepsPending_withWaiting fun s => by
  split <;> simp

@[simp] theorem execCalRun_keepsPending (results : List Int) (s : State) : KeepsPending s (execCalRun results s) := by
  unfold execCalRun
  split <;> simp

/-! ## The key store and the cipher unit -/

@[simp] theorem setUsed_pending (k v : Nat) (s : State) : (setUsed k v s).pending = s.pending := (rfl)

@[simp] theorem onSlot_pending (k : Nat) (f : KeySlot → KeySlot) (s : State) : (onSlot k f s).pending = s.pending :=
  (rfl)

@[simp] theorem countUse_pending (k : Nat) (s : State) : (countUse k s).pending = s.pending := by simp [countUse]

theorem entriesSubmit_pending {n : Nat} {js : List NvJob} {s t : State} (h : entriesSubmit n js s = some t) :
    t.pending = s.pending := by
  unfold entriesSubmit at h
  split at h
  · obtain ⟨j, -, hj⟩ := Option.bind_eq_some_iff.1 h
    exact nvSubmitAll_pending hj
  · exact nvSubmitAll_pending h

@[simp] theorem entriesRefused_pending (n : Nat) (s : State) : (entriesRefused n s).pending = s.pending := by
  simp [entriesRefused]

theorem entrySubmit_pending {k : JobKind} {lane : Option LaneId} {s t : State} (h : entrySubmit k lane s = some t) :
    t.pending = s.pending := entriesSubmit_pending h

@[simp] theorem execKeyLogRollover_keepsPending (s : State) : KeepsPending s (execKeyLogRollover s) := by
  unfold execKeyLogRollover
  split
  · cases h : (rollJob s).bind fun j => nvSubmit j s with
    | none => simp
    | some t =>
      obtain ⟨j, -, hj⟩ := Option.bind_eq_some_iff.1 h
      simp [nvSubmit_pending hj]
  · simp

theorem useSubmit_pending {k : Nat} {s t : State} (h : useSubmit k s = some t) : t.pending = s.pending :=
  entrySubmit_pending h

@[simp] theorem keyIncomplete_pending (slot cause owner : Nat) (s : State) :
    (keyIncomplete slot cause owner s).pending = s.pending := by simp [keyIncomplete]

@[simp] theorem dropGone_pending (k : Nat) (s : State) : (dropGone k s).pending = s.pending := by simp [dropGone]

@[simp] theorem keyRead_pending (ecc : EccRead) (k : Nat) (s : State) : (keyRead ecc k s).pending = s.pending := by
  simp [keyRead]

@[simp] theorem planMove_pending (k : Nat) (r : List NvJob × State) (p : Nat) :
    (planMove k r p).2.pending = r.2.pending := by
  fun_cases planMove <;> simp +zetaDelta

@[simp] theorem planFree_pending (s : State) : (planFree s).2.pending = s.pending := by
  unfold planFree
  split
  · rfl
  · exact (erasePoolSector_pending _ _).trans (foldl_keeps (fun r : List NvJob × State => r.2.pending)
      (planMove_pending _) _ _)

@[simp] theorem wipeKey_pending (p : Packet) (s : State) : (wipeKey p s).pending = s.pending := by simp [wipeKey]

@[simp] theorem stageGo_pending (e : Exec) (s : State) : (stageGo e s).pending = s.pending := by
  fun_cases stageGo
  case case3 h => simp +zetaDelta [entriesSubmit_pending h]
  all_goals simp

@[simp] theorem stageUse_pending (e : Exec) (s : State) : (stageUse e s).pending = s.pending := by
  fun_cases stageUse
  case case2 h => simp +zetaDelta [useSubmit_pending h]
  all_goals simp

@[simp] theorem keyStage_pending (e : Exec) (s : State) : (keyStage e s).pending = s.pending := by
  fun_cases keyStage <;> simp

@[simp] theorem keyEntry_pending (k : JobKind) (body : List Byte) (s : State) :
    (keyEntry k body s).pending = s.pending := by
  unfold keyEntry
  split
  next => simp
  next h => simp [entrySubmit_pending h]

@[simp] theorem keyCommit_pending (e : Exec) (s : State) : (keyCommit e s).pending = s.pending := by
  fun_cases keyCommit <;> simp

@[simp] theorem keyQuery_pending (e : Exec) (s : State) : (keyQuery e s).pending = s.pending := by simp [keyQuery]
@[simp] theorem keyDestroy_pending (e : Exec) (s : State) : (keyDestroy e s).pending = s.pending := by simp [keyDestroy]
@[simp] theorem killPoolPage_pending (p : Nat) (s : State) : (killPoolPage p s).pending = s.pending := (rfl)

@[simp] theorem killShadow_pending (slot : Nat) (s : State) : (killShadow slot s).pending = s.pending := by
  unfold killShadow
  split <;> simp

@[simp] theorem recordCommitted_pending (slot : Nat) (sh : Shadow) (s : State) :
    (recordCommitted slot sh s).pending = s.pending := by simp [recordCommitted]

@[simp] theorem recordFailed_pending (slot : Nat) (s : State) : (recordFailed slot s).pending = s.pending := by
  unfold recordFailed
  split <;> simp

@[simp] theorem copyDone_pending (slot src dst : Nat) (live : Bool) (s : State) :
    (copyDone slot src dst live s).pending = s.pending := by simp [copyDone]

@[simp] theorem moveDone_pending (slot src dst : Nat) (s : State) : (moveDone slot src dst s).pending = s.pending :=
  (rfl)

@[simp] theorem killPage_pending (slot : Nat) (s : State) : (killPage slot s).pending = s.pending := by simp [killPage]

@[simp] theorem flipLost_pending (slot : Nat) (sh : Shadow) (s : State) : (flipLost slot sh s).pending = s.pending := by
  simp [flipLost]

@[simp] theorem keyFlip_pending (slot : Nat) (h : Shadow) (s : State) : (keyFlip slot h s).pending = s.pending := by
  simp [keyFlip]

@[simp] theorem keyGone_pending (slot : Nat) (s : State) : (keyGone slot s).pending = s.pending := by simp [keyGone]
@[simp] theorem keyRolled_pending (s : State) : (keyRolled s).pending = s.pending := (rfl)

@[simp] theorem rollDone_pending (i : Nat) (s : State) : (rollDone i s).pending = s.pending := by
  fun_cases rollDone <;> simp

@[simp] theorem cipherRun_pending (e : Exec) (key : List Byte) (s : State) :
    (cipherRun e key s).pending = s.pending := by simp [cipherRun]

@[simp] theorem cipherDraw_pending (e : Exec) (key : List Byte) (since : Nat) (s : State) :
    (cipherDraw e key since s).pending = s.pending := by
  unfold cipherDraw
  split
  next h => simp [rngGenerate_pending h]
  next => simp

@[simp] theorem cipherGo_pending (e : Exec) (key : List Byte) (s : State) : (cipherGo e key s).pending = s.pending := by
  simp [cipherGo]

@[simp] theorem cipherStart_pending (u : Nat) (ecc : EccRead) (e : Exec) (s : State) :
    (cipherStart u ecc e s).pending = s.pending := by
  fun_cases cipherStart
  case case3 h => simp +zetaDelta [useSubmit_pending h]
  all_goals simp +zetaDelta

@[simp] theorem cipherAes_pending (ecc : EccRead) (e : Exec) (s : State) : (cipherAes ecc e s).pending = s.pending := by
  simp [cipherAes]

@[simp] theorem cipherCmac_pending (ecc : EccRead) (e : Exec) (s : State) :
    (cipherCmac ecc e s).pending = s.pending := by simp [cipherCmac]

/-! ## The interrupt controller -/

@[simp] theorem setPend_pending (n : Nat) (b : Bool) (s : State) : (setPend n b s).pending = s.pending := (rfl)
@[simp] theorem setMask_pending (n : Nat) (b : Bool) (s : State) : (setMask n b s).pending = s.pending := (rfl)

@[simp] theorem drive_pending (p : Port) (ws : List Nat) (s : State) : (drive p ws s).pending = s.pending := by
  simp [drive]

@[simp] theorem writeRecord_pending (d : Doorbell) (s : State) : (writeRecord d s).pending = s.pending := by
  simp [writeRecord]

@[simp] theorem coalesce_pending (n : Nat) (s : State) : (coalesce n s).pending = s.pending := by simp [coalesce]
@[simp] theorem arrive_pending (d : Doorbell) (s : State) : (arrive d s).pending = s.pending := by simp [arrive]

theorem takeDoorbell_pending {d : Doorbell} {s t : State} (h : takeDoorbell s = some (d, t)) :
    t.pending = s.pending := by
  unfold takeDoorbell at h
  split at h
  · obtain ⟨-, rfl⟩ := Prod.mk.inj (Option.some.inj h)
    simp
  · split at h
    · cases h
    · split at h
      · cases h
      · obtain ⟨-, rfl⟩ := Prod.mk.inj (Option.some.inj h)
        simp

@[simp] theorem execDoorbellArrived_keepsPending (s : State) : KeepsPending s (execDoorbellArrived s) := by
  unfold execDoorbellArrived
  (repeat' split)
  next => simp
  next => simp
  next h => simp [takeDoorbell_pending h]

@[simp] theorem arbitrate_pending (s : State) : (arbitrate s).pending = s.pending := by
  fun_cases arbitrate <;> simp

@[simp] theorem deliver_pending (x : Nat × Nat × Nat × Bool) (s : State) : (deliver x s).pending = s.pending := by
  simp [deliver]

@[simp] theorem stallNearer_pending (s : State) : (stallNearer s).pending = s.pending := (rfl)

@[simp] theorem deliverOldest_pending (s : State) : (deliverOldest s).pending = s.pending := by
  unfold deliverOldest
  split <;> simp

@[simp] theorem deliverAll_pending (s : State) : (deliverAll s).pending = s.pending := by simp [deliverAll]
@[simp] theorem icDoorbell_pending (p : Port) (v : Nat) (s : State) : (icDoorbell p v s).pending = s.pending := (rfl)

@[simp] theorem icSetclr_pending (onMask set : Bool) (v : Nat) (s : State) :
    (icSetclr onMask set v s).pending = s.pending := by simp [icSetclr]

@[simp] theorem icPendSet_pending (p : Port) (i v : Nat) (s : State) : (icPendSet p i v s).pending = s.pending := by
  simp [icPendSet]

@[simp] theorem icMaskSet_pending (p : Port) (i v : Nat) (s : State) : (icMaskSet p i v s).pending = s.pending := (rfl)
@[simp] theorem newProfile_pending (n : Nat) (s : State) : (newProfile n s).pending = s.pending := by simp [newProfile]
@[simp] theorem icSrcSet_pending (n v : Nat) (s : State) : (icSrcSet n v s).pending = s.pending := by simp [icSrcSet]
@[simp] theorem icEoi_pending (t v : Nat) (s : State) : (icEoi t v s).pending = s.pending := by simp [icEoi]
@[simp] theorem icCurpriSet_pending (t v : Nat) (s : State) : (icCurpriSet t v s).pending = s.pending := (rfl)
@[simp] theorem icTcfgSet_pending (t v : Nat) (s : State) : (icTcfgSet t v s).pending = s.pending := (rfl)

@[simp] theorem icWrite_pending (p : Port) (off v : Nat) (s : State) : (icWrite p off v s).pending = s.pending := by
  simp [icWrite]

@[simp] theorem icClaim_pending (p : Port) (t : Nat) (s : State) : (icClaim p t s).2.pending = s.pending := by
  fun_cases icClaim <;> simp

@[simp] theorem icTstat_pending (p : Port) (t : Nat) (s : State) : (icTstat p t s).2.pending = s.pending := by
  unfold icTstat
  split <;> simp

@[simp] theorem icSync_pending (p : Port) (fast : Bool) (s : State) : (icSync p fast s).2.pending = s.pending := by
  unfold icSync
  split <;> simp

@[simp] theorem icStatus_pending (s : State) : (icStatus s).2.pending = s.pending := (rfl)
@[simp] theorem icEvtdrop_pending (n : Nat) (s : State) : (icEvtdrop n s).2.pending = s.pending := (rfl)

@[simp] theorem icRead_pending (p : Port) (off : Nat) (fast : Bool) (s : State) :
    (icRead p off fast s).2.pending = s.pending := by
  fun_cases icRead <;> simp

/-! ## The host ports -/

@[simp] theorem portStorm_pending (p : Port) (s : State) : (portStorm p s).pending = s.pending := by simp [portStorm]

@[simp] theorem portError_pending (p : Port) (code addr : Nat) (s : State) :
    (portError p code addr s).pending = s.pending := by simp [portError]

@[simp] theorem laterError_pending (p : Port) (code addr : Nat) (s : State) :
    (laterError p code addr s).pending = s.pending := by simp [laterError]

@[simp] theorem discardDraw_pending (p : Port) (addr : Nat) (s : State) :
    (discardDraw p addr s).pending = s.pending := by
  fun_cases discardDraw
  case case1 h => simp +zetaDelta [rngTakeWord_pending h]
  all_goals simp

@[simp] theorem resetPort_pending (p : Port) (s : State) : (resetPort p s).pending = s.pending := by
  unfold resetPort
  split <;> simp

@[simp] theorem portResetReg_pending (v : Nat) (s : State) : (portResetReg v s).pending = s.pending := by
  simp [portResetReg]

@[simp] theorem cmdProdSet_pending (n v : Nat) (s : State) : (cmdProdSet n v s).pending = s.pending := by
  simp [cmdProdSet]

@[simp] theorem rplConsSet_pending (n v : Nat) (s : State) : (rplConsSet n v s).pending = s.pending := by
  simp [rplConsSet]

@[simp] theorem clearMarks_pending (n : Nat) (s : State) : (clearMarks n s).pending = s.pending := (rfl)

@[simp] theorem evtConsSet_pending (n v : Nat) (s : State) : (evtConsSet n v s).pending = s.pending := by
  simp [evtConsSet]

@[simp] theorem tenantPageWrite_pending (n off v : Nat) (s : State) :
    (tenantPageWrite n off v s).pending = s.pending := by simp [tenantPageWrite]

@[simp] theorem paCfgSet_pending (v : Nat) (s : State) : (paCfgSet v s).pending = s.pending := (rfl)

@[simp] theorem setRec_pending (busy : Bool) (verdict status : Nat) (s : State) :
    (setRec busy verdict status s).pending = s.pending := (rfl)

@[simp] theorem recCommand_pending (v : Nat) (s : State) : (recCommand v s).pending = s.pending := by
  fun_cases recCommand
  case case4 h => simp +zetaDelta [nvSubmit_pending h]
  case case9 h => simp +zetaDelta [nvSubmit_pending h]
  all_goals simp +zetaDelta

@[simp] theorem recWriteWord_pending (addr v : Nat) (s : State) : (recWriteWord addr v s).pending = s.pending := by
  simp [recWriteWord]

@[simp] theorem writeWord_pending (p : Port) (addr v : Nat) (s : State) :
    (writeWord p addr v s).pending = s.pending := by simp [writeWord]

@[simp] theorem errRead_pending (q : Port) (s : State) : (errRead q s).2.pending = s.pending := by simp [errRead]

@[simp] theorem globalRead_pending (p : Port) (off : Nat) (s : State) : (globalRead p off s).2.pending = s.pending := by
  unfold globalRead
  split <;> simp

@[simp] theorem rngLate_pending (p : Port) (s : State) : (rngLate p s).2.pending = s.pending := by
  unfold rngLate
  split <;> simp

@[simp] theorem rngDataWord_pending (p : Port) (s : State) : (rngDataWord p s).2.pending = s.pending := by
  unfold rngDataWord
  split
  next h => simp [rngTakeWord_pending h]
  next => simp

@[simp] theorem readWord_pending (p : Port) (addr : Nat) (fast : Bool) (s : State) :
    (readWord p addr fast s).2.pending = s.pending := by
  fun_cases readWord <;> simp

@[simp] theorem burstWrite_pending (p : Port) (addr : Nat) (ws : List Word) (failed : Bool) (s : State) :
    (burstWrite p addr ws failed s).2.pending = s.pending := by
  induction ws generalizing addr failed s with
  | nil => rfl
  | cons w ws ih =>
    unfold burstWrite
    split <;> simp [ih]

@[simp] theorem burstRead_pending (p : Port) (fast : Bool) (addr n : Nat) (failed : Bool) (s : State) :
    (burstRead p fast addr n failed s).2.2.pending = s.pending := by
  induction n generalizing addr failed s with
  | zero => rfl
  | succ n ih =>
    unfold burstRead
    split <;> simp [ih]

@[simp] theorem lateWords_pending (o : OpenTx) (s : State) : (lateWords o s).pending = s.pending := by
  cases h : o.paCfg <;> simp [lateWords, h]

@[simp] theorem txError_pending (p : Port) (o : OpenTx) (code addr : Nat) (s : State) :
    (txError p o code addr s).pending = s.pending := by simp [txError]

@[simp] theorem endWords_pending (p : Port) (o : OpenTx) (n : Nat) (fin : TxEnd) (s : State) :
    (endWords p o n fin s).pending = s.pending := by
  unfold endWords
  split <;> simp

@[simp] theorem closeTx_pending (p : Port) (o : OpenTx) (s : State) : (closeTx p o s).pending = s.pending := by
  unfold closeTx
  split <;> simp

@[simp] theorem portBegin_pending (p : Port) (s : State) : (portBegin p s).pending = s.pending := by
  simp only [portBegin]
  (repeat' split) <;> simp

@[simp] theorem keepTx_pending (p : Port) (o : OpenTx) (fin : TxEnd) (s : State) :
    (keepTx p o fin s).pending = s.pending := by
  unfold keepTx
  split <;> simp

@[simp] theorem silentTx_pending (p : Port) (write : Bool) (fin : TxEnd) (s : State) :
    (silentTx p write fin s).pending = s.pending := by simp [silentTx]

@[simp] theorem misaligned_pending (p : Port) (write : Bool) (addr n : Nat) (fin : TxEnd) (s : State) :
    (misaligned p write addr n fin s).pending = s.pending := by simp [misaligned]

@[simp] theorem writeRun_pending (p : Port) (o : OpenTx) (ws : List Word) (fin : TxEnd) (s : State) :
    (writeRun p o ws fin s).pending = s.pending := by simp [writeRun]

@[simp] theorem portWriteTx_pending (p : Port) (addr : Nat) (ws : List Word) (fin : TxEnd) (s : State) :
    (portWriteTx p addr ws fin s).pending = s.pending := by simp [portWriteTx]

@[simp] theorem zeroRead_pending (p : Port) (n : Nat) (s : State) : (zeroRead p n s).pending = s.pending := by
  simp [zeroRead]

@[simp] theorem readRun_pending (p : Port) (o : OpenTx) (n : Nat) (fin : TxEnd) (fast : Bool) (s : State) :
    (readRun p o n fin fast s).pending = s.pending := by simp [readRun]

@[simp] theorem portReadTx_pending (p : Port) (addr n : Nat) (fin : TxEnd) (fast : Bool) (s : State) :
    (portReadTx p addr n fin fast s).pending = s.pending := by simp [portReadTx]

@[simp] theorem endStall_pending (st : Stall) (first : Nat) (s : State) :
    (endStall st first s).pending = s.pending := by simp [endStall]

@[simp] theorem deliverAhead_pending (st : Stall) (s : State) : (deliverAhead st s).pending = s.pending := by
  simp [deliverAhead]

@[simp] theorem stallTimeout_pending (st : Stall) (s : State) : (stallTimeout st s).pending = s.pending := by
  simp [stallTimeout]

@[simp] theorem cutAddress_pending (p : Port) (addr : List Byte) (tail : List Bool) (s : State) :
    (cutAddress p addr tail s).pending = s.pending := by simp [cutAddress]

@[simp] theorem closeBurst_pending (p : Port) (s : State) : (closeBurst p s).pending = s.pending := by simp [closeBurst]

@[simp] theorem writeOn_pending (p : Port) (o : OpenTx) (ws : List Word) (fin : TxEnd) (s : State) :
    (writeOn p o ws fin s).pending = s.pending := by
  fun_cases writeOn <;> simp

@[simp] theorem readOn_pending (p : Port) (o : OpenTx) (n : Nat) (fin : TxEnd) (fast : Bool) (s : State) :
    (readOn p o n fin fast s).pending = s.pending := by
  fun_cases readOn <;> simp +zetaDelta

@[simp] theorem stallOn_pending (n : Nat) (fin : TxEnd) (st : Stall) (s : State) :
    (stallOn n fin st s).pending = s.pending := by simp [stallOn]

@[simp] theorem execPortWrite_keepsPending (p : Port) (addr data : List Byte) (tail : List Bool) (s : State)
    (held : Bool) :
    KeepsPending s (execPortWrite p addr data tail s held) := by
  unfold execPortWrite
  split <;> simp

@[simp] theorem execPortRead_keepsPending (p : Port) (addr : List Byte) (tail : List Bool) (n : Nat) (s : State)
    (fin : TxEnd) (fast : Bool) :
    KeepsPending s (execPortRead p addr tail n s fin fast) := by
  unfold execPortRead
  split <;> simp

@[simp] theorem execPortReadDataReady_keepsPending (s : State) : KeepsPending s (execPortReadDataReady s) := by
  unfold execPortReadDataReady
  (repeat' split)
  next => simp
  next => simp
  next h => simp [rngTakeWord_pending h]
  all_goals simp

@[simp] theorem execPortStallLimit_keepsPending (s : State) : KeepsPending s (execPortStallLimit s) := by
  unfold execPortStallLimit
  split <;> simp

@[simp] theorem execRngWaitTimeout_keepsPending (s : State) : KeepsPending s (execRngWaitTimeout s) := by
  unfold execRngWaitTimeout
  split <;> simp

@[simp] theorem beginTx_pending (p : Port) (f : State → State) (s : State) (h : ∀ s, (f s).pending = s.pending) :
    (beginTx p f s).pending = s.pending := by
  fun_cases beginTx <;> simp +zetaDelta [*]

@[simp] theorem beginError_pending (p : Port) (code : Nat) (s : State) : (beginError p code s).pending = s.pending := by
  simp [beginError]

@[simp] theorem execPortBadCommand_keepsPending (p : Port) (s : State) (cmd : List Byte) (part : Bool) :
    KeepsPending s (execPortBadCommand p s cmd part) := by
  unfold execPortBadCommand
  dsimp only
  (repeat' split) <;> simp

/-! ## Ends of NV jobs, and firmware -/

@[simp] theorem preEraseFw_pending (b : Bool) (s : State) : (preEraseFw b s).pending = s.pending := by simp [preEraseFw]

@[simp] theorem preEraseCal_pending (b : Bool) (s : State) : (preEraseCal b s).pending = s.pending := by
  simp [preEraseCal]

@[simp] theorem queueDeadSectors_pending (s : State) : (queueDeadSectors s).pending = s.pending := (rfl)
@[simp] theorem queueLogErase_pending (s : State) : (queueLogErase s).pending = s.pending := by simp [queueLogErase]

@[simp] theorem advanceArc_pending (v : Nat) (s : State) : (advanceArc v s).pending = s.pending := by
  fun_cases advanceArc <;> simp

@[simp] theorem recordDone_pending (j : NvJob) (s : State) : (recordDone j s).pending = s.pending := by
  unfold recordDone
  split <;> simp

@[simp] theorem recordLost_pending (j : NvJob) (s : State) : (recordLost j s).pending = s.pending := by
  unfold recordLost
  split <;> simp

@[simp] theorem recDone_pending (status : Nat) (s : State) : (recDone status s).pending = s.pending := by simp [recDone]
@[simp] theorem dropJobs_pending (l : LaneId) (s : State) : (dropJobs l s).pending = s.pending := (rfl)

@[simp] theorem jobFail_pending (status : Nat) (j : NvJob) (s : State) : (jobFail status j s).pending = s.pending := by
  unfold jobFail
  split <;> simp

@[simp] theorem jobRefused_pending (j : NvJob) (s : State) : (jobRefused j s).pending = s.pending := by
  unfold jobRefused
  split <;> simp

@[simp] theorem nextJob_pending (k : Nat) (s : State) : (nextJob k s).pending = s.pending := by
  fun_induction nextJob <;> simp +zetaDelta [*]

@[simp] theorem clearJob_pending (s : State) : (clearJob s).pending = s.pending := (rfl)
@[simp] theorem advanceJobs_pending (s : State) : (advanceJobs s).pending = s.pending := by simp [advanceJobs]

@[simp] theorem afterUse_pending (j : NvJob) (s : State) : (afterUse j s).pending = s.pending := by
  fun_cases afterUse <;> simp

@[simp] theorem jobReply_pending (l : LaneId) (e : Exec) (own : Option Nat) (s : State) :
    (jobReply l e own s).pending = s.pending := by simp [jobReply]

@[simp] theorem jobDone_pending (j : NvJob) (s : State) : (jobDone j s).pending = s.pending := by
  simp only [jobDone]
  split <;> simp

@[simp] theorem jobMismatch_pending (j : NvJob) (s : State) : (jobMismatch j s).pending = s.pending := by
  simp only [jobMismatch]
  split <;> simp

@[simp] theorem stopJobs_pending (l : LaneId) (st : Nat) (s : State) : (stopJobs l st s).pending = s.pending := by
  fun_cases stopJobs <;> simp +zetaDelta

@[simp] theorem forsakeJobs_pending (id st : Nat) (s : State) : (forsakeJobs id st s).pending = s.pending := by
  simp [forsakeJobs]

@[simp] theorem stopNv_pending (l : LaneId) (st : Nat) (e : Exec) (s : State) :
    (stopNv l st e s).pending = s.pending := by simp [stopNv]

@[simp] theorem holdJobs_pending (l : LaneId) (id : Nat) (s : State) : (holdJobs l id s).pending = s.pending := (rfl)
@[simp] theorem wakeJobs_pending (s : State) : (wakeJobs s).pending = s.pending := by simp [wakeJobs]

@[simp] theorem resumeJobs_pending (id : Nat) (s : State) : (resumeJobs id s).pending = s.pending := by
  simp [resumeJobs]

@[simp] theorem suspendHere_pending (l : LaneId) (e : Exec) (s : State) : (suspendHere l e s).pending = s.pending := by
  simp [suspendHere]

@[simp] theorem jobYield_pending (j : NvJob) (s : State) : (jobYield j s).pending = s.pending := by
  fun_cases jobYield <;> simp

@[simp] theorem progPage_pending (b : Bool) (off i : Nat) (bytes : List Byte) (s : State) :
    (progPage b off i bytes s).pending = s.pending := (rfl)

@[simp] theorem programmed_pending (j : NvJob) (left : Nat) (s : State) :
    (programmed j left s).pending = s.pending := by
  unfold programmed
  split <;> simp

@[simp] theorem setStage_pending (g : JobStage) (s : State) : (setStage g s).pending = s.pending := (rfl)

@[simp] theorem readBack_pending (j : NvJob) (mismatch uncorrectable : Bool) (corrected : Nat) (s : State) :
    (readBack j mismatch uncorrectable corrected s).pending = s.pending := by simp [readBack]

@[simp] theorem nvProgramDone_pending (mismatch uncorrectable : Bool) (corrected : Nat) (j : NvJob) (s : State) :
    (nvProgramDone mismatch uncorrectable corrected j s).pending = s.pending := by
  unfold nvProgramDone
  split <;> simp

@[simp] theorem execNvProgramDone_keepsPending (mismatch uncorrectable : Bool) (corrected : Nat) (s : State) :
    KeepsPending s (execNvProgramDone mismatch uncorrectable corrected s) := by
  unfold execNvProgramDone
  (repeat' split) <;> simp

@[simp] theorem jobErased_pending (j : NvJob) (left : Nat) (s : State) : (jobErased j left s).pending = s.pending := by
  unfold jobErased
  split <;> simp

@[simp] theorem startBody_pending (j : NvJob) (s : State) : (startBody j s).pending = s.pending := by simp [startBody]

@[simp] theorem eraseFinished_pending (j : NvJob) (s : State) : (eraseFinished j s).pending = s.pending := by
  unfold eraseFinished
  split <;> simp

@[simp] theorem jobEraseDone_pending (j : NvJob) (left : Nat) (s : State) :
    (jobEraseDone j left s).pending = s.pending := by simp [jobEraseDone]

@[simp] theorem keyEraseOver_pending (s : State) : (keyEraseOver s).pending = s.pending := by
  unfold keyEraseOver
  split <;> simp

@[simp] theorem bgStart_pending (s : State) : (bgStart s).pending = s.pending := by
  fun_cases bgStart <;> simp

@[simp] theorem bgErased_pending (s : State) : (bgErased s).pending = s.pending := by
  fun_cases bgErased <;> simp +zetaDelta

@[simp] theorem execNvEraseDone_keepsPending (s : State) : KeepsPending s (execNvEraseDone s) := by
  unfold execNvEraseDone
  (repeat' split) <;> simp

@[simp] theorem fwStageBlock_pending (e : Exec) (s : State) : (fwStageBlock e s).pending = s.pending := by
  fun_cases fwStageBlock
  case case3 h => simp +zetaDelta [nvSubmit_pending h]
  all_goals simp

@[simp] theorem fwVerify_pending (ecc : EccRead) (e : Exec) (s0 : State) :
    (fwVerify ecc e s0).pending = s0.pending := by simp [fwVerify]

@[simp] theorem fwActivate_pending (e : Exec) (s : State) : (fwActivate e s).pending = s.pending := by
  fun_cases fwActivate
  case case4 h => simp +zetaDelta [nvSubmit_pending h]
  all_goals simp

@[simp] theorem confirmTry_pending (s : State) : (confirmTry s).pending = s.pending := by
  fun_cases confirmTry
  case case3 =>
    cases h : nvSubmit _ s with
    | none => simp
    | some t => simp [nvSubmit_pending h]
  all_goals simp

@[simp] theorem execFaultLogCommit_keepsPending (s : State) : KeepsPending s (execFaultLogCommit s) := by
  unfold execFaultLogCommit
  (repeat' split)
  next => simp
  next => simp
  next r _ _ =>
    cases h : nvSubmit (nvJob (.log r) none (0xE90 + s.nv.logPos / 4) 0) s with
    | none => simp
    | some t => simp [nvSubmit_pending h]

/-! ## Card emulation -/

@[simp] theorem emuConfigure_pending (e : Exec) (s : State) : (emuConfigure e s).pending = s.pending := by
  simp [emuConfigure]

@[simp] theorem emuField_pending (s : State) : (emuField s).pending = s.pending := by
  fun_cases emuField
  case case5 h => simp +zetaDelta [rngDraw1_pending h]
  all_goals simp

@[simp] theorem emuListen_pending (uid : List Byte) (s : State) : (emuListen uid s).pending = s.pending := by
  simp [emuListen]

@[simp] theorem armDraw_pending (since : Nat) (s : State) : (armDraw since s).pending = s.pending := by
  unfold armDraw
  split
  next h => simp [rngDraw1_pending h]
  next => simp

@[simp] theorem emuArm_pending (e : Exec) (s : State) : (emuArm e s).pending = s.pending := by
  unfold emuArm
  split <;> simp

@[simp] theorem emuRespondLost_pending (s : State) : (emuRespondLost s).pending = s.pending := by
  unfold emuRespondLost
  split <;> simp

@[simp] theorem emuFieldLost_pending (s : State) : (emuFieldLost s).pending = s.pending := by simp [emuFieldLost]
@[simp] theorem emuSend_pending (f : HfFrame) (s : State) : (emuSend f s).pending = s.pending := (rfl)
@[simp] theorem emuError_pending (s : State) : (emuError s).pending = s.pending := (rfl)

@[simp] theorem emuSelected_pending (dsi dri : Nat) (s : State) : (emuSelected dsi dri s).pending = s.pending := by
  simp [emuSelected]

@[simp] theorem emuFirstBlock_pending (s : State) : (emuFirstBlock s).pending = s.pending := by
  unfold emuFirstBlock
  split <;> simp

@[simp] theorem emuNextBlock_pending (s : State) : (emuNextBlock s).pending = s.pending := (rfl)
@[simp] theorem emuCommand_pending (s : State) : (emuCommand s).pending = s.pending := by simp [emuCommand]

@[simp] theorem emuIBlockIn_pending (chain : Bool) (inf : List Byte) (s : State) :
    (emuIBlockIn chain inf s).pending = s.pending := by simp [emuIBlockIn]

@[simp] theorem emuRBlockIn_pending (nak n : Bool) (s : State) : (emuRBlockIn nak n s).pending = s.pending := by
  fun_cases emuRBlockIn <;> simp

@[simp] theorem emuProtocol_pending (f : EmuFrame) (s : State) : (emuProtocol f s).pending = s.pending := by
  fun_cases emuProtocol <;> simp +zetaDelta

@[simp] theorem emuLayer3_pending (f : EmuFrame) (s : State) : (emuLayer3 f s).pending = s.pending := by
  unfold emuLayer3
  split <;> simp

@[simp] theorem execEmuRxFrame_keepsPending (f : EmuFrame) (s : State) (clipped : Bool) (res : FrameResult) :
    KeepsPending s (execEmuRxFrame f s clipped res) := keepsPending_withWaiting fun s => by
  split <;> simp

@[simp] theorem emuAnswer_pending (bs : List Byte) (s : State) : (emuAnswer bs s).pending = s.pending := by
  simp [emuAnswer]

@[simp] theorem emuRespond_pending (e : Exec) (s : State) : (emuRespond e s).pending = s.pending := by simp [emuRespond]

@[simp] theorem emuBlockSent_pending (s : State) : (emuBlockSent s).pending = s.pending := by
  unfold emuBlockSent
  split <;> simp

/-! ## Peer mode -/

@[simp] theorem answerSense_pending (s : State) : (answerSense s).pending = s.pending := (rfl)

@[simp] theorem peerSend_pending (f : HfFrame) (s : State) : (peerSend f s).pending = s.pending := by
  unfold peerSend
  split <;> simp

@[simp] theorem peerSendData_pending (s : State) : (peerSendData s).pending = s.pending := by
  unfold peerSendData
  split <;> simp

@[simp] theorem sendSwap_pending (want : Bool) (s : State) : (sendSwap want s).pending = s.pending := by
  unfold sendSwap
  split <;> simp

@[simp] theorem peerBegin_pending (p : Packet) (ws : List Half) (s : State) :
    (peerBegin p ws s).pending = s.pending := by simp [peerBegin]

@[simp] theorem peerDraw_pending (since : Nat) (p : Packet) (s : State) : (peerDraw since p s).pending = s.pending := by
  unfold peerDraw
  split
  next h => simp [rngDraw1_pending h]
  next => simp

@[simp] theorem peerStart_pending (e : Exec) (s : State) : (peerStart e s).pending = s.pending := by simp [peerStart]

@[simp] theorem peerFieldUp_pending (s : State) : (peerFieldUp s).pending = s.pending := by
  unfold peerFieldUp
  split <;> simp

@[simp] theorem swapEvent_pending (swapped failed : Bool) (s : State) :
    (swapEvent swapped failed s).pending = s.pending := by
  unfold swapEvent
  split <;> simp

@[simp] theorem swapReply_pending (status : Nat) (swapped : Bool) (s : State) :
    (swapReply status swapped s).pending = s.pending := by simp [swapReply]

@[simp] theorem swapKept_pending (s : State) : (swapKept s).pending = s.pending := by simp [swapKept]
@[simp] theorem swapFailed_pending (s : State) : (swapFailed s).pending = s.pending := by simp [swapFailed]

@[simp] theorem swapRoles_pending (s : State) : (swapRoles s).pending = s.pending := by
  unfold swapRoles
  split <;> simp

@[simp] theorem swapWaits_pending (length : Bool) (s : State) : (swapWaits length s).pending = s.pending := by
  simp [swapWaits]

@[simp] theorem tieDraw_pending (s : State) : (tieDraw s).pending = s.pending := by
  unfold tieDraw
  split
  next h => simp [rngDraw1_pending h]
  next => simp

@[simp] theorem swapTie_pending (s : State) : (swapTie s).pending = s.pending := by
  fun_cases swapTie <;> simp +zetaDelta

@[simp] theorem swapCompare_pending (s : State) : (swapCompare s).pending = s.pending := by
  unfold swapCompare
  split <;> simp

@[simp] theorem keepGb_pending (gb : List Byte) (s : State) : (keepGb gb s).pending = s.pending := by
  unfold keepGb
  split <;> simp

@[simp] theorem gotAtrReq_pending (gb : List Byte) (s : State) : (gotAtrReq gb s).pending = s.pending := by
  unfold gotAtrReq
  split <;> simp

@[simp] theorem gotAtrRes_pending (nfcid gb : List Byte) (toc : Nat) (s : State) :
    (gotAtrRes nfcid gb toc s).pending = s.pending := by
  fun_cases gotAtrRes <;> simp +zetaDelta

@[simp] theorem storeData_pending (data : List Byte) (s : State) : (storeData data s).pending = s.pending := by
  unfold storeData
  split <;> simp

@[simp] theorem swapEnds_pending (status code : Nat) (s : State) : (swapEnds status code s).pending = s.pending := by
  simp [swapEnds]

@[simp] theorem swapLost_pending (code : Nat) (s : State) : (swapLost code s).pending = s.pending := by simp [swapLost]
@[simp] theorem peerBad_pending (s : State) : (peerBad s).pending = s.pending := by simp [peerBad]

@[simp] theorem initiatorData_pending (bs : List Byte) (s : State) : (initiatorData bs s).pending = s.pending := by
  simp [initiatorData]

@[simp] theorem swapDropped_pending (s : State) : (swapDropped s).pending = s.pending := by simp [swapDropped]

@[simp] theorem targetData_pending (bs : List Byte) (s0 : State) : (targetData bs s0).pending = s0.pending := by
  fun_cases targetData <;> simp +zetaDelta

@[simp] theorem gotDep_pending (more : Bool) (data : List Byte) (s : State) :
    (gotDep more data s).pending = s.pending := by
  unfold gotDep
  split <;> simp

@[simp] theorem gotRelease_pending (s : State) : (gotRelease s).pending = s.pending := by simp [gotRelease]

@[simp] theorem peerNext_pending (f : PeerFrame) (s : State) : (peerNext f s).pending = s.pending := by
  fun_cases peerNext <;> simp

@[simp] theorem peerRx_pending (f : PeerFrame) (m : RxMeas) (clipped : Bool) (res0 : FrameResult) (s : State) :
    (peerRx f m clipped res0 s).pending = s.pending := by simp [peerRx]

@[simp] theorem execPeerRxFrame_keepsPending (f : PeerFrame) (m : RxMeas) (s : State) (clipped : Bool)
    (res : FrameResult) :
    KeepsPending s (execPeerRxFrame f m s clipped res) := keepsPending_withWaiting fun s => by
  split <;> simp

@[simp] theorem peerExchange_pending (e : Exec) (s : State) : (peerExchange e s).pending = s.pending := by
  unfold peerExchange
  split <;> simp

@[simp] theorem execPeerRtox_keepsPending (s : State) : KeepsPending s (execPeerRtox s) := by
  unfold execPeerRtox
  split <;> simp

@[simp] theorem swapRequest_pending (draw : Nat) (s : State) : (swapRequest draw s).pending = s.pending := by
  fun_cases swapRequest <;> simp +zetaDelta

@[simp] theorem swapDraw_pending (since : Nat) (s : State) : (swapDraw since s).pending = s.pending := by
  unfold swapDraw
  split
  next h => simp [rngDraw1_pending h]
  next => simp

@[simp] theorem peerRoleSwap_pending (e : Exec) (s : State) : (peerRoleSwap e s).pending = s.pending := by
  simp [peerRoleSwap]

@[simp] theorem backoffEnd_pending (draw : Nat) (s : State) : (backoffEnd draw s).pending = s.pending := by
  fun_cases backoffEnd <;> simp +zetaDelta

@[simp] theorem backoffDraw_pending (s : State) : (backoffDraw s).pending = s.pending := by
  unfold backoffDraw
  split
  next h => simp [rngDraw1_pending h]
  next => simp

@[simp] theorem execSwapBackoffEnd_keepsPending (s : State) :
    KeepsPending s (execSwapBackoffEnd s) := keepsPending_withWaiting fun s => by
  split <;> simp

@[simp] theorem peerFieldSeen_pending (s : State) : (peerFieldSeen s).pending = s.pending := by
  unfold peerFieldSeen
  split <;> simp

@[simp] theorem swapSense_pending (s : State) : (swapSense s).pending = s.pending := by
  unfold swapSense
  split
  next h => simp [rngDraw1_pending h]
  next => simp

@[simp] theorem swapDrawAgain_pending (s : State) : (swapDrawAgain s).pending = s.pending := by
  fun_cases swapDrawAgain <;> simp

@[simp] theorem execSwapGapEnd_keepsPending (sensed : Bool) (s : State) :
    KeepsPending s (execSwapGapEnd sensed s) := keepsPending_withWaiting fun s => by
  split <;> simp

@[simp] theorem execSwapReactivationTimeout_keepsPending (s : State) :
    KeepsPending s (execSwapReactivationTimeout s) := keepsPending_withWaiting fun s => by
  split <;> simp

@[simp] theorem peerEnd_pending (s : State) : (peerEnd s).pending = s.pending := by simp [peerEnd]

@[simp] theorem peerFrameEnd_pending (f : HfFrame) (s : State) : (peerFrameEnd f s).pending = s.pending := by
  fun_cases peerFrameEnd <;> simp +zetaDelta

@[simp] theorem peerSilent_pending (s : State) : (peerSilent s).pending = s.pending := by
  unfold peerSilent
  split <;> simp

@[simp] theorem peerFieldDown_pending (s : State) : (peerFieldDown s).pending = s.pending := by
  unfold peerFieldDown
  split <;> simp

@[simp] theorem execOtherFieldEnds_keepsPending (s : State) :
    KeepsPending s (execOtherFieldEnds s) := keepsPending_withWaiting fun s => by
  split <;> simp

@[simp] theorem peerStop_pending (e : Exec) (s : State) : (peerStop e s).pending = s.pending := by
  unfold peerStop
  split <;> simp

@[simp] theorem extWindow_pending (peak : Nat) (s : State) : (extWindow peak s).pending = s.pending := by
  simp [extWindow]

@[simp] theorem execExternalFieldDetected_keepsPending (s : State) (peak : Nat) :
    KeepsPending s (execExternalFieldDetected s peak) := keepsPending_withWaiting fun s => by
  simp

@[simp] theorem execExternalFieldGone_keepsPending (s : State) :
    KeepsPending s (execExternalFieldGone s) := keepsPending_withWaiting fun s => by
  split <;> simp

@[simp] theorem execAgcWindow_keepsPending (c : Chain) (peak : Nat) (clip : Bool) (s : State) (sof : Bool) :
    KeepsPending s (execAgcWindow c peak clip s sof) := keepsPending_withWaiting fun s => by
  (repeat' split) <;> simp

/-! ## Entropy and draws -/

@[simp] theorem setFails_pending (noise : Bool) (n : Nat) (s : State) : (setFails noise n s).pending = s.pending :=
  (rfl)

@[simp] theorem stopSource_pending (noise : Bool) (s : State) : (stopSource noise s).pending = s.pending := (rfl)

@[simp] theorem rngFence_pending (noise : Bool) (s : State) : (rngFence noise s).pending = s.pending := by
  simp [rngFence]

@[simp] theorem setTest_pending (noise : Bool) (t : HealthTest) (s : State) : (setTest noise t s).pending = s.pending :=
  (rfl)

@[simp] theorem blockPassed_pending (noise : Bool) (raw : List Byte) (s : State) :
    (blockPassed noise raw s).pending = s.pending := (rfl)

@[simp] theorem blockFailed_pending (noise : Bool) (test : Nat) (s : State) :
    (blockFailed noise test s).pending = s.pending := by simp [blockFailed]

@[simp] theorem readGo_pending (e : Exec) (k done since : Nat) (s : State) :
    (readGo e k done since s).pending = s.pending := by
  fun_induction readGo
  case case3 h ih => simp [ih, rngGenerate_pending h]
  all_goals simp

@[simp] theorem readFrom_pending (e : Exec) (done since : Nat) (s : State) :
    (readFrom e done since s).pending = s.pending := by simp [readFrom]

@[simp] theorem rngRead_pending (e : Exec) (s : State) : (rngRead e s).pending = s.pending := by simp [rngRead]

@[simp] theorem drawHf_pending (e : Exec) (since : Nat) (s : State) : (drawHf e since s).pending = s.pending := by
  unfold drawHf
  split <;> simp

@[simp] theorem drawAgain_pending (l : LaneId) (s : State) : (drawAgain l s).pending = s.pending := by
  fun_cases drawAgain <;> simp

@[simp] theorem serveCall_pending (s : State) (x : DrawCall) : (serveCall s x).pending = s.pending := by
  unfold serveCall
  split
  · exact withWaiting_pending swapDrawAgain_pending _ _ _
  · exact withWaiting_pending (drawAgain_pending _) _ _ _

@[simp] theorem serveDraws_pending (s : State) : (serveDraws s).pending = s.pending := by simp [serveDraws]

@[simp] theorem execDrawTimeout_keepsPending (l : LaneId) (s : State) :
    KeepsPending s (execDrawTimeout l s) := keepsPending_withWaiting fun s => by
  (repeat' split) <;> simp

@[simp] theorem katFences_pending (t : Nat) (s : State) : (katFences t s).pending = s.pending := by simp [katFences]

@[simp] theorem restartSources_pending (m : Nat) (s : State) : (restartSources m s).pending = s.pending := by
  simp [restartSources]

/-! ## The lock cycle and RESET_TENANT -/

@[simp] theorem swapTable_pending (s : State) : (swapTable s).pending = s.pending := (rfl)
@[simp] theorem recheck_pending (s : State) : (recheck s).2.pending = s.pending := by simp [recheck]

@[simp] theorem startWithdrawal_pending (old : List Word) (s : State) :
    (startWithdrawal old s).pending = s.pending := by
  simp [startWithdrawal, foldl_pending fun s n => onTenant_pending n _ s]

@[simp] theorem lockRun_pending (p : Packet) (s : State) : (lockRun p s).2.2.pending = s.pending := by
  unfold lockRun
  split <;> simp

@[simp] theorem lockCycle_pending (e : Exec) (s : State) : (lockCycle e s).pending = s.pending := by simp [lockCycle]

@[simp] theorem execLockCycleDeferredStart_keepsPending (s : State) :
    KeepsPending s (execLockCycleDeferredStart s) := by
  unfold execLockCycleDeferredStart
  split <;> simp

@[simp] theorem withdraw_pending (w : Nat × Option Chain) (s : State) : (withdraw w s).pending = s.pending := by
  unfold withdraw
  split <;> simp

@[simp] theorem samWithdraw_pending (k : Nat) (s : State) : (samWithdraw k s).pending = s.pending := by
  unfold samWithdraw
  split <;> simp

@[simp] theorem resetTenant_pending (e : Exec) (s : State) : (resetTenant e s).pending = s.pending := by
  simp [resetTenant]

/-! ## Resets -/

@[simp] theorem surroundings_pending (s : State) : (surroundings s).pending = s.pending := (rfl)
@[simp] theorem resetPowerOn_pending (s : State) : (resetPowerOn s).pending = s.pending := (rfl)
@[simp] theorem resetWarm_pending (cause : Nat) (s : State) : (resetWarm cause s).pending = s.pending := (rfl)

@[simp] theorem resetWatchdog_pending (origin reason : Nat) (s : State) :
    (resetWatchdog origin reason s).pending = s.pending := (rfl)

@[simp] theorem powerOff_pending (s : State) : (powerOff s).pending = s.pending := (rfl)

theorem keepsPending_withinRating {vin : Nat} {s t : State} (hv : vin ≤ 72000) (ht : t.pending = s.pending) :
    KeepsPending s (withinRating vin t) := by
  rw [withinRating_of_le hv, keepsPending_next, ht]

@[simp] theorem setVin_pending (vin : Nat) (s : State) : (setVin vin s).pending = s.pending := (rfl)

theorem execPowerOnReset_keepsPending {vin : Nat} {s : State} (hv : vin ≤ 72000) :
    KeepsPending s (execPowerOnReset vin s) := keepsPending_withinRating hv (by simp)

@[simp] theorem execFwActivationReset_keepsPending (s : State) : KeepsPending s (execFwActivationReset s) := by
  unfold execFwActivationReset
  split <;> simp

@[simp] theorem coresStart_pending (s : State) : (coresStart s).pending = s.pending := (rfl)

/-! ## Start-up -/

@[simp] theorem abandonBank_pending (b : Bool) (s : State) : (abandonBank b s).pending = s.pending := by
  simp [abandonBank]

@[simp] theorem bootFrom_pending (b : Bool) (s : State) : (bootFrom b s).pending = s.pending := (rfl)
@[simp] theorem heldFences_pending (s : State) : (heldFences s).pending = s.pending := (rfl)
@[simp] theorem startClocks_pending (env : StartEnv) (s : State) : (startClocks env s).pending = s.pending := (rfl)
@[simp] theorem armComparator_pending (s : State) : (armComparator s).pending = s.pending := (rfl)

@[simp] theorem startFirmware_pending (env : StartEnv) (b : Bool) (s : State) :
    (startFirmware env b s).pending = s.pending := by simp [startFirmware]

@[simp] theorem startUp_pending (env : StartEnv) (s : State) : (startUp env s).pending = s.pending := by
  fun_cases startUp <;> simp +zetaDelta

theorem execStartUp_keepsPending {env : StartEnv} {s : State} (hv : env.vin ≤ 72000) :
    KeepsPending s (execStartUp env s) := keepsPending_withinRating hv (by simp)

/-! ## UNFENCE and the scrubber -/

@[simp] theorem unfenceDone_pending (named : List Nat) (s : State) : (unfenceDone named s).pending = s.pending := by
  simp [unfenceDone]

@[simp] theorem testNext_pending (op : TestOp) (s : State) : (testNext op s).pending = s.pending := by
  unfold testNext
  split <;> simp

@[simp] theorem unfence_pending (failing : List Nat) (rl : Nat) (ecc : EccRead) (e : Exec) (s : State) :
    (unfence failing rl ecc e s).pending = s.pending := by simp [unfence]

@[simp] theorem wordLost_pending (a : Nat) (s : State) : (wordLost a s).pending = s.pending := (rfl)

@[simp] theorem doubleError_pending (a : Nat) (s : State) : (doubleError a s).pending = s.pending := by
  simp [doubleError]

/-! ## Pins -/

@[simp] theorem gpioSet_pending (e : Exec) (s : State) : (gpioSet e s).pending = s.pending := by simp [gpioSet]

@[simp] theorem setPinLevel_pending (n : Nat) (level : Bool) (s : State) :
    (setPinLevel n level s).pending = s.pending := (rfl)

/-! ## Ends of frames, rises and falls -/

@[simp] theorem hfWindow_pending (s : State) : (hfWindow s).pending = s.pending := (rfl)

@[simp] theorem hfSentFrame_pending (f : HfFrame) (s : State) : (hfSentFrame f s).pending = s.pending := by
  simp [hfSentFrame]

@[simp] theorem hfFrameEnd_pending (s : State) : (hfFrameEnd s).pending = s.pending := by
  unfold hfFrameEnd
  split <;> simp

@[simp] theorem uhfFrameEnd_pending (s : State) : (uhfFrameEnd s).pending = s.pending := by
  unfold uhfFrameEnd
  split <;> simp

@[simp] theorem execReaderFrameEnd_keepsPending (c : Chain) (s : State) : KeepsPending s (execReaderFrameEnd c s) := by
  cases c
  · exact keepsPending_withWaiting hfFrameEnd_pending
  · simp [execReaderFrameEnd]

@[simp] theorem hfSilence_pending (s : State) : (hfSilence s).pending = s.pending := by simp [hfSilence]
@[simp] theorem uhfSilence_pending (s : State) : (uhfSilence s).pending = s.pending := by simp [uhfSilence]

@[simp] theorem execReplyWindowTimeout_keepsPending (c : Chain) (s : State) :
    KeepsPending s (execReplyWindowTimeout c s) := by
  unfold execReplyWindowTimeout
  cases c
  · dsimp only
    split
    · exact keepsPending_withWaiting hfSilence_pending
    · simp
  · simp

@[simp] theorem hfMeasured_pending (e : Exec) (vals : List Int) (body : List Byte) (s : State) :
    (hfMeasured e vals body s).pending = s.pending := by simp [hfMeasured]

@[simp] theorem hfRisen_pending (s : State) : (hfRisen s).pending = s.pending := by
  unfold hfRisen
  split <;> simp

@[simp] theorem fieldUp_pending (iAnt drive : Nat) (s : State) : (fieldUp iAnt drive s).pending = s.pending := by
  simp [fieldUp]

@[simp] theorem fieldSettled_pending (iAnt drive : Nat) (s : State) :
    (fieldSettled iAnt drive s).pending = s.pending := by simp [fieldSettled]

@[simp] theorem execFieldRiseDone_keepsPending (iAnt : Nat) (s : State) (drive : Nat) :
    KeepsPending s (execFieldRiseDone iAnt s drive) := keepsPending_withWaiting fun s => by
  split <;> simp

@[simp] theorem hfFellPacket_pending (s : State) : (hfFellPacket s).pending = s.pending := by
  fun_cases hfFellPacket <;> simp

@[simp] theorem releaseFell_pending (c : Chain) (s : State) : (releaseFell c s).pending = s.pending := by
  simp [releaseFell]

@[simp] theorem deselectFell_pending (l : LaneId) (s : State) : (deselectFell l s).pending = s.pending := by
  refine withWaiting_pending (fun s => ?_) _ _ _
  (repeat' split) <;> simp

@[simp] theorem hfFell_pending (s : State) : (hfFell s).pending = s.pending := by simp [hfFell]

@[simp] theorem execHfFieldFallDone_keepsPending (s : State) :
    KeepsPending s (execHfFieldFallDone s) := keepsPending_withWaiting fun s => by
  split <;> simp

@[simp] theorem holdBegins_pending (e : Exec) (s : State) : (holdBegins e s).pending = s.pending := (rfl)

@[simp] theorem uhfRisen_pending (s : State) : (uhfRisen s).pending = s.pending := by
  unfold uhfRisen
  split <;> simp

@[simp] theorem carrierUp_pending (fwd : Int) (rl : Nat) (s : State) : (carrierUp fwd rl s).pending = s.pending := by
  simp [carrierUp]

@[simp] theorem carrierSettled_pending (fwd : Int) (s : State) : (carrierSettled fwd s).pending = s.pending := by
  simp [carrierSettled]

@[simp] theorem execCarrierRiseDone_keepsPending (fwd : Int) (rl : Nat) (s : State) :
    KeepsPending s (execCarrierRiseDone fwd rl s) := keepsPending_withWaiting fun s => by
  split <;> simp

@[simp] theorem uhfFellPacket_pending (s : State) : (uhfFellPacket s).pending = s.pending := by
  fun_cases uhfFellPacket <;> simp

@[simp] theorem uhfFell_pending (why : FallFor) (s : State) : (uhfFell why s).pending = s.pending := by
  unfold uhfFell
  split <;> simp

@[simp] theorem execCarrierFallDone_keepsPending (s : State) :
    KeepsPending s (execCarrierFallDone s) := keepsPending_withWaiting fun s => by
  split <;> simp

/-! ## Supply, temperature and clocks -/

theorem execVinBelowThreshold_keepsPending {vin : Nat} {s : State} (hv : vin ≤ 72000) :
    KeepsPending s (execVinBelowThreshold vin s) := keepsPending_withinRating hv (by simp)

@[simp] theorem stopSam_pending (n st : Nat) (s : State) : (stopSam n st s).pending = s.pending := (rfl)

@[simp] theorem shedSam_pending (cls : List Nat) (st n : Nat) (s : State) :
    (shedSam cls st n s).pending = s.pending := by simp [shedSam]

@[simp] theorem shedLoad_pending (s : State) : (shedLoad s).pending = s.pending := by simp [shedLoad]

theorem execVinEarlyWarn_keepsPending {vin : Nat} {s : State} (hv : vin ≤ 72000) :
    KeepsPending s (execVinEarlyWarn vin s) := keepsPending_withinRating hv (by simp)

theorem execVinAboveHysteresis_keepsPending {vin : Nat} {s : State} (hv : vin ≤ 72000) :
    KeepsPending s (execVinAboveHysteresis vin s) := keepsPending_withinRating hv (by simp)

theorem execVinRecovered_keepsPending {vin : Nat} {s : State} (hv : vin ≤ 72000) :
    KeepsPending s (execVinRecovered vin s) := keepsPending_withinRating hv (by
  split <;> simp)

@[simp] theorem vpaLost_pending (cause detail : Nat) (s : State) : (vpaLost cause detail s).pending = s.pending := by
  simp [vpaLost]

@[simp] theorem thermWarn_pending (t : Int) (s : State) : (thermWarn t s).pending = s.pending := by simp [thermWarn]
@[simp] theorem thermTrip_pending (t : Int) (s : State) : (thermTrip t s).pending = s.pending := by simp [thermTrip]
@[simp] theorem thermRecal_pending (s : State) : (thermRecal s).pending = s.pending := by simp [thermRecal]
@[simp] theorem thermRead_pending (t : Int) (s : State) : (thermRead t s).pending = s.pending := by simp [thermRead]

@[simp] theorem countWindow_pending (s : State) (x : Clock × Nat) : (countWindow s x).pending = s.pending := by
  simp [countWindow]

@[simp] theorem markLost_pending (ks : List Clock) (s : State) : (markLost ks s).pending = s.pending := by
  simp [markLost]

@[simp] theorem clockFault_pending (k : Clock) (outcome : Nat) (s : State) :
    (clockFault k outcome s).pending = s.pending := by simp [clockFault]

@[simp] theorem clockFresh_pending (k : Clock) (s : State) : (clockFresh k s).pending = s.pending := (rfl)

@[simp] theorem lossActs_pending (s : State) (k : Clock) : (lossActs s k).pending = s.pending := by
  unfold lossActs
  split <;> simp

@[simp] theorem clockReset_pending (ks : List Clock) (s : State) : (clockReset ks s).pending = s.pending := (rfl)
@[simp] theorem xoReset_pending (s : State) : (xoReset s).pending = s.pending := by simp [xoReset]
@[simp] theorem xoLoss_pending (ks : List Clock) (s : State) : (xoLoss ks s).pending = s.pending := by simp [xoLoss]

@[simp] theorem clockLosses_pending (ks : List Clock) (s : State) : (clockLosses ks s).pending = s.pending := by
  simp [clockLosses]

@[simp] theorem vioCut_pending (p : Port) (cut : Option Nat) (s : State) : (vioCut p cut s).pending = s.pending := by
  fun_cases vioCut <;> simp +zetaDelta

/-! ## The SAM interfaces -/

@[simp] theorem samPowerEnd_pending (op : SamPowerOp) (status : Nat) (s : State) :
    (samPowerEnd op status s).pending = s.pending := by simp [samPowerEnd]

@[simp] theorem samActivate_pending (op : SamPowerOp) (s : State) : (samActivate op s).pending = s.pending := by
  simp [samActivate]

@[simp] theorem samWarm_pending (op : SamPowerOp) (s : State) : (samWarm op s).pending = s.pending := by simp [samWarm]

@[simp] theorem samAtrFailed_pending (op : SamPowerOp) (status : Nat) (s : State) :
    (samAtrFailed op status s).pending = s.pending := by
  unfold samAtrFailed
  split <;> simp

@[simp] theorem samPower_pending (e : Exec) (s : State) : (samPower e s).pending = s.pending := by simp [samPower]

@[simp] theorem samInUse_pending (op : SamPowerOp) (tenant status : Nat) (s : State) :
    (samInUse op tenant status s).pending = s.pending := by simp [samInUse]

@[simp] theorem samIfsFor_pending (op : SamPowerOp) (times : Nat) (s : State) :
    (samIfsFor op times s).pending = s.pending := by simp [samIfsFor]

@[simp] theorem samIfsError_pending (op : SamPowerOp) (tenant status : Nat) (s : State) :
    (samIfsError op tenant status s).pending = s.pending := by simp [samIfsError]

@[simp] theorem samIfsNext_pending (op : SamPowerOp) (tenant : Nat) (rx : SamRx) (s : State) :
    (samIfsNext op tenant rx s).pending = s.pending := by
  unfold samIfsNext
  split <;> simp

@[simp] theorem samReady_pending (op : SamPowerOp) (tenant : Nat) (atr : List Byte) (i : AtrInfo)
    (proto fi di : Nat) (s : State) :
    (samReady op tenant atr i proto fi di s).pending = s.pending := by simp [samReady]

@[simp] theorem samAtr_pending (op : SamPowerOp) (tenant : Nat) (atr : List Byte) (ppsOk : Bool) (s : State) :
    (samAtr op tenant atr ppsOk s).pending = s.pending := by
  fun_cases samAtr <;> simp

@[simp] theorem execSamAtrReceived_keepsPending (n : Nat) (atr : List Byte) (ppsOk : Bool) (s : State) :
    KeepsPending s (execSamAtrReceived n atr ppsOk s) := keepsPending_withWaiting fun s => by
  (repeat' split) <;> simp

@[simp] theorem execSamAtrTimeout_keepsPending (n : Nat) (s : State) :
    KeepsPending s (execSamAtrTimeout n s) := keepsPending_withWaiting fun s => by
  (repeat' split) <;> simp

@[simp] theorem execSamClassRetry_keepsPending (n : Nat) (s : State) :
    KeepsPending s (execSamClassRetry n s) := keepsPending_withWaiting fun s => by
  (repeat' split) <;> simp

@[simp] theorem samWaitFor_pending (op : SamXchgOp) (times : Nat) (s : State) :
    (samWaitFor op times s).pending = s.pending := by simp [samWaitFor]

@[simp] theorem samXchgEnd_pending (op : SamXchgOp) (status : Nat) (sw : Option (Byte × Byte)) (s : State) :
    (samXchgEnd op status sw s).pending = s.pending := by
  unfold samXchgEnd
  split <;> simp

@[simp] theorem samXchgFail_pending (op : SamXchgOp) (status : Nat) (s : State) :
    (samXchgFail op status s).pending = s.pending := by simp [samXchgFail]

@[simp] theorem t0Send_pending (op : SamXchgOp) (cmd : List Byte) (s : State) :
    (t0Send op cmd s).pending = s.pending := by simp [t0Send]

@[simp] theorem t0Status_pending (op : SamXchgOp) (sw1 sw2 : Byte) (s : State) :
    (t0Status op sw1 sw2 s).pending = s.pending := by simp [t0Status]

@[simp] theorem t0Next_pending (op : SamXchgOp) (rx : SamRx) (s : State) : (t0Next op rx s).pending = s.pending := by
  unfold t0Next
  cases rx <;> simp

@[simp] theorem t1Send_pending (op : SamXchgOp) (s : State) : (t1Send op s).pending = s.pending := by simp [t1Send]

@[simp] theorem t1Error_pending (op : SamXchgOp) (status : Nat) (s : State) :
    (t1Error op status s).pending = s.pending := by simp [t1Error]

@[simp] theorem t1Next_pending (op : SamXchgOp) (rx : SamRx) (s : State) : (t1Next op rx s).pending = s.pending := by
  fun_cases t1Next <;> simp

@[simp] theorem samExchange_pending (e : Exec) (s : State) : (samExchange e s).pending = s.pending := by
  simp [samExchange]

@[simp] theorem samRx_pending (n : Nat) (rx : SamRx) (e : Exec) (s : State) : (samRx n rx e s).pending = s.pending := by
  fun_cases samRx <;> simp

@[simp] theorem execSamRxBlock_keepsPending (n : Nat) (rx : SamRx) (s : State) (gap : Nat) :
    KeepsPending s (execSamRxBlock n rx s gap) := keepsPending_withWaiting fun s => by
  split <;> simp

@[simp] theorem execSamWaitTimeout_keepsPending (n : Nat) (s : State) :
    KeepsPending s (execSamWaitTimeout n s) := keepsPending_withWaiting fun s => by
  (repeat' split) <;> simp

@[simp] theorem samLeaseGive_pending (n tenant : Nat) (s : State) : (samLeaseGive n tenant s).pending = s.pending := by
  simp [samLeaseGive]

@[simp] theorem samLeaseForce_pending (n : Nat) (e : Exec) (s : State) : (samLeaseForce n e s).pending = s.pending := by
  unfold samLeaseForce
  split <;> simp

@[simp] theorem samRelease_pending (n : Nat) (s : State) : (samRelease n s).pending = s.pending := by simp [samRelease]
@[simp] theorem samLease_pending (e : Exec) (s : State) : (samLease e s).pending = s.pending := by simp [samLease]

@[simp] theorem samEvent_pending (n kind : Nat) (s : State) : (samEvent n kind s).pending = s.pending := by
  simp [samEvent]

@[simp] theorem cardInserted_pending (n : Nat) (s : State) : (cardInserted n s).pending = s.pending := by
  simp [cardInserted]

@[simp] theorem cardRemoved_pending (n : Nat) (s : State) : (cardRemoved n s).pending = s.pending := by
  simp [cardRemoved]

@[simp] theorem execSamOvercurrent_keepsPending (n : Nat) (s : State) : KeepsPending s (execSamOvercurrent n s) := by
  unfold execSamOvercurrent
  (repeat' split) <;> simp

/-! ## Yield points -/

@[simp] theorem dropRise_pending (s : State) : (dropRise s).pending = s.pending := by simp [dropRise]
@[simp] theorem dropHold_pending (s : State) : (dropHold s).pending = s.pending := by simp [dropHold]

@[simp] theorem stopEffect_pending (l : LaneId) (st : Nat) (e : Exec) (s : State) :
    (stopEffect l st e s).pending = s.pending := by
  unfold stopEffect
  split <;> simp

@[simp] theorem dropHeld_pending (l : LaneId) (s : State) : (dropHeld l s).pending = s.pending := by
  unfold dropHeld
  split <;> simp

@[simp] theorem stopHere_pending (l : LaneId) (st : Nat) (e : Exec) (s : State) :
    (stopHere l st e s).pending = s.pending := by simp [stopHere]

@[simp] theorem releaseAgain_pending (e : Exec) (s : State) : (releaseAgain e s).pending = s.pending := by
  simp [releaseAgain]

@[simp] theorem preemptAgain_pending (e : Exec) (s : State) : (preemptAgain e s).pending = s.pending := by
  simp [preemptAgain]

@[simp] theorem waitAgain_pending (l : LaneId) (e : Exec) (s : State) : (waitAgain l e s).pending = s.pending := by
  unfold waitAgain
  split <;> simp

@[simp] theorem yieldPoint_pending (l : LaneId) (e : Exec) (s : State) : (yieldPoint l e s).pending = s.pending := by
  fun_cases yieldPoint <;> simp

@[simp] theorem execYieldPoint_keepsPending (l : LaneId) (s : State) : KeepsPending s (execYieldPoint l s) := by
  unfold execYieldPoint
  split <;> simp

@[simp] theorem releaseHeld_pending (l : LaneId) (s : State) : (releaseHeld l s).pending = s.pending := by
  unfold releaseHeld
  split <;> simp

@[simp] theorem resume_pending (l : LaneId) (s0 : State) : (resume l s0).pending = s0.pending := by
  fun_cases resume <;> simp +zetaDelta

@[simp] theorem execPacketAdmit_keepsPending (l : LaneId) (s : State) : KeepsPending s (execPacketAdmit l s) := by
  unfold execPacketAdmit
  (repeat' split) <;> simp

/-! ## Low-power states and wakes -/

@[simp] theorem stopSuspended_pending (l : LaneId) (st : Nat) (s : State) :
    (stopSuspended l st s).pending = s.pending := by simp [stopSuspended]

@[simp] theorem stopChains_pending (s : State) : (stopChains s).pending = s.pending := by simp [stopChains]

@[simp] theorem setPower_pending (e : Exec) (s : State) : (setPower e s).pending = s.pending := by
  fun_cases setPower <;> simp

@[simp] theorem undoGrant_pending (c : Chain) (s : State) : (undoGrant c s).pending = s.pending := by simp [undoGrant]

@[simp] theorem chainsDown_pending (s : State) : (chainsDown s).pending = s.pending := by
  simp only [chainsDown]
  split <;> simp

@[simp] theorem abandonStall_pending (s : State) : (abandonStall s).pending = s.pending := by
  unfold abandonStall
  split <;> simp

@[simp] theorem wakeEvent_pending (w : WakeSrc) (s : State) : (wakeEvent w s).pending = s.pending := by
  unfold wakeEvent
  split <;> simp

@[simp] theorem towSleep_pending (s : State) : (towSleep s).pending = s.pending := (rfl)
@[simp] theorem banksOff_pending (s : State) : (banksOff s).pending = s.pending := (rfl)

@[simp] theorem asleep_pending (t : PowerState) (ms : Nat) (s : State) : (asleep t ms s).pending = s.pending := by
  simp [asleep]

@[simp] theorem wakeReset_pending (s : State) : (wakeReset s).pending = s.pending := (rfl)

@[simp] theorem lateWakes_pending (ws : List WakeSrc) (s : State) : (lateWakes ws s).pending = s.pending := by
  simp [lateWakes]

@[simp] theorem enterLowPower_pending (t : PowerState) (ms : Nat) (s : State) :
    (enterLowPower t ms s).pending = s.pending := by simp [enterLowPower]

@[simp] theorem execLowPowerEntry_keepsPending (s : State) : KeepsPending s (execLowPowerEntry s) := by
  unfold execLowPowerEntry
  (repeat' split) <;> simp

@[simp] theorem wakeBy_pending (w : WakeSrc) (awake : State → State) (s : State) (h : ∀ s,
    (awake s).pending = s.pending) :
    (wakeBy w awake s).pending = s.pending := by
  fun_cases wakeBy <;> simp +zetaDelta [*]

@[simp] theorem wakeLevel_pending (high : Bool) (s : State) : (wakeLevel high s).pending = s.pending := by
  simp [wakeLevel]

@[simp] theorem rngWake_pending (s : State) : (rngWake s).pending = s.pending := (rfl)
@[simp] theorem chainWake_pending (c : Chain) (s : State) : (chainWake c s).pending = s.pending := by simp [chainWake]
@[simp] theorem wakeUp_pending (s : State) : (wakeUp s).pending = s.pending := by simp [wakeUp]

/-! ## Every row -/


/-- The supply that a row brings, none for a row that brings none. -/
def supplyOf : Instr → Option Nat
  | .powerOnReset vin | .vinBelowThreshold vin | .vinEarlyWarn vin | .vinAboveHysteresis vin
  | .vinRecovered vin => some vin
  | .startUp env => some env.vin
  | _ => none

/-- The row brings a supply above the absolute maximum. -/
def BeyondRating (c : Instr) : Prop := ∃ v, supplyOf c = some v ∧ 72000 < v

theorem beyondRating_iff {c : Instr} : BeyondRating c ↔
    (∃ v, (c = .powerOnReset v ∨ c = .vinBelowThreshold v ∨ c = .vinEarlyWarn v ∨ c = .vinAboveHysteresis v ∨
      c = .vinRecovered v) ∧ 72000 < v) ∨ (∃ env, c = .startUp env ∧ 72000 < env.vin) := by
  cases c <;> simp [BeyondRating, supplyOf]

/-- A supply above the absolute maximum stops the part. -/
theorem exec_of_beyondRating {c : Instr} (h : BeyondRating c) (s : State) : exec c s = .fault .beyondRating := by
  rcases beyondRating_iff.1 h with ⟨v, rfl | rfl | rfl | rfl | rfl, hv⟩ | ⟨env, rfl, hv⟩ <;>
    exact withinRating_of_lt hv _

/-- Every other row has a next state, with the queue as it was: a row that brings a supply by `withinRating`, one with
cases of its own by its rule above, and each of the rest is one call of a shared operation. -/
theorem exec_keepsPending {c : Instr} (h : ¬ BeyondRating c) (s : State) : KeepsPending s (exec c s) := by
  have hwithin : ∀ v, supplyOf c = some v → v ≤ 72000 := fun v hs => not_lt.1 fun hv => h ⟨v, hs, hv⟩
  unfold exec
  cases c
  case powerOnReset vin => exact execPowerOnReset_keepsPending (hwithin vin rfl)
  case startUp env => exact execStartUp_keepsPending (hwithin env.vin rfl)
  case vinBelowThreshold vin => exact execVinBelowThreshold_keepsPending (hwithin vin rfl)
  case vinEarlyWarn vin => exact execVinEarlyWarn_keepsPending (hwithin vin rfl)
  case vinAboveHysteresis vin => exact execVinAboveHysteresis_keepsPending (hwithin vin rfl)
  case vinRecovered vin => exact execVinRecovered_keepsPending (hwithin vin rfl)
  all_goals simp [
    execDeadlineExpiry, execHfPoll, execHfActivate, execHfTransceive, execHf15693Exchange, execHfIsodepExchange,
    execHfDeselect, execHfRxFrame, execLeaseGrant, execLeaseAcquire, execLeaseRelease, execPreemptLease,
    execLeaseHoldExpiry, execHfField, execHfPllLocked, execHfPllUnlock, execDriverCurrentLimit, execPowerLoopLimit,
    execMismatchMeasurement, execHfTune, execHfLpcdArm, execLpcdMeasurement, execUhfCarrier, execUhfSetChannel,
    execSynthUnlock, execSynthLocked, execSynthRecal, execDwellSoftPoint, execRestEnd, execChannelAvailable,
    execLbtBackoffEnd, execRlMeasurement, execHardReflection, execPaCurrentLimit, execUhfSelect, execUhfInventory,
    execUhfAccess, execUhfRxFrame, execHop, execDwellLimit, execSpectrumCheck, execCaptureSamples,
    execCaptureTriggered, execNop, execGetInfo, execGetStatus, execGetFences, execLeaseQuery, execSetConfig,
    execGetConfig, execSetWeights, execReadCounters, execGetLog, execStageProtection, execCharterRead,
    execCharterWrite, execCharterSeal, execCharterBreak, execCalStore, execCalLoad, execCalStatus,
    execTowpathConfig, execKeyStage, execKeyCommit, execKeyQuery, execKeyDestroy, execCipherAes, execCipherCmac,
    execCoalesceTimeout, execArbitration, execDelivery, execReservedAccess, execPortResetSequence, execPortReset,
    execPaCfgWrite, execPortErrRead, execTimeLoRead, execCmdProdWrite, execRplConsWrite, execEvtConsWrite,
    execRegisterWrite, execRecStage, execRecVerify, execRecActivate, execIcDoorbellWrite, execSetclrSetPending,
    execSetclrClearPending, execSetclrSetMask, execSetclrClearMask, execIcPendWrite, execIcMaskWrite,
    execIcSrcWrite, execIcSyncRead, execIcStatusRead, execIcEvtdropRead, execIcClaimRead, execIcEoiWrite,
    execIcTstatRead, execRngDataRead, execRngStatRead, execFwStageBlock, execFwVerify, execFwActivate,
    execFwConfirmRetry, execEmuConfigure, execEmuArm, execEmuWtxTimer, execEmuRespond, execEmuDisarm, execPeerStart,
    execPeerExchange, execPeerRoleSwap, execPeerStop, execRngBlockDone, execRngRead, execReseed, execRngKat,
    execRngRestart, execLockCycle, execProtectionWithdrawal, execResetTenant, execPowerGoodLoss, execPinReset,
    execUvloFall, execCrystalStartTimeout, execWatchdogReset, execWatchdogWarning, execStormCountClear,
    execFenceEntry, execUnfence, execBasinScrub, execGpioSet, execGpioEdge, execVpaFault, execHoldupUpdate,
    execCholdMeasured, execThermalSample, execThermalReadingTimeout, execClockMonitorWindow, execAonCrystalSelect,
    execHfDriverClockStop, execSpreadTurningPoint, execVioPresent, execVioAbsent, execSamPower, execSamExchange,
    execSamLease, execSamCardDetect, execSamCurrentLimitActive, execSetPowerState, execWakeAsserted,
    execWakeReleased, execFdetAsserted, execFdetReleased, execWakeTimerExpiry, execRetainPortWake, execLowPowerWake]

/-- Settles O7: a row whose supply is above 72 V faults (that all supplies up to it serve is log 124's reading), and
every other row has a next state with its queue. -/
theorem onlyBeyondRatingStops : Obligations.OnlyBeyondRatingStops := by
  unfold Obligations.OnlyBeyondRatingStops
  refine ⟨fun c s => ?_, fun c s t ht => ?_⟩
  · rw [← beyondRating_iff]
    by_cases hc : BeyondRating c
    · rw [exec_of_beyondRating hc]
      exact ⟨nofun, iff_of_true ⟨_, rfl⟩ hc⟩
    · obtain ⟨u, hu, -⟩ := exec_keepsPending hc s
      rw [hu]
      exact ⟨nofun, iff_of_false nofun hc⟩
  · have hc : ¬ BeyondRating c := fun hc => by simp [exec_of_beyondRating hc] at ht
    obtain ⟨u, hu, hpending⟩ := exec_keepsPending hc s
    rw [hu] at ht
    rwa [← Host.Outcome.next.inj ht]

end Sys2Proof.Machine

/-! # What a step on an empty queue takes of time

A tick is a chain of operations, most of which commands share. That the shared ones leave the queue is shown above; one
rule for each says here, in the order of the model, that it leaves the time. Each part that only the tick or start-up
has comes after them, with one rule for both. -/

namespace Sys2Proof.Machine

open Sys2Proof

@[simp] theorem time_ite (p : Prop) [Decidable p] (s t : State) :
    (if p then s else t).time = if p then s.time else t.time := apply_ite State.time p s t

@[simp] theorem foldl_time {α : Type} {f : State → α → State} (h : ∀ s x, (f s x).time = s.time) (l : List α)
    (s : State) : (l.foldl f s).time = s.time := foldl_keeps State.time h l s

/-! ## Doorbells and replies -/

@[simp] theorem State.useFree_time (s : State) : (State.useFree s).time = s.time := (rfl)

@[simp] theorem replyWith_time (p : Packet) (start : Nat) (tow susp : Bool) (clamps : List Clamp)
    (status0 : Nat) (body : List Byte) (own : Option Nat) (s : State) :
    (replyWith p start tow susp clamps status0 body own s).time = s.time := by
  simp only [replyWith]
  (repeat' split) <;> simp

@[simp] theorem answer_time (p : Packet) (status : Nat) (s : State) : (answer p status s).time = s.time := by
  simp [answer]

@[simp] theorem replyExec_time (e : Exec) (status : Nat) (body : List Byte) (own : Option Nat) (s : State) :
    (replyExec e status body own s).time = s.time := by simp [replyExec]

/-! ## Port errors -/

@[simp] theorem portErrFlag_time (p : Port) (code addr : Nat) (s : State) :
    (portErrFlag p code addr s).time = s.time := by simp [portErrFlag]

@[simp] theorem portErrEvent_time (p : Port) (code addr : Nat) (s : State) :
    (portErrEvent p code addr s).time = s.time := by simp [portErrEvent]

/-! ## Field, carrier and power budget -/

@[simp] theorem setHfGrant_time (mw : Nat) (s : State) : (setHfGrant mw s).time = s.time := (rfl)
@[simp] theorem setUhfGrant_time (mw : Nat) (s : State) : (setUhfGrant mw s).time = s.time := (rfl)
@[simp] theorem askHfGrant_time (mw : Nat) (s : State) : (askHfGrant mw s).time = s.time := (rfl)
@[simp] theorem askUhfGrant_time (mw : Nat) (s : State) : (askUhfGrant mw s).time = s.time := (rfl)
@[simp] theorem setField_time (id : Nat) (v : Int) (s : State) : (setField id v s).time = s.time := (rfl)
@[simp] theorem hfIdle_time (s : State) : (hfIdle s).time = s.time := by simp [hfIdle]
@[simp] theorem emuOff_time (cause : Nat) (s : State) : (emuOff cause s).time = s.time := by simp [emuOff]
@[simp] theorem peerOff_time (s : State) : (peerOff s).time = s.time := by simp [peerOff]

@[simp] theorem peerLeave_time (s : State) : (peerLeave s).time = s.time := by
  unfold peerLeave
  split <;> simp

@[simp] theorem addDue_time (c : Chain) (ks : List StepKind) (s : State) : (addDue c ks s).time = s.time :=
  (rfl)

@[simp] theorem setCodes_time (cs cp : Nat) (s : State) : (setCodes cs cp s).time = s.time := by simp [setCodes]
@[simp] theorem putCodes_time (cs cp : Nat) (s : State) : (putCodes cs cp s).time = s.time := by simp [putCodes]

@[simp] theorem undoTuner_time (s : State) : (undoTuner s).time = s.time := by
  unfold undoTuner
  split <;> simp

@[simp] theorem towStop_time (c : Chain) (s : State) : (towStop c s).time = s.time := by simp [towStop]

@[simp] theorem abandonRetune_time (s : State) : (abandonRetune s).time = s.time := by
  unfold abandonRetune
  split <;> simp

@[simp] theorem cutCapture_time (c : Chain) (s : State) : (cutCapture c s).time = s.time := by
  unfold cutCapture
  split <;> simp

@[simp] theorem hfFall_time (cause : Nat) (s : State) : (hfFall cause s).time = s.time := by simp [hfFall]
@[simp] theorem hfApplyStep_time (k : Nat) (s : State) : (hfApplyStep k s).time = s.time := (rfl)
@[simp] theorem lpcdFromBank_time (c : HfCal) (s : State) : (lpcdFromBank c s).time = s.time := (rfl)
@[simp] theorem dropVerdicts_time (c : Chain) (s : State) : (dropVerdicts c s).time = s.time := (rfl)

@[simp] theorem hfTakeValues_time (s : State) : (hfTakeValues s).time = s.time := by
  simp only [hfTakeValues]
  (repeat' split) <;> simp

@[simp] theorem hfBoundary_time (s : State) : (hfBoundary s).time = s.time := by
  fun_cases hfBoundary <;> simp +zetaDelta

@[simp] theorem hfDriverCut_time (s : State) : (hfDriverCut s).time = s.time := by simp [hfDriverCut]
@[simp] theorem giveUpRise_time (s : State) : (giveUpRise s).time = s.time := (rfl)

@[simp] theorem uhfFall_time (why : FallFor) (s : State) : (uhfFall why s).time = s.time := by
  unfold uhfFall
  split <;> simp

@[simp] theorem uhfTakeValues_time (s : State) : (uhfTakeValues s).time = s.time := by
  fun_cases uhfTakeValues <;> simp +zetaDelta

@[simp] theorem uhfApplyPower_time (p : Nat) (s : State) : (uhfApplyPower p s).time = s.time := (rfl)

@[simp] theorem uhfBoundary_time (s : State) : (uhfBoundary s).time = s.time := by
  simp only [uhfBoundary]
  split <;> simp

@[simp] theorem onLights_time (c : Chain) (f : Exec → Exec) (s : State) : (onLights c f s).time = s.time := by
  simp [onLights]

@[simp] theorem riseClamp_time (want applied : Nat) (s : State) :
    (riseClamp want applied s).time = s.time := by simp [riseClamp]

@[simp] theorem lightFails_time (c : Chain) (want : Nat) (s : State) :
    (lightFails c want s).time = s.time := by simp [lightFails]

@[simp] theorem lowerHf_time (k : Nat) (s : State) : (lowerHf k s).time = s.time := by simp [lowerHf]
@[simp] theorem reduceHf_time (s : State) : (reduceHf s).time = s.time := by simp [reduceHf]
@[simp] theorem lowerUhf_time (p : Nat) (s : State) : (lowerUhf p s).time = s.time := by simp [lowerUhf]
@[simp] theorem reduceUhf_time (s : State) : (reduceUhf s).time = s.time := by simp [reduceUhf]

@[simp] theorem refit_time (s : State) : (refit s).time = s.time := by
  fun_cases refit <;> simp

@[simp] theorem uhfYields_time (s : State) : (uhfYields s).time = s.time := by simp [uhfYields]

/-! ## What ends a lease, a packet or a phase -/

@[simp] theorem chainUsersOff_time (c : Chain) (s : State) : (chainUsersOff c s).time = s.time := by
  unfold chainUsersOff
  split <;> simp

@[simp] theorem startHandover_time (c : Chain) (afterReset : Bool) (s : State) :
    (startHandover c afterReset s).time = s.time := by
  unfold startHandover
  split <;> simp

@[simp] theorem revokeLease_time (c : Chain) (reason : Nat) (s : State) : (revokeLease c reason s).time = s.time := by
  unfold revokeLease
  split <;> simp

@[simp] theorem preemptDone_time (c : Chain) (s : State) : (preemptDone c s).time = s.time := by
  unfold preemptDone
  split <;> simp

@[simp] theorem leaseAtPacketEnd_time (c : Chain) (s : State) : (leaseAtPacketEnd c s).time = s.time := by
  fun_cases leaseAtPacketEnd <;> simp

@[simp] theorem finish_time (l : LaneId) (status : Nat) (body : List Byte) (own : Option Nat) (s : State) :
    (finish l status body own s).time = s.time := by
  unfold finish
  split <;> simp

theorem withWaiting_time {f : State → State} (h : ∀ s, (f s).time = s.time) (l : LaneId) (who : Exec → Bool)
    (s : State) : (withWaiting l who f s).time = s.time := by
  unfold withWaiting
  (repeat' split) <;> simp [h]

@[simp] theorem setPhase_time (l : LaneId) (ph : Phase) (s : State) : (setPhase l ph s).time = s.time := by
  simp [setPhase]

/-! ## Fence entry -/

@[simp] theorem stopOnUnit_time (u status : Nat) (s : State) : (stopOnUnit u status s).time = s.time := (rfl)
@[simp] theorem samDown_time (n : Nat) (s : State) : (samDown n s).time = s.time := by simp [samDown]

@[simp] theorem samOff_time (n : Nat) (s : State) : (samOff n s).time = s.time := by
  unfold samOff
  split <;> simp

@[simp] theorem makeSafe_time (u : Nat) (s : State) : (makeSafe u s).time = s.time := by
  unfold makeSafe
  split <;> simp

@[simp] theorem testHit_time (u : Nat) (s : State) : (testHit u s).time = s.time := by simp [testHit]

@[simp] theorem fenceUnit_time (u cause detail : Nat) (s : State) :
    (fenceUnit u cause detail s).time = s.time := by simp [fenceUnit]

/-! ## The expander -/

@[simp] theorem nextBlock_time (noise : Bool) (delay : Nat) (s : State) :
    (nextBlock noise delay s).time = s.time := (rfl)

@[simp] theorem rngReseed_time (s : State) : (rngReseed s).time = s.time := by simp [rngReseed]
@[simp] theorem rngBefore_time (pr : Bool) (s : State) : (rngBefore pr s).time = s.time := by simp [rngBefore]

theorem rngGenerate_time {pr : Bool} {n : Nat} {ws : List Half} {s t : State}
    (h : rngGenerate pr n s = some (ws, t)) : t.time = s.time := by
  unfold rngGenerate at h
  split at h
  · obtain ⟨-, rfl⟩ := Prod.mk.inj (Option.some.inj h)
    simp
  · cases h

@[simp] theorem rngWait_time (s : State) : (rngWait s).time = s.time := by simp [rngWait]

@[simp] theorem rngRefillPort_time (s : State) : (rngRefillPort s).time = s.time := by
  fun_cases rngRefillPort
  case case1 => simp
  case case2 h => simp [rngGenerate_time h]
  case case3 => rfl

theorem rngTakeWord_time {w : Word} {s t : State} (h : rngTakeWord s = some (w, t)) : t.time = s.time := by
  unfold rngTakeWord at h
  dsimp only at h
  split at h
  · cases h
  · split at h
    · cases h
    · obtain ⟨-, rfl⟩ := Prod.mk.inj (Option.some.inj h)
      simp

@[simp] theorem rngStat_time (p : Port) (s : State) : (rngStat p s).2.time = s.time := by simp [rngStat]
@[simp] theorem rngFence_time (noise : Bool) (s : State) : (rngFence noise s).time = s.time := by simp [rngFence]

/-! ## Discards and tenant resets -/

@[simp] theorem advanceCons_time (n : Nat) (s : State) : (advanceCons n s).time = s.time := (rfl)

@[simp] theorem discardQueued_time (n status : Nat) (s : State) :
    (discardQueued n status s).time = s.time := by simp [discardQueued]

@[simp] theorem discardRing_time (n status k : Nat) (s : State) : (discardRing n status k s).time = s.time := by
  fun_induction discardRing <;> simp [*]

@[simp] theorem resetDone_time (n : Nat) (s : State) : (resetDone n s).time = s.time := by simp [resetDone]
@[simp] theorem drainTenant_time (n : Nat) (s : State) : (drainTenant n s).time = s.time := by simp [drainTenant]
@[simp] theorem detachJobs_time (l : LaneId) (s : State) : (detachJobs l s).time = s.time := (rfl)
@[simp] theorem stopSense_time (s : State) : (stopSense s).time = s.time := by simp [stopSense]

@[simp] theorem abortHeld_time (l : LaneId) (e : Exec) (s : State) : (abortHeld l e s).time = s.time := by
  unfold abortHeld
  split <;> simp

@[simp] theorem abortEffect_time (l : LaneId) (e : Exec) (s : State) : (abortEffect l e s).time = s.time := by
  fun_cases abortEffect <;> simp +zetaDelta

@[simp] theorem abortLane_time (l : LaneId) (who : Exec → Bool) (status : Nat) (s : State) :
    (abortLane l who status s).time = s.time := by simp [abortLane]

@[simp] theorem chainFree_time (c : Chain) (s : State) : (chainFree c s).time = s.time := by
  unfold chainFree
  split <;> simp

@[simp] theorem dropWaiters_time (who : Waiter → Bool) (c : Chain) (s : State) :
    (dropWaiters who c s).time = s.time := by simp [dropWaiters]

@[simp] theorem withdrawWaits_time (c : Chain) (n status : Nat) (s : State) :
    (withdrawWaits c n status s).time = s.time := by simp [withdrawWaits]

@[simp] theorem releaseSams_time (n : Nat) (s : State) : (releaseSams n s).time = s.time := by simp [releaseSams]

@[simp] theorem dropLockWaits_time (n status : Nat) (s : State) :
    (dropLockWaits n status s).time = s.time := by simp [dropLockWaits]

@[simp] theorem tenantReset_time (n : Nat) (who : Exec → Bool) (s : State) : (tenantReset n who s).time = s.time := by
  simp only [tenantReset]
  (repeat' split) <;> simp

/-! ## Configuration values -/

@[simp] theorem dropEstimates_time (c : Chain) (s : State) : (dropEstimates c s).time = s.time := (rfl)

@[simp] theorem newGain_time (c : Chain) (k : Nat) (s : State) : (newGain c k s).time = s.time := by
  unfold newGain
  split <;> simp

@[simp] theorem manualGain_time (s : State) : (manualGain s).time = s.time := by simp [manualGain]
@[simp] theorem hfNewStep_time (k : Nat) (s : State) : (hfNewStep k s).time = s.time := by simp [hfNewStep]
@[simp] theorem uhfNewPower_time (p : Nat) (s : State) : (uhfNewPower p s).time = s.time := by simp [uhfNewPower]
@[simp] theorem uhfNewOutput_time (s : State) : (uhfNewOutput s).time = s.time := by simp [uhfNewOutput]
@[simp] theorem fieldEffect_time (id : Nat) (s : State) : (fieldEffect id s).time = s.time := by simp [fieldEffect]
@[simp] theorem pinOwner_time (id : Nat) (v : Int) (s : State) : (pinOwner id v s).time = s.time := by simp [pinOwner]

@[simp] theorem applyField_time (id : Nat) (v : Int) (s : State) : (applyField id v s).time = s.time := by
  simp [applyField]

@[simp] theorem recheckBlf_time (id : Nat) (s : State) : (recheckBlf id s).1.time = s.time := by
  fun_cases recheckBlf <;> simp

/-! ## Frames on the air -/

@[simp] theorem requestCheck_time (c : Chain) (s : State) : (requestCheck c s).time = s.time := by simp [requestCheck]

@[simp] theorem stopLane_time (l : LaneId) (status : Nat) (s : State) :
    (stopLane l status s).time = s.time := by simp [stopLane]

@[simp] theorem countRefused_time (c : Chain) (s : State) : (countRefused c s).time = s.time := by simp [countRefused]

@[simp] theorem hfStart_time (s : State) : (hfStart s).time = s.time := by
  unfold hfStart
  split <;> simp

@[simp] theorem stepYields_time (c : Chain) (s : State) : (stepYields c s).time = s.time := by
  unfold stepYields
  split <;> simp

@[simp] theorem hfRelease_time (s0 : State) : (hfRelease s0).time = s0.time := by simp [hfRelease]
@[simp] theorem setBandwidth_time (s : State) : (setBandwidth s).time = s.time := by simp [setBandwidth]

@[simp] theorem queryLink_time (f : UhfFrame) (s : State) : (queryLink f s).2.time = s.time := by
  unfold queryLink
  split <;> simp

@[simp] theorem uhfStart_time (s : State) : (uhfStart s).time = s.time := by
  unfold uhfStart
  split <;> simp

@[simp] theorem uhfRelease_time (s0 : State) : (uhfRelease s0).time = s0.time := by simp [uhfRelease]

/-! ## Leases of the chains -/

@[simp] theorem expireWaits_time (c : Chain) (s : State) : (expireWaits c s).time = s.time := by
  refine (foldl_time (fun s w => ?_) _ _).trans (by simp)
  split <;> simp

@[simp] theorem setDivider_time (s : State) : (setDivider s).time = s.time := by
  unfold setDivider
  split <;> simp

@[simp] theorem setPll_time (c : Chain) (p : Pll) (s : State) : (setPll c p s).time = s.time := by
  unfold setPll
  split <;> simp

@[simp] theorem armClocks_time (c : Chain) (s : State) : (armClocks c s).time = s.time := by simp [armClocks]

@[simp] theorem settleRadio_time (c : Chain) (s0 : State) : (settleRadio c s0).time = s0.time := by
  unfold settleRadio
  split <;> simp

@[simp] theorem grantTo_time (c : Chain) (w : Waiter) (s : State) : (grantTo c w s).time = s.time := by
  fun_cases grantTo <;> simp +zetaDelta

@[simp] theorem grantLocked_time (c : Chain) (s : State) : (grantLocked c s).time = s.time := by
  fun_cases grantLocked <;> simp +zetaDelta

/-! ## The HF chain -/

@[simp] theorem powerApply_time (l : LaneId) (id v : Nat) (c : Checked) (s : State) :
    (powerApply l id v c s).time = s.time := by simp [powerApply]

@[simp] theorem hfRise_time (k wait : Nat) (s : State) : (hfRise k wait s).time = s.time := by simp [hfRise]

@[simp] theorem tuneApply_time (e : Exec) (body : List Byte) (s : State) :
    (tuneApply e body s).time = s.time := by simp [tuneApply]

/-! ## The UHF chain -/

@[simp] theorem newPerm_time (s : State) : (newPerm s).time = s.time := (rfl)

@[simp] theorem pickNextFrom_time (avoid : Option Nat) (s : State) : (pickNextFrom avoid s).2.time = s.time := by
  fun_cases pickNextFrom <;> simp +zetaDelta

@[simp] theorem pickNext_time (s : State) : (pickNext s).2.time = s.time := by simp [pickNext]

theorem pickNext_eq_time {s t : State} {o : Option Nat} (h : pickNext s = (o, t)) : t.time = s.time := by
  rw [← pickNext_time s, h]

@[simp] theorem pickFirst_time (s : State) : (pickFirst s).2.time = s.time := by simp [pickFirst]

theorem pickFirst_eq_time {s t : State} {o : Option Nat} (h : pickFirst s = (o, t)) : t.time = s.time := by
  rw [← pickFirst_time s, h]

@[simp] theorem setIndex_time (c : Nat) (s : State) : (setIndex c s).time = s.time := by simp [setIndex]
@[simp] theorem waitRise_time (w : RiseWait) (s : State) : (waitRise w s).time = s.time := (rfl)
@[simp] theorem uhfRise_time (s : State) : (uhfRise s).time = s.time := by simp [uhfRise]
@[simp] theorem uhfCheckRise_time (s : State) : (uhfCheckRise s).time = s.time := by simp [uhfCheckRise]

@[simp] theorem uhfSense_time (s : State) : (uhfSense s).time = s.time := by
  fun_cases uhfSense <;> simp

@[simp] theorem synthRecal_time (ch band : Nat) (s : State) : (synthRecal ch band s).time = s.time := by
  simp [synthRecal]

@[simp] theorem hopRecal_time (ch : Nat) (s : State) : (hopRecal ch s).time = s.time := by simp [hopRecal]

@[simp] theorem changeChannel_time (c : Nat) (s : State) : (changeChannel c s).time = s.time := by
  simp [changeChannel]

@[simp] theorem hopKnown_time (c : Nat) (s : State) : (hopKnown c s).time = s.time := by simp [hopKnown]
@[simp] theorem restFrom_time (s : State) : (restFrom s).time = s.time := by simp [restFrom]

@[simp] theorem uhfTryRise_time (s : State) : (uhfTryRise s).time = s.time := by
  fun_cases uhfTryRise
  case case6 h => simp [pickNext_eq_time h]
  case case7 h => simp [pickNext_eq_time h]
  all_goals simp +zetaDelta

@[simp] theorem resetChannel_time (s : State) : (resetChannel s).time = s.time := by
  fun_cases resetChannel
  case case3 h => simp +zetaDelta [pickFirst_eq_time h]
  case case4 h => simp +zetaDelta [pickFirst_eq_time h]
  all_goals simp +zetaDelta

@[simp] theorem recalTick_time (s : State) : (recalTick s).time = s.time := (rfl)

/-! ## The UHF reader -/

@[simp] theorem invFinish_time (op : InvOp) (cause : Nat) (s : State) :
    (invFinish op cause s).time = s.time := by simp [invFinish]

@[simp] theorem limitTick_time (s : State) : (limitTick s).time = s.time := by
  fun_cases limitTick <;> simp

/-! ## A peer -/

@[simp] theorem onPeerRun_time (f : PeerRun → PeerRun) (s : State) : (onPeerRun f s).time = s.time := (rfl)
@[simp] theorem peerQuit_time (s : State) : (peerQuit s).time = s.time := by simp [peerQuit]

/-! ## The NV queue -/

@[simp] theorem jobBegin_time (j : NvJob) (s : State) : (jobBegin j s).time = s.time := (rfl)

@[simp] theorem takeJob_time (j : NvJob) (s : State) : (takeJob j s).time = s.time := by
  unfold takeJob
  split <;> simp

theorem nvSubmit_time {j : NvJob} {s t : State} (h : nvSubmit j s = some t) : t.time = s.time := by
  unfold nvSubmit at h
  split at h
  · obtain rfl := Option.some.inj h
    simp
  · split at h
    · obtain rfl := Option.some.inj h
      simp
    · split at h
      · obtain rfl := Option.some.inj h
        simp
      · cases h

@[simp] theorem onBank_time (b : Bool) (f : FwBank → FwBank) (s : State) : (onBank b f s).time = s.time :=
  (rfl)

@[simp] theorem nvBadChunk_time (a : Nat) (s : State) : (nvBadChunk a s).time = s.time := by simp [nvBadChunk]

@[simp] theorem eccRead_time (lo hi : Nat) (r : EccRead) (s : State) : (eccRead lo hi r s).time = s.time := by
  simp [eccRead]

/-! ## CAL_RUN -/

@[simp] theorem hfReceiver_time (rs : List Int) (s : State) : (hfReceiver rs s).2.time = s.time := (rfl)
@[simp] theorem hfAntenna_time (rs : List Int) (s : State) : (hfAntenna rs s).2.time = s.time := (rfl)
@[simp] theorem uhfReceiver_time (rs : List Int) (s : State) : (uhfReceiver rs s).2.time = s.time := (rfl)
@[simp] theorem uhfTable_time (rs : List Int) (s : State) : (uhfTable rs s).2.time = s.time := (rfl)
@[simp] theorem uhfLeak_time (rs : List Int) (s : State) : (uhfLeak rs s).2.time = s.time := by simp [uhfLeak]

@[simp] theorem runOf_time (p : Packet) (rs : List Int) (s : State) : (runOf p rs s).2.time = s.time := by
  fun_cases runOf <;> simp

@[simp] theorem runNow_time (l : LaneId) (e : Exec) (rs : List Int) (s : State) :
    (runNow l e rs s).time = s.time := by simp [runNow]

/-! ## The key store -/

@[simp] theorem onSlot_time (k : Nat) (f : KeySlot → KeySlot) (s : State) : (onSlot k f s).time = s.time :=
  (rfl)

@[simp] theorem keyIncomplete_time (slot cause owner : Nat) (s : State) :
    (keyIncomplete slot cause owner s).time = s.time := by simp [keyIncomplete]

@[simp] theorem dropGone_time (k : Nat) (s : State) : (dropGone k s).time = s.time := by simp [dropGone]
@[simp] theorem killPoolPage_time (p : Nat) (s : State) : (killPoolPage p s).time = s.time := (rfl)

@[simp] theorem killShadow_time (slot : Nat) (s : State) : (killShadow slot s).time = s.time := by
  unfold killShadow
  split <;> simp

@[simp] theorem recordFailed_time (slot : Nat) (s : State) : (recordFailed slot s).time = s.time := by
  unfold recordFailed
  split <;> simp

/-! ## The interrupt controller -/

@[simp] theorem setPend_time (n : Nat) (b : Bool) (s : State) : (setPend n b s).time = s.time := (rfl)
@[simp] theorem drive_time (p : Port) (ws : List Nat) (s : State) : (drive p ws s).time = s.time := by simp [drive]
@[simp] theorem writeRecord_time (d : Doorbell) (s : State) : (writeRecord d s).time = s.time := by simp [writeRecord]
@[simp] theorem coalesce_time (n : Nat) (s : State) : (coalesce n s).time = s.time := by simp [coalesce]
@[simp] theorem arrive_time (d : Doorbell) (s : State) : (arrive d s).time = s.time := by simp [arrive]

@[simp] theorem arbitrate_time (s : State) : (arbitrate s).time = s.time := by
  fun_cases arbitrate <;> simp

@[simp] theorem deliver_time (x : Nat × Nat × Nat × Bool) (s : State) : (deliver x s).time = s.time := by
  simp [deliver]

@[simp] theorem deliverAll_time (s : State) : (deliverAll s).time = s.time := by simp [deliverAll]

@[simp] theorem icClaim_time (p : Port) (t : Nat) (s : State) : (icClaim p t s).2.time = s.time := by
  fun_cases icClaim <;> simp

@[simp] theorem icTstat_time (p : Port) (t : Nat) (s : State) : (icTstat p t s).2.time = s.time := by
  unfold icTstat
  split <;> simp

@[simp] theorem icSync_time (p : Port) (fast : Bool) (s : State) : (icSync p fast s).2.time = s.time := by
  unfold icSync
  split <;> simp

@[simp] theorem icStatus_time (s : State) : (icStatus s).2.time = s.time := (rfl)
@[simp] theorem icEvtdrop_time (n : Nat) (s : State) : (icEvtdrop n s).2.time = s.time := (rfl)

@[simp] theorem icRead_time (p : Port) (off : Nat) (fast : Bool) (s : State) :
    (icRead p off fast s).2.time = s.time := by
  fun_cases icRead <;> simp

/-! ## The host ports -/

@[simp] theorem portStorm_time (p : Port) (s : State) : (portStorm p s).time = s.time := by simp [portStorm]

@[simp] theorem portError_time (p : Port) (code addr : Nat) (s : State) :
    (portError p code addr s).time = s.time := by simp [portError]

@[simp] theorem laterError_time (p : Port) (code addr : Nat) (s : State) :
    (laterError p code addr s).time = s.time := by simp [laterError]

@[simp] theorem discardDraw_time (p : Port) (addr : Nat) (s : State) : (discardDraw p addr s).time = s.time := by
  fun_cases discardDraw
  case case1 h => simp +zetaDelta [rngTakeWord_time h]
  all_goals simp

@[simp] theorem resetPort_time (p : Port) (s : State) : (resetPort p s).time = s.time := by
  unfold resetPort
  split <;> simp

@[simp] theorem portResetReg_time (v : Nat) (s : State) : (portResetReg v s).time = s.time := by simp [portResetReg]
@[simp] theorem paCfgSet_time (v : Nat) (s : State) : (paCfgSet v s).time = s.time := (rfl)
@[simp] theorem errRead_time (q : Port) (s : State) : (errRead q s).2.time = s.time := by simp [errRead]

@[simp] theorem globalRead_time (p : Port) (off : Nat) (s : State) : (globalRead p off s).2.time = s.time := by
  unfold globalRead
  split <;> simp

@[simp] theorem rngLate_time (p : Port) (s : State) : (rngLate p s).2.time = s.time := by
  unfold rngLate
  split <;> simp

@[simp] theorem rngDataWord_time (p : Port) (s : State) : (rngDataWord p s).2.time = s.time := by
  unfold rngDataWord
  split
  next h => simp [rngTakeWord_time h]
  next => simp

@[simp] theorem readWord_time (p : Port) (addr : Nat) (fast : Bool) (s : State) :
    (readWord p addr fast s).2.time = s.time := by
  fun_cases readWord <;> simp

@[simp] theorem burstRead_time (p : Port) (fast : Bool) (addr n : Nat) (failed : Bool) (s : State) :
    (burstRead p fast addr n failed s).2.2.time = s.time := by
  induction n generalizing addr failed s with
  | zero => rfl
  | succ n ih =>
    unfold burstRead
    split <;> simp [ih]

@[simp] theorem lateWords_time (o : OpenTx) (s : State) : (lateWords o s).time = s.time := by
  cases h : o.paCfg <;> simp [lateWords, h]

@[simp] theorem txError_time (p : Port) (o : OpenTx) (code addr : Nat) (s : State) :
    (txError p o code addr s).time = s.time := by simp [txError]

@[simp] theorem endWords_time (p : Port) (o : OpenTx) (n : Nat) (fin : TxEnd) (s : State) :
    (endWords p o n fin s).time = s.time := by
  unfold endWords
  split <;> simp

@[simp] theorem endStall_time (st : Stall) (first : Nat) (s : State) :
    (endStall st first s).time = s.time := by simp [endStall]

@[simp] theorem deliverAhead_time (st : Stall) (s : State) : (deliverAhead st s).time = s.time := by
  simp [deliverAhead]

@[simp] theorem stallTimeout_time (st : Stall) (s : State) : (stallTimeout st s).time = s.time := by
  simp [stallTimeout]

/-! ## Background jobs and firmware -/

@[simp] theorem queueDeadSectors_time (s : State) : (queueDeadSectors s).time = s.time := (rfl)

@[simp] theorem bgStart_time (s : State) : (bgStart s).time = s.time := by
  fun_cases bgStart <;> simp

@[simp] theorem confirmTry_time (s : State) : (confirmTry s).time = s.time := by
  fun_cases confirmTry
  case case3 =>
    cases h : nvSubmit _ s with
    | none => simp
    | some t => simp [nvSubmit_time h]
  all_goals simp

/-! ## Resets -/

@[simp] theorem clockReset_time (ks : List Clock) (s : State) : (clockReset ks s).time = s.time := (rfl)
@[simp] theorem xoReset_time (s : State) : (xoReset s).time = s.time := by simp [xoReset]

/-! ## UNFENCE -/

@[simp] theorem unfenceDone_time (named : List Nat) (s : State) : (unfenceDone named s).time = s.time := by
  simp [unfenceDone]

@[simp] theorem testNext_time (op : TestOp) (s : State) : (testNext op s).time = s.time := by
  unfold testNext
  split <;> simp

/-! ## The parts of one µs of service -/

@[simp] theorem powerCycle_time_pending (s : State) :
    (powerCycle s).time = s.time ∧ (powerCycle s).pending = s.pending := ⟨rfl, rfl⟩

@[simp] theorem fencedGrant_time_pending (c : Chain) (s : State) :
    (fencedGrant c s).time = s.time ∧ (fencedGrant c s).pending = s.pending := by simp [fencedGrant]

@[simp] theorem fencedRead_time_pending (s : State) :
    (fencedRead s).time = s.time ∧ (fencedRead s).pending = s.pending := by
  unfold fencedRead
  split <;> simp

@[simp] theorem loopTick_time_pending (s : State) :
    (loopTick s).time = s.time ∧ (loopTick s).pending = s.pending := by simp [loopTick]

@[simp] theorem hfOnTick_time_pending (s : State) :
    (hfOnTick s).time = s.time ∧ (hfOnTick s).pending = s.pending := by simp [hfOnTick]

@[simp] theorem uhfOnTick_time_pending (s : State) :
    (uhfOnTick s).time = s.time ∧ (uhfOnTick s).pending = s.pending := by simp [uhfOnTick]

@[simp] theorem peerLight_time_pending (s : State) :
    (peerLight s).time = s.time ∧ (peerLight s).pending = s.pending := by simp [peerLight]

@[simp] theorem senseTick_time_pending (s : State) :
    (senseTick s).time = s.time ∧ (senseTick s).pending = s.pending := by
  unfold senseTick
  split <;> simp [withWaiting_time, withWaiting_pending, peerSensed]

@[simp] theorem answerTick_time_pending (s : State) :
    (answerTick s).time = s.time ∧ (answerTick s).pending = s.pending := by
  unfold answerTick
  split <;> simp [withWaiting_time, withWaiting_pending, answerLight]

@[simp] theorem senseEnd_time_pending (s : State) :
    (senseEnd s).time = s.time ∧ (senseEnd s).pending = s.pending := by simp [senseEnd]

@[simp] theorem hfSenseTick_time_pending (s : State) :
    (hfSenseTick s).time = s.time ∧ (hfSenseTick s).pending = s.pending := by
  fun_cases hfSenseTick <;> simp

@[simp] theorem tuneTick_time_pending (s : State) :
    (tuneTick s).time = s.time ∧ (tuneTick s).pending = s.pending := by
  fun_cases tuneTick <;> simp

@[simp] theorem valuesTick_time_pending (s : State) :
    (valuesTick s).time = s.time ∧ (valuesTick s).pending = s.pending := by simp [valuesTick]

@[simp] theorem calTick_time_pending (s : State) :
    (calTick s).time = s.time ∧ (calTick s).pending = s.pending := by
  fun_cases calTick <;> simp

@[simp] theorem uhfChangeTick_time_pending (s : State) :
    (uhfChangeTick s).time = s.time ∧ (uhfChangeTick s).pending = s.pending := by simp [uhfChangeTick]

/-! ## What a unit finds again after its fence -/

@[simp] theorem slotFromLog_time_pending (s : State) (k : Nat) :
    (slotFromLog s k).time = s.time ∧ (slotFromLog s k).pending = s.pending := by simp [slotFromLog]

@[simp] theorem scanSlot_time_pending (s : State) (k : Nat) :
    (scanSlot s k).time = s.time ∧ (scanSlot s k).pending = s.pending := by
  simp only [scanSlot]
  (repeat' split) <;> simp

@[simp] theorem scanKeys_time_pending (s : State) :
    (scanKeys s).time = s.time ∧ (scanKeys s).pending = s.pending := by simp [scanKeys, resumeKeyErase]

@[simp] theorem rngStart_time_pending (s : State) :
    (rngStart s).time = s.time ∧ (rngStart s).pending = s.pending := by simp [rngStart]

@[simp] theorem chainBack_time_pending (c : Chain) (s : State) :
    (chainBack c s).time = s.time ∧ (chainBack c s).pending = s.pending := by cases c <;> simp [chainBack]

@[simp] theorem unitBack_time_pending (u : Nat) (s : State) :
    (unitBack u s).time = s.time ∧ (unitBack u s).pending = s.pending := by
  unfold unitBack
  split <;> simp [keysBack, icCleared]

@[simp] theorem unfenceUnit_time_pending (u : Nat) (s : State) :
    (unfenceUnit u s).time = s.time ∧ (unfenceUnit u s).pending = s.pending := by simp [unfenceUnit, unmark]

@[simp] theorem unfenceOne_time_pending (failing : List Nat) (rl : Nat) (s : State) (u : Nat) :
    (unfenceOne failing rl s u).time = s.time ∧ (unfenceOne failing rl s u).pending = s.pending := by
  simp [unfenceOne, unfenceFailed]

@[simp] theorem testEnd_time_pending (op : TestOp) (s : State) :
    (testEnd op s).time = s.time ∧ (testEnd op s).pending = s.pending := by
  unfold testEnd
  split <;> simp [testRead]

@[simp] theorem testTick_time_pending (s : State) :
    (testTick s).time = s.time ∧ (testTick s).pending = s.pending := by
  unfold testTick
  split <;> simp

@[simp] theorem runTick_time_pending (s : State) :
    (runTick s).time = s.time + 1 ∧ (runTick s).pending = s.pending := by simp [runTick]

/-! ## The steps of start-up -/

@[simp] theorem applyEntry_time (n : Nat) (a : Applied) (x : Nat × Nat) : (applyEntry n a x).s.time = a.s.time := by
  fun_cases applyEntry <;> simp +zetaDelta

@[simp] theorem applyEntries_time (n : Nat) (es : List (Nat × Nat)) (s : State) :
    (applyEntries n es s).s.time = s.time :=
  foldl_keeps (fun a : Applied => a.s.time) (applyEntry_time n) es _

@[simp] theorem limitField_time_pending (id : Nat) (s : State) :
    (limitField id s).2.time = s.time ∧ (limitField id s).2.pending = s.pending := by
  unfold limitField
  (repeat' split) <;> simp

@[simp] theorem startCharter_time_pending (s : State) :
    (startCharter s).2.time = s.time ∧ (startCharter s).2.pending = s.pending := by
  unfold startCharter
  (repeat' split) <;> simp

@[simp] theorem bankFallback_time_pending (bank used : Nat) (s : State) :
    (bankFallback bank used s).time = s.time ∧ (bankFallback bank used s).pending = s.pending := by
  simp [bankFallback]

@[simp] theorem startCal_time_pending (s : State) :
    (startCal s).time = s.time ∧ (startCal s).pending = s.pending := by
  simp only [startCal]
  (repeat' split) <;> simp

@[simp] theorem startKeys_time_pending (s : State) :
    (startKeys s).time = s.time ∧ (startKeys s).pending = s.pending := by simp [startKeys]

@[simp] theorem startRng_time_pending (env : StartEnv) (s : State) :
    (startRng env s).time = s.time ∧ (startRng env s).pending = s.pending := by simp [startRng]

@[simp] theorem stormFence_time_pending (s : State) :
    (stormFence s).time = s.time ∧ (stormFence s).pending = s.pending := by simp [stormFence]

@[simp] theorem selfTests_time_pending (env : StartEnv) (s : State) :
    (selfTests env s).time = s.time ∧ (selfTests env s).pending = s.pending := by simp [selfTests, fenceNew]

@[simp] theorem startDefaults_time_pending (s : State) :
    (startDefaults s).2.time = s.time ∧ (startDefaults s).2.pending = s.pending := by
  unfold startDefaults
  split <;> simp

@[simp] theorem bootStage_time_pending (b : BootRun) (s : State) :
    (bootStage b s).2.time = s.time ∧ (bootStage b s).2.pending = s.pending := by
  unfold bootStage
  split <;> simp [seedHop, startUnits]

/-! ## BOOT_DONE -/

@[simp] theorem startRecord_time_pending (pay : Nat) (s : State) :
    (startRecord pay s).time = s.time ∧ (startRecord pay s).pending = s.pending := by simp [startRecord]

@[simp] theorem reportClocks_time_pending (s : State) :
    (reportClocks s).time = s.time ∧ (reportClocks s).pending = s.pending := by simp [reportClocks]

@[simp] theorem reportWatchdog_time_pending (s : State) :
    (reportWatchdog s).time = s.time ∧ (reportWatchdog s).pending = s.pending := by
  unfold reportWatchdog
  split <;> simp [reportFull]

@[simp] theorem reportHeld_time_pending (held : List Nat) (s : State) :
    (reportHeld held s).time = s.time ∧ (reportHeld held s).pending = s.pending := by simp [reportHeld]

@[simp] theorem clampEvents_time_pending (ids : List Nat) (s : State) :
    (clampEvents ids s).time = s.time ∧ (clampEvents ids s).pending = s.pending := by simp [clampEvents]

@[simp] theorem bootDone_time_pending (held clamps : List Nat) (s : State) :
    (bootDone held clamps s).time = s.time ∧ (bootDone held clamps s).pending = s.pending := by simp [bootDone]

@[simp] theorem bootStep_time_pending (s : State) :
    (bootStep s).time = s.time ∧ (bootStep s).pending = s.pending := by
  fun_cases bootStep <;> simp +zetaDelta

/-! ## A step on an empty queue -/

theorem step_of_empty {s : State} (h : s.pending = []) : step s = .next (tick s) := by
  rw [step, h]

/-- In service and in start-up from step 5 on, one µs passes. -/
theorem tick_time_pending {s : State} (h : s.pwr.state = .run ∨ s.pwr.state = .boot) :
    (tick s).time = s.time + 1 ∧ (tick s).pending = s.pending := by
  rcases h with h | h <;> simp [tick, h]

theorem tick_recovery {s : State} (h : s.pwr.state = .recovery) : tick s = { s with time := s.time + 1 } := by
  rw [tick, h]
  rfl

/-- In a low-power state one cycle of CK-AON passes. -/
theorem tick_lowPower {s : State} (h : s.pwr.state = .deepStandby ∨ s.pwr.state = .retain ∨ s.pwr.state = .lpcd) :
    tick s = { s with aon := { s.aon with elapsed := s.aon.elapsed + 1 } } := by
  rcases h with h | h | h <;> (rw [tick, h]; rfl)

theorem tick_unpowered {s : State} (h : s.pwr.state = .off ∨ s.pwr.state = .startup) : tick s = s := by
  rcases h with h | h <;> rw [tick, h]

/-- Settles O2: the step is a tick, and each power state has its rule for that. -/
theorem emptyQueueLetsTimePass : Obligations.EmptyQueueLetsTimePass := by
  unfold Obligations.EmptyQueueLetsTimePass
  intro s hq
  rw [step_of_empty hq]
  refine ⟨fun h => ?_, fun h => congrArg _ (tick_recovery h), fun h => congrArg _ (tick_lowPower h),
    fun h => congrArg _ (tick_unpowered h)⟩
  obtain ⟨htime, hpending⟩ := tick_time_pending h
  exact ⟨tick s, rfl, htime, hpending.trans hq⟩

end Sys2Proof.Machine

/-! # The clock monitor, the watchdog's warning and the ports' supplies

One rule for each row in each of its cases, and then the statement. -/

namespace Sys2Proof.Machine

open Sys2Proof

/-! ## Clock monitor (R92, R94, R111–R117) -/

theorem exec_clockMonitorWindow {counts : List (Clock × Nat)} {s : State}
    (h : inService s = true ∨ s.pwr.state = .recovery) :
    let u := counts.foldl countWindow s
    exec (.clockMonitorWindow counts) s = .next (clockLosses (newlyLost u) u) := by
  have hon : monitorOn s = true := by simpa [monitorOn] using h
  refine congrArg _ (if_neg ?_)
  simp [hon]

/-- Entry `i` of a list that has one, after a change of it. -/
theorem nth_modAt_same {α : Type} {l : List α} {i : Nat} (f : α → α) (d : α) (h : i < l.length) :
    nth (modAt l i f) i d = f (nth l i d) := by
  simp [nth, modAt, h]

/-- A window that is due counts a bad count, up to two in a row, and a good one ends the row. -/
theorem bad_countWindow {k : Clock} {n : Nat} {s : State} (hm : monitored s k = true)
    (hdue : nth s.clk.next k.ctorIdx 0 ≤ s.time) (hlen : k.ctorIdx < s.clk.bad.length) :
    nth (countWindow s (k, n)).clk.bad k.ctorIdx 0 =
      if countBad k n = true then min 2 (nth s.clk.bad k.ctorIdx 0 + 1) else 0 := by
  cases hb : countBad k n <;> simp [countWindow, hm, Nat.not_lt.2 hdue, hb, nth_modAt_same _ _ hlen]

/-- 434 counts of CK-XO are due in a window of 16 µs, and an eighth of that either way is good. -/
theorem countBad_xo_iff {n : Nat} : countBad .xo n = true ↔ n < 380 ∨ 488 < n := by
  rw [countBad, decide_eq_true_iff]
  simp only [nominalMilli, nominalKhz, absDiff]
  omega

theorem exec_aonCrystalSelect {ok : Bool} {s : State} (h : s.pwr.state ≠ .off) :
    exec (.aonCrystalSelect ok) s = .next (s.onAon fun a => { a with crystal := ok }) :=
  congrArg _ (if_neg h)

theorem exec_hfDriverClockStop {s : State} (h : hfEmits s = true) : exec .hfDriverClockStop s = .next
    (hfFell ((hfFieldOut (hfFall 3 (s.onHfLane (stopTransmit s 0x13)))).onHf fun h => { h with cut := true })) :=
  congrArg _ (if_pos h)

/-! ## Watchdog warning and storm count (R762, R763, R765; log 195) -/

/-- The watchdog's number for a core. -/
def coreOrigin : CoreId → Nat
  | .protocol => 0
  | .house => 1

/-- The moment of the core's warning is now. -/
def warnNow (core : CoreId) (s : State) : State :=
  s.onContain fun c => match core with
    | .protocol => { c with warnP := some s.time }
    | .house => { c with warnH := some s.time }

/-- A warning comes no sooner than half a period after the last one (log 195, the model's choice). -/
theorem exec_watchdogWarning {core : CoreId} {s : State} (h : inService s = true) :
    exec (.watchdogWarning core) s = .next (if warnDue s (coreOrigin core) ≤ s.time then
      raise 14 (watchdogPayload s 0 (coreOrigin core) 0) (warnNow core s) else s) := by
  change execWatchdogWarning core s = _
  unfold execWatchdogWarning
  rw [h]
  cases core <;> exact congrArg _ (if_congr (by simp [coreOrigin]) rfl rfl)

theorem exec_stormCountClear {at_ : Nat} {s : State} (hb : s.aon.bootAt = some at_)
    (hat : at_ + 10000000 ≤ nowAon s) : exec .stormCountClear s = .next (s.onAon fun a => { a with storm := 0 }) := by
  refine congrArg _ (if_pos ?_)
  simp [stormOver, hb, hat]

/-! ## VIO monitors (R847–R850) -/

theorem exec_vioPresent {p : Port} {mv us : Nat} {s : State} (hv : 1710 ≤ mv) (ht : 10 ≤ us) :
    exec (.vioPresent p mv us) s = .next (onPort p (fun q => { q with vio := true }) s) :=
  congrArg _ (if_pos ⟨hv, ht⟩)

theorem exec_vioPresent_short {p : Port} {mv us : Nat} {s : State} (h : mv < 1710 ∨ us < 10) :
    exec (.vioPresent p mv us) s = .next s :=
  congrArg _ (if_neg (by omega))

theorem exec_vioAbsent_high {p : Port} {cut : Option Nat} {mv : Nat} {s : State} (h : 1500 ≤ mv) :
    exec (.vioAbsent p cut mv) s = .next s :=
  congrArg _ (if_pos h)

/-- Below 1.5 V the supply is absent, and what a port in service was doing is cut. -/
theorem exec_vioAbsent_low {p : Port} {cut : Option Nat} {mv : Nat} {s : State} (h : mv < 1500) :
    exec (.vioAbsent p cut mv) s =
      .next (onPort p (fun q => { q with vio := false, stall := none, burst := none, rdata := [] })
        (if portUp s p = true then vioCut p cut s else s)) :=
  congrArg _ (if_neg (Nat.not_le.2 h))

/-- Without a transaction in the state, the row names the one that is cut, if any. -/
theorem vioCut_idle {p : Port} {cut : Option Nat} {s : State} (hb : (portSt s p).burst = none)
    (hs : (portSt s p).stall = none) : vioCut p cut s =
      (cut.elim id (portError p 2)) (onPort p (fun q => { q with stall := none, burst := none }) s) := by
  cases cut <;> simp [vioCut, hb, hs]

/-- A stalled read is cut at its own address. -/
theorem vioCut_stalled {p : Port} {st : Stall} {s : State} (hb : (portSt s p).burst = none)
    (hs : (portSt s p).stall = some st) : vioCut p none s =
      portError p 2 st.addr (onPort p (fun q => { q with stall := none, burst := none }) s) := by
  simp [vioCut, hb, hs]

/-! ## Confirmation of a bank on trial (R142, R146) -/

theorem exec_fwConfirmRetry {s : State} (hr : s.pwr.state = .run) (hb : s.fw.booted = true)
    (hat : s.fw.confirmAt ≤ s.time) : exec .fwConfirmRetry s = .next (confirmTry s) :=
  congrArg _ (if_pos ⟨hr, hb, hat⟩)

theorem exec_fwConfirmRetry_early {s : State} (h : s.time < s.fw.confirmAt) : exec .fwConfirmRetry s = .next s :=
  congrArg _ (if_neg fun ⟨_, _, hat⟩ => Nat.not_le.2 h hat)

/-- A confirmation record that is not erased cannot be written. -/
theorem confirmTry_not_erased {s : State} (ht : s.fw.onTrial = true) (hf : s.fw.confirmFailed = false)
    (hr : confirmRuns s = false) (he : (bankOf s s.fw.bankB).conf ≠ .erased) :
    confirmTry s = raise 9 (pageOf (.fwConfirm s.fw.bankB s.fw.secver))
      (s.onFw fun f => { f with confirmFailed := true }) := by
  simp [confirmTry, ht, hf, hr, he]

/-- Settles O38: the monitor and its events, each by its own rule, and then the events of service; that a warning
keeps half a period from the last one is log 195's choice. -/
theorem clockAndServiceEvents : Obligations.ClockAndServiceEvents := by
  unfold Obligations.ClockAndServiceEvents
  refine ⟨fun counts k n ok s => ⟨exec_clockMonitorWindow, fun hm hdue hlen => ?_, countBad_xo_iff,
    exec_aonCrystalSelect, exec_hfDriverClockStop, rfl⟩, fun core p at_ s => ⟨fun h => ?_, exec_stormCountClear,
    fun mv us cut => ⟨exec_vioPresent, exec_vioPresent_short, exec_vioAbsent_high, fun hv hup => ?_,
      fun hv hup => ?_, fun hb hs => ⟨vioCut_idle hb hs, vioCut_idle hb hs⟩, fun st => vioCut_stalled⟩,
    exec_fwConfirmRetry, exec_fwConfirmRetry_early, confirmTry_not_erased⟩⟩
  · rw [bad_countWindow hm hdue hlen]
    exact ⟨fun hb => if_pos hb, fun hb => if_neg (by simp [hb])⟩
  · rw [exec_watchdogWarning h]
    cases core <;>
      exact ⟨fun hdue => congrArg _ (if_pos hdue), fun hearly => congrArg _ (if_neg (Nat.not_le.2 hearly))⟩
  · rw [exec_vioAbsent_low hv, hup]
    rfl
  · rw [exec_vioAbsent_low hv, if_pos hup]

end Sys2Proof.Machine

/-! # Recovery service, the jobs of NV and the firmware opcodes

First each command of recovery service as its word at REC_CMD, then how a job moves by one program or one erase and what
its yield point does, then each firmware opcode on a packet that is ready, and then the statement. -/

namespace Sys2Proof.Machine

open Sys2Proof

/-! ## Recovery service (R153–R155) -/

/-- In recovery service a word written to REC_CMD is that command. -/
theorem portWriteTx_recCmd {s : State} (w : Word) (hr : s.pwr.state = .recovery) (h : PortOpen .b s) :
    portWriteTx .b 0x400F04 [w] .whole s = recCommand w.toNat s := by
  have hkind : accessKind s .b true 0x400F04 w.toNat = none := by simp [accessKind, hr, inTenantPages, recListed]
  rw [portWriteTx_word h (by decide) (by decide) (by decide) hkind]
  simp [writeWord, recWriteWord, hr]

/-- A block that NV takes keeps the service busy, with a last status of 0 (log 16). -/
theorem recCommand_stage {s u : State} (hb : recBusy s = false)
    (hrange : stageRangeOk s.fw.recOffset.toNat s.fw.recLength.toNat = true)
    (hu : nvSubmit (stageJob s false s.fw.recOffset.toNat (basinRead s 0 s.fw.recLength.toNat) none) s = some u) :
    recCommand 1 s = setRec true (recVerdict s) 0
      ((dropAwaited false (s.fw.recOffset.toNat / 4096) u).onFw fun f => { f with verified := false }) := by
  simp [recCommand, hb, hrange, hu]

theorem recCommand_verify {s : State} (hb : recBusy s = false) :
    recCommand 2 s = setRec false (fwVerdict s s.nv.fwA) 0
      (s.onFw fun f => { f with verified := fwVerdict s s.nv.fwA == 0 }) := by
  simp [recCommand, hb]

/-- An activation that NV takes keeps the service busy, with a last status of 0 (log 16). -/
theorem recCommand_activate {s u : State} (hb : recBusy s = false) (hv : s.fw.verified = true)
    (he : s.nv.fwA.act = .erased) (hu : nvSubmit (nvJob (.fwAct false 1) none 0x5FE 0) s = some u) :
    recCommand 3 s = setRec true (recVerdict s) 0 u := by
  simp [recCommand, hb, hv, he, hu]

section Commands

variable {s : State} (hr : s.pwr.state = .recovery) (h : PortOpen .b s)
include hr h

theorem exec_recStage : exec .recStage s = .next (recCommand 1 s) := congrArg _ (portWriteTx_recCmd 1 hr h)
theorem exec_recVerify : exec .recVerify s = .next (recCommand 2 s) := congrArg _ (portWriteTx_recCmd 2 hr h)
theorem exec_recActivate : exec .recActivate s = .next (recCommand 3 s) := congrArg _ (portWriteTx_recCmd 3 hr h)

end Commands

/-! ## The steps of an NV job (R129–R137) -/

/-- While NV runs, a program that ends is a step of the job in progress. -/
theorem exec_nvProgramDone {j : NvJob} {s : State} (mis unc : Bool) (k : Nat) (hawake : nvAwake s = true)
    (hj : s.nv.job = some j) : exec (.nvProgramDone mis unc k) s = .next (nvProgramDone mis unc k j s) := by
  change execNvProgramDone mis unc k s = _
  simp [execNvProgramDone, hawake, hj]

/-- While NV runs, an erase that ends is a step of the job in progress, if that one erases. -/
theorem exec_nvEraseDone {j : NvJob} {left : Nat} {s : State} (hawake : nvAwake s = true) (hj : s.nv.job = some j)
    (hstage : j.stage = .erase left) : exec .nvEraseDone s = .next (jobEraseDone j left s) := by
  change execNvEraseDone s = _
  simp [execNvEraseDone, hawake, hj, hstage]

section Program

variable {j : NvJob} {left : Nat} {s : State} (mis unc : Bool) (k : Nat)

theorem nvProgramDone_of_more (hstage : j.stage = .body left) (h : 1 < left) :
    nvProgramDone mis unc k j s = jobYield j (setStage (.body (left - 1)) (programmed j left s)) := by
  simp [nvProgramDone, hstage, h]

/-- Without a commit word the last program ends the job (R152). -/
theorem nvProgramDone_of_last (hstage : j.stage = .body left) (h : left ≤ 1) (hc : hasCommit j.kind = false) :
    nvProgramDone mis unc k j s = jobDone j (programmed j left s) := by
  simp [nvProgramDone, hstage, Nat.not_lt.2 h, hc]

/-- Before its commit word the body is read back (step 5 of R129). -/
theorem nvProgramDone_of_body (hstage : j.stage = .body left) (h : left ≤ 1) (hc : hasCommit j.kind = true) :
    nvProgramDone mis unc k j s = readBack j mis unc k (programmed j left s) := by
  simp [nvProgramDone, hstage, Nat.not_lt.2 h, hc]

theorem nvProgramDone_of_commit (hstage : j.stage = .commit) : nvProgramDone mis unc k j s = jobDone j s := by
  simp [nvProgramDone, hstage]

end Program

/-- A body that reads as it was programmed gets its commit word. -/
theorem readBack_match (j : NvJob) (k : Nat) (s : State) :
    readBack j false false k s = jobYield j (setStage .commit (ctrAdd 3 k s)) := rfl

theorem readBack_mismatch (j : NvJob) (k : Nat) (s : State) :
    readBack j true false k s = jobMismatch j (ctrAdd 3 k s) := rfl

/-- A chunk that reads uncorrectable is a mismatch, whatever the rest reads (R772). -/
theorem readBack_uncorrectable (j : NvJob) (mis : Bool) (k : Nat) (s : State) :
    readBack j mis true k s =
      jobMismatch j (logRecord 7 0xFF 0xFF 0 (j.page * 256) (ctrAdd 4 1 (ctrAdd 3 k s))) := rfl

theorem jobEraseDone_of_more {left : Nat} (j : NvJob) (s : State) (h : 1 < left) :
    jobEraseDone j left s = jobYield j (setStage (.erase (left - 1)) (jobErased j left s)) :=
  if_pos h

theorem jobEraseDone_of_last {left : Nat} (j : NvJob) (s : State) (h : left ≤ 1) :
    jobEraseDone j left s = jobYield j (eraseFinished j (jobErased j left s)) :=
  if_neg (Nat.not_lt.2 h)

/-! ## The yield points of a job (R281, R282, R286; log 134) -/

theorem jobYield_of_unattended {j : NvJob} {s : State} (h : jobPacket j s = none) : jobYield j s = s := by
  simp [jobYield, h]

section Yield

variable {j : NvJob} {l : LaneId} {e : Exec} {s : State}

theorem jobYield_of_stop {st : Nat} (h : jobPacket j s = some (l, e)) (hst : stopDue s e = some st) :
    jobYield j s = wakeJobs (finish l st [] none (stopNv l st e s)) := by
  simp [jobYield, h, hst]

theorem jobYield_of_goesOn (h : jobPacket j s = some (l, e)) (hst : stopDue s e = none)
    (hstay : e.sliceOver = false ∨ otherEligible s l e.pkt.tenant = false) : jobYield j s = s := by
  rcases hstay with hslice | hother
  · simp [jobYield, h, hst, hslice]
  · simp [jobYield, h, hst, hother]

theorem jobYield_of_suspends (h : jobPacket j s = some (l, e)) (hst : stopDue s e = none) (hslice : e.sliceOver = true)
    (hother : otherEligible s l e.pkt.tenant = true) : jobYield j s = suspendHere l e s := by
  simp [jobYield, h, hst, hslice, hother]

end Yield

/-! ## Reading a bank leaves the running firmware as it is (R771, R772) -/

@[simp] theorem nvBadChunk_fw (a : Nat) (s : State) : (nvBadChunk a s).fw = s.fw := by simp [nvBadChunk]

@[simp] theorem eccRead_fw (lo hi : Nat) (r : EccRead) (s : State) : (eccRead lo hi r s).fw = s.fw :=
  List.foldlRecOn _ _ (motive := fun t => t.fw = s.fw) (ctrAdd_fw 3 r.corrected s) fun t ht a _ =>
    (nvBadChunk_fw a t).trans ht

@[simp] theorem otherBank_eccRead (lo hi : Nat) (r : EccRead) (s : State) :
    otherBank (eccRead lo hi r s) = otherBank s := by
  simp [otherBank]

/-! ## FW_STAGE_BLOCK, FW_VERIFY, FW_ACTIVATE (R149–R152, R156–R159) -/

theorem exec_fwStageBlock {e : Exec} {s u : State} (h : Ready .house 0x0900 e s)
    (hrange : stageRangeOk (Packet32 e.pkt 0) (Packet32 e.pkt 4) = true)
    (hu : nvSubmit (stageJob s (otherBank s) (Packet32 e.pkt 0)
      (poundRead s e.pkt.tenant (Packet32 e.pkt 8) (Packet32 e.pkt 4)) (some .house)) s = some u) :
    exec .fwStageBlock s = .next (setPhase .house (.nv 0)
      ((dropAwaited (otherBank s) (Packet32 e.pkt 0 / 4096) u).onFw fun f => { f with verified := false })) := by
  change execFwStageBlock s = _
  rw [execFwStageBlock, onFresh_of_ready _ h]
  simp [fwStageBlock, hrange, hu]

/-- The verdict is on the bank as its reading has left it (log 258). -/
theorem exec_fwVerify {e : Exec} {s v : State} (ecc : EccRead) (h : Ready .house 0x0901 e s)
    (hv : eccRead (if otherBank s then 0x60000 else 0) ((if otherBank s then 0x60000 else 0) + 0x5FE00) ecc s = v) :
    exec (.fwVerify ecc) s = .next (finish .house 0 (fwVerifyBody v (bankOf v (otherBank s))) none
      (v.onFw fun f => { f with verified := fwVerdict v (bankOf v (otherBank s)) == 0 })) := by
  change execFwVerify s ecc = _
  rw [execFwVerify, onFresh_of_ready _ h, ← hv]
  simp only [fwVerify, otherBank_eccRead]

section Activate

variable {e : Exec} {s u : State} (h : Ready .house 0x0902 e s)
include h

theorem exec_fwActivate {k : JobKind} (hk : .fwAct (otherBank s) ((actSeq s s.fw.bankB + 1) % 2 ^ 32) = k)
    (hver : s.fw.verified = true) (he : (bankOf s (otherBank s)).act = .erased)
    (hu : nvSubmit (nvJob k (some .house) (pageOf k) 0) s = some u) :
    exec .fwActivate s = .next (setPhase .house (.nv 0) u) := by
  change execFwActivate s = _
  rw [execFwActivate, onFresh_of_ready _ h]
  simp only [fwActivate, hk, hver, he, hu, Bool.not_true, Bool.false_eq_true, ne_eq, not_true_eq_false, if_false]

theorem exec_fwActivate_unverified (hver : s.fw.verified = false) :
    exec .fwActivate s = .next (finish .house 0x23 [] none s) := by
  change execFwActivate s = _
  rw [execFwActivate, onFresh_of_ready _ h]
  simp [fwActivate, hver]

end Activate

/-! ## The statement -/

/-- Settles O20: the three commands of recovery service, the steps of a job, its yield points, and the firmware
opcodes, each by its own rule. BUSY with a last status of 0 until a recovery command's end is log 16's choice, the
yield points of a job log 134's, and that FW_VERIFY meets the chunks it reads first log 258's. -/
theorem firmwareAndNvJobs : Obligations.FirmwareAndNvJobs := by
  unfold Obligations.FirmwareAndNvJobs
  refine ⟨fun s u hr hopen hb => ⟨fun hrange hu => ?_, ?_, fun hv he hu => ?_⟩,
    fun j left k mis unc s hawake hj => ?_,
    fun j l e st s => ⟨jobYield_of_unattended, fun h hst => ⟨jobYield_of_goesOn h hst, jobYield_of_suspends h hst⟩,
      jobYield_of_stop⟩,
    fun e s u => ⟨exec_fwStageBlock, fun ecc h => exec_fwVerify ecc h rfl, fun h => exec_fwActivate h rfl,
      exec_fwActivate_unverified⟩⟩
  · rw [exec_recStage hr hopen, recCommand_stage hb hrange hu]
  · rw [exec_recVerify hr hopen, recCommand_verify hb]
  · rw [exec_recActivate hr hopen, recCommand_activate hb hv he hu]
  · have hprog := fun mis unc => exec_nvProgramDone mis unc k hawake hj
    simp only [hprog]
    refine ⟨fun hs h => ?_, fun hs h hc => ?_, fun hs h hc => ?_, fun hs => ?_, fun hs h => ?_, fun hs h => ?_⟩
    · rw [nvProgramDone_of_more mis unc k hs h]
    · rw [nvProgramDone_of_last mis unc k hs h hc]
    · simp only [nvProgramDone_of_body _ _ k hs h hc, readBack_match, readBack_mismatch, readBack_uncorrectable,
        and_self]
    · rw [nvProgramDone_of_commit mis unc k hs]
    · rw [exec_nvEraseDone hawake hj hs, jobEraseDone_of_more j s h]
    · rw [exec_nvEraseDone hawake hj hs, jobEraseDone_of_last j s h]

end Sys2Proof.Machine

/-! # Every step keeps the Basin in canonical form

The Basin changes through writes, words lost, banks switched off and resets, each of which keeps its canonical form or
empties it; replies and tables in a pound are writes. A rule `_basin` says of an operation that it leaves the Basin as
it is, a rule `_wf` that it keeps the form, and a rule `_canonical` that a row does, all in the order of the model. A
rule that holds by definition is proved by `(rfl)`, in parentheses, so that `simp` can use it everywhere. -/

namespace Sys2Proof.Machine

open Sys2Proof

/-- Where the outcome is a next state, its Basin is in canonical form. -/
def CanonicalNext (o : Host.Outcome State Fault Refusal) : Prop := ∀ t, o = .next t → t.basin.wf

@[simp] theorem canonicalNext_next {t : State} : CanonicalNext (.next t) ↔ t.basin.wf = true := by simp [CanonicalNext]

@[simp] theorem basin_ite (p : Prop) [Decidable p] (s t : State) :
    (if p then s else t).basin = if p then s.basin else t.basin := apply_ite State.basin p s t

@[simp] theorem Basin.wf_ite (p : Prop) [Decidable p] (b c : Basin) :
    (if p then b else c).wf = if p then b.wf else c.wf := apply_ite Basin.wf p b c

@[simp] theorem foldl_basin {α : Type} {f : State → α → State} (h : ∀ s x, (f s x).basin = s.basin) (l : List α)
    (s : State) : (l.foldl f s).basin = s.basin := foldl_keeps State.basin h l s

theorem foldl_wf {α : Type} {f : State → α → State} (h : ∀ s x, s.basin.wf → (f s x).basin.wf) (l : List α)
    {s : State} (hs : s.basin.wf) : (l.foldl f s).basin.wf := by
  induction l generalizing s with
  | nil => exact hs
  | cons x l ih => exact ih (h s x hs)

/-! ## Doorbells and replies -/

@[simp] theorem State.useFree_basin (s : State) : (State.useFree s).basin = s.basin := (rfl)

@[simp] theorem replyWith_wf (p : Packet) (start : Nat) (tow susp : Bool) (clamps : List Clamp) (status0 : Nat)
    (body : List Byte) (own : Option Nat) {s : State} (hs : s.basin.wf) :
    (replyWith p start tow susp clamps status0 body own s).basin.wf := by
  simp only [replyWith]
  (repeat' split) <;> simp [hs, basinWrite_wf]

@[simp] theorem answer_wf (p : Packet) (status : Nat) {s : State} (hs : s.basin.wf) : (answer p status s).basin.wf := by
  simp [answer, hs]

@[simp] theorem replyExec_wf (e : Exec) (status : Nat) (body : List Byte) (own : Option Nat) {s : State}
    (hs : s.basin.wf) : (replyExec e status body own s).basin.wf := by simp [replyExec, hs]

/-! ## Port errors -/

@[simp] theorem portErrFlag_basin (p : Port) (code addr : Nat) (s : State) :
    (portErrFlag p code addr s).basin = s.basin := by simp [portErrFlag]

@[simp] theorem portErrEvent_basin (p : Port) (code addr : Nat) (s : State) :
    (portErrEvent p code addr s).basin = s.basin := by simp [portErrEvent]

/-! ## Field, carrier and power budget -/

@[simp] theorem setHfGrant_basin (mw : Nat) (s : State) : (setHfGrant mw s).basin = s.basin := (rfl)
@[simp] theorem setUhfGrant_basin (mw : Nat) (s : State) : (setUhfGrant mw s).basin = s.basin := (rfl)
@[simp] theorem askHfGrant_basin (mw : Nat) (s : State) : (askHfGrant mw s).basin = s.basin := (rfl)
@[simp] theorem askUhfGrant_basin (mw : Nat) (s : State) : (askUhfGrant mw s).basin = s.basin := (rfl)
@[simp] theorem setField_basin (id : Nat) (v : Int) (s : State) : (setField id v s).basin = s.basin := (rfl)
@[simp] theorem hfIdle_basin (s : State) : (hfIdle s).basin = s.basin := by simp [hfIdle]
@[simp] theorem emuOff_basin (cause : Nat) (s : State) : (emuOff cause s).basin = s.basin := by simp [emuOff]
@[simp] theorem peerOff_basin (s : State) : (peerOff s).basin = s.basin := by simp [peerOff]

@[simp] theorem peerLeave_basin (s : State) : (peerLeave s).basin = s.basin := by
  unfold peerLeave
  split <;> simp

@[simp] theorem addDue_basin (c : Chain) (ks : List StepKind) (s : State) : (addDue c ks s).basin = s.basin := (rfl)
@[simp] theorem setCodes_basin (cs cp : Nat) (s : State) : (setCodes cs cp s).basin = s.basin := by simp [setCodes]
@[simp] theorem putCodes_basin (cs cp : Nat) (s : State) : (putCodes cs cp s).basin = s.basin := by simp [putCodes]

@[simp] theorem undoTuner_basin (s : State) : (undoTuner s).basin = s.basin := by
  unfold undoTuner
  split <;> simp

@[simp] theorem towStop_basin (c : Chain) (s : State) : (towStop c s).basin = s.basin := by simp [towStop]

@[simp] theorem abandonRetune_basin (s : State) : (abandonRetune s).basin = s.basin := by
  unfold abandonRetune
  split <;> simp

@[simp] theorem cutCapture_basin (c : Chain) (s : State) : (cutCapture c s).basin = s.basin := by
  unfold cutCapture
  split <;> simp

@[simp] theorem hfFall_basin (cause : Nat) (s : State) : (hfFall cause s).basin = s.basin := by simp [hfFall]
@[simp] theorem hfApplyStep_basin (k : Nat) (s : State) : (hfApplyStep k s).basin = s.basin := (rfl)
@[simp] theorem lpcdFromBank_basin (c : HfCal) (s : State) : (lpcdFromBank c s).basin = s.basin := (rfl)
@[simp] theorem dropVerdicts_basin (c : Chain) (s : State) : (dropVerdicts c s).basin = s.basin := (rfl)

@[simp] theorem hfTakeValues_basin (s : State) : (hfTakeValues s).basin = s.basin := by
  simp only [hfTakeValues]
  (repeat' split) <;> simp

@[simp] theorem hfBoundary_basin (s : State) : (hfBoundary s).basin = s.basin := by
  fun_cases hfBoundary <;> simp +zetaDelta

@[simp] theorem hfFieldOut_basin (s : State) : (hfFieldOut s).basin = s.basin := by simp [hfFieldOut]

@[simp] theorem hfFieldGone_basin (cause : Nat) (s : State) : (hfFieldGone cause s).basin = s.basin := by
  simp [hfFieldGone]

@[simp] theorem hfDriverCut_basin (s : State) : (hfDriverCut s).basin = s.basin := by simp [hfDriverCut]
@[simp] theorem giveUpRise_basin (s : State) : (giveUpRise s).basin = s.basin := (rfl)

@[simp] theorem uhfFall_basin (why : FallFor) (s : State) : (uhfFall why s).basin = s.basin := by
  unfold uhfFall
  split <;> simp

@[simp] theorem endVisit_basin (s : State) : (endVisit s).basin = s.basin := by
  unfold endVisit
  split <;> simp

@[simp] theorem uhfTakeValues_basin (s : State) : (uhfTakeValues s).basin = s.basin := by
  fun_cases uhfTakeValues <;> simp +zetaDelta

@[simp] theorem uhfCarrierGone_basin (s : State) : (uhfCarrierGone s).basin = s.basin := by simp [uhfCarrierGone]
@[simp] theorem uhfApplyPower_basin (p : Nat) (s : State) : (uhfApplyPower p s).basin = s.basin := (rfl)

@[simp] theorem uhfBoundary_basin (s : State) : (uhfBoundary s).basin = s.basin := by
  simp only [uhfBoundary]
  split <;> simp

@[simp] theorem onLights_basin (c : Chain) (f : Exec → Exec) (s : State) : (onLights c f s).basin = s.basin := by
  simp [onLights]

@[simp] theorem riseClamp_basin (want applied : Nat) (s : State) : (riseClamp want applied s).basin = s.basin := by
  simp [riseClamp]

@[simp] theorem lightFails_basin (c : Chain) (want : Nat) (s : State) : (lightFails c want s).basin = s.basin := by
  simp [lightFails]

@[simp] theorem lowerHf_basin (k : Nat) (s : State) : (lowerHf k s).basin = s.basin := by simp [lowerHf]
@[simp] theorem reduceHf_basin (s : State) : (reduceHf s).basin = s.basin := by simp [reduceHf]
@[simp] theorem lowerUhf_basin (p : Nat) (s : State) : (lowerUhf p s).basin = s.basin := by simp [lowerUhf]
@[simp] theorem reduceUhf_basin (s : State) : (reduceUhf s).basin = s.basin := by simp [reduceUhf]

@[simp] theorem refit_basin (s : State) : (refit s).basin = s.basin := by
  fun_cases refit <;> simp

@[simp] theorem uhfYields_basin (s : State) : (uhfYields s).basin = s.basin := by simp [uhfYields]

/-! ## What ends a lease or a packet -/

@[simp] theorem chainUsersOff_basin (c : Chain) (s : State) : (chainUsersOff c s).basin = s.basin := by
  unfold chainUsersOff
  split <;> simp

@[simp] theorem startHandover_basin (c : Chain) (afterReset : Bool) (s : State) :
    (startHandover c afterReset s).basin = s.basin := by
  unfold startHandover
  split <;> simp

@[simp] theorem revokeLease_basin (c : Chain) (reason : Nat) (s : State) :
    (revokeLease c reason s).basin = s.basin := by
  unfold revokeLease
  split <;> simp

@[simp] theorem preemptDone_wf (c : Chain) {s : State} (hs : s.basin.wf) : (preemptDone c s).basin.wf := by
  unfold preemptDone
  split <;> simp [hs]

@[simp] theorem leaseAtPacketEnd_wf (c : Chain) {s : State} (hs : s.basin.wf) : (leaseAtPacketEnd c s).basin.wf := by
  fun_cases leaseAtPacketEnd <;> simp [hs]

@[simp] theorem finish_wf (l : LaneId) (status : Nat) (body : List Byte) (own : Option Nat) {s : State}
    (hs : s.basin.wf) : (finish l status body own s).basin.wf := by
  unfold finish
  split
  next => exact hs
  next =>
    split
    · simp [hs]
    · exact leaseAtPacketEnd_wf _ (leaseAtPacketEnd_wf _ (by simp [hs]))

theorem withWaiting_wf {f : State → State} (hf : ∀ s, s.basin.wf → (f s).basin.wf) (l : LaneId) (who : Exec → Bool)
    {s : State} (hs : s.basin.wf) : (withWaiting l who f s).basin.wf := by
  unfold withWaiting
  (repeat' split) <;> simp [hf, hs]

theorem canonicalNext_withWaiting {f : State → State} {l : LaneId} {who : Exec → Bool} {s : State}
    (hf : ∀ s, s.basin.wf → (f s).basin.wf) (hs : s.basin.wf) : CanonicalNext (.next (withWaiting l who f s)) :=
  canonicalNext_next.2 (withWaiting_wf hf l who hs)

@[simp] theorem leaveLane_basin (l : LaneId) (s : State) : (leaveLane l s).basin = s.basin := by simp [leaveLane]

/-! ## Fence entry -/

@[simp] theorem stopOnUnit_basin (u status : Nat) (s : State) : (stopOnUnit u status s).basin = s.basin := (rfl)
@[simp] theorem samDown_basin (n : Nat) (s : State) : (samDown n s).basin = s.basin := by simp [samDown]

@[simp] theorem samOff_basin (n : Nat) (s : State) : (samOff n s).basin = s.basin := by
  unfold samOff
  split <;> simp

@[simp] theorem makeSafe_basin (u : Nat) (s : State) : (makeSafe u s).basin = s.basin := by
  unfold makeSafe
  split <;> simp

@[simp] theorem testHit_basin (u : Nat) (s : State) : (testHit u s).basin = s.basin := by simp [testHit]

@[simp] theorem fenceUnit_basin (u cause detail : Nat) (s : State) : (fenceUnit u cause detail s).basin = s.basin := by
  simp [fenceUnit]

/-! ## The expander -/

@[simp] theorem nextBlock_basin (noise : Bool) (delay : Nat) (s : State) : (nextBlock noise delay s).basin = s.basin :=
  (rfl)

@[simp] theorem rngInstantiate_basin (s : State) : (rngInstantiate s).basin = s.basin := (rfl)
@[simp] theorem rngReseed_basin (s : State) : (rngReseed s).basin = s.basin := by simp [rngReseed]
@[simp] theorem rngBefore_basin (pr : Bool) (s : State) : (rngBefore pr s).basin = s.basin := by simp [rngBefore]

theorem rngGenerate_basin {pr : Bool} {n : Nat} {ws : List Half} {s t : State} (h : rngGenerate pr n s = some (ws, t)) :
    t.basin = s.basin := by
  unfold rngGenerate at h
  split at h
  · obtain ⟨-, rfl⟩ := Prod.mk.inj (Option.some.inj h)
    simp
  · cases h

@[simp] theorem rngWait_basin (s : State) : (rngWait s).basin = s.basin := by simp [rngWait]

@[simp] theorem rngRefillReserve_basin (s : State) : (rngRefillReserve s).basin = s.basin := by
  fun_cases rngRefillReserve
  case case1 => rfl
  case case2 => simp
  case case3 h => simp [rngGenerate_basin h]

theorem rngDraw1_basin {n : Nat} {ws : List Half} {s t : State} (h : rngDraw1 n s = some (ws, t)) :
    t.basin = s.basin := by
  unfold rngDraw1 at h
  obtain ⟨-, h⟩ := Option.ite_none_left_eq_some.1 h
  obtain ⟨-, rfl⟩ := Prod.mk.inj (Option.some.inj h)
  simp

@[simp] theorem rngRefillPort_basin (s : State) : (rngRefillPort s).basin = s.basin := by
  fun_cases rngRefillPort
  case case1 => simp
  case case2 h => simp [rngGenerate_basin h]
  case case3 => rfl

theorem rngTakeWord_basin {w : Word} {s t : State} (h : rngTakeWord s = some (w, t)) : t.basin = s.basin := by
  unfold rngTakeWord at h
  dsimp only at h
  split at h
  · cases h
  · split at h
    · cases h
    · obtain ⟨-, rfl⟩ := Prod.mk.inj (Option.some.inj h)
      simp

@[simp] theorem rngStat_basin (p : Port) (s : State) : (rngStat p s).2.basin = s.basin := by simp [rngStat]

/-! ## Discards and tenant resets -/

@[simp] theorem advanceCons_basin (n : Nat) (s : State) : (advanceCons n s).basin = s.basin := (rfl)

@[simp] theorem discardQueued_wf (n status : Nat) {s : State} (hs : s.basin.wf) :
    (discardQueued n status s).basin.wf := foldl_wf (fun _ p h => answer_wf p status h) _ hs

@[simp] theorem discardRing_wf (n status k : Nat) {s : State} (hs : s.basin.wf) :
    (discardRing n status k s).basin.wf := by
  fun_induction discardRing <;> simp [*]

@[simp] theorem resetDone_basin (n : Nat) (s : State) : (resetDone n s).basin = s.basin := by simp [resetDone]

@[simp] theorem resetAgain_wf {s : State} (hs : s.basin.wf) : (resetAgain s).basin.wf := by
  unfold resetAgain
  split <;> simp [hs]

@[simp] theorem drainTenant_wf (n : Nat) {s : State} (hs : s.basin.wf) : (drainTenant n s).basin.wf := by
  simp [drainTenant, hs]

@[simp] theorem detachJobs_basin (l : LaneId) (s : State) : (detachJobs l s).basin = s.basin := (rfl)
@[simp] theorem stopSense_basin (s : State) : (stopSense s).basin = s.basin := by simp [stopSense]

@[simp] theorem abortHeld_basin (l : LaneId) (e : Exec) (s : State) : (abortHeld l e s).basin = s.basin := by
  unfold abortHeld
  split <;> simp

@[simp] theorem abortEffect_basin (l : LaneId) (e : Exec) (s : State) : (abortEffect l e s).basin = s.basin := by
  fun_cases abortEffect <;> simp +zetaDelta

@[simp] theorem abortLane_wf (l : LaneId) (who : Exec → Bool) (status : Nat) {s : State} (hs : s.basin.wf) :
    (abortLane l who status s).basin.wf := foldl_wf (fun s e h => by simp [h]) _ (by simp [hs])

@[simp] theorem chainFree_basin (c : Chain) (s : State) : (chainFree c s).basin = s.basin := by
  unfold chainFree
  split <;> simp

@[simp] theorem dropWaiters_basin (who : Waiter → Bool) (c : Chain) (s : State) :
    (dropWaiters who c s).basin = s.basin := by simp [dropWaiters]

@[simp] theorem withdrawWaits_wf (c : Chain) (n status : Nat) {s : State} (hs : s.basin.wf) :
    (withdrawWaits c n status s).basin.wf := foldl_wf (fun _ e h => replyExec_wf e status [] none h) _ (by simp [hs])

@[simp] theorem releaseSams_basin (n : Nat) (s : State) : (releaseSams n s).basin = s.basin := by simp [releaseSams]

@[simp] theorem dropLockWaits_wf (n status : Nat) {s : State} (hs : s.basin.wf) :
    (dropLockWaits n status s).basin.wf := foldl_wf (fun _ e h => replyExec_wf e status [] none h) _ hs

@[simp] theorem tenantReset_wf (n : Nat) (who : Exec → Bool) {s : State} (hs : s.basin.wf) :
    (tenantReset n who s).basin.wf := by
  unfold tenantReset
  refine drainTenant_wf n ?_
  rw [releaseSams_basin]
  refine dropLockWaits_wf n _ (withdrawWaits_wf .uhf n _ (withdrawWaits_wf .hf n _
    (abortLane_wf .house who _ (abortLane_wf .uhf who _ (abortLane_wf .hf who _ ?_)))))
  (repeat' split) <;> simp [hs]

/-! ## Rows of opcodes -/

@[simp] theorem onFresh_wf {f : Exec → State → State} (hf : ∀ e s, s.basin.wf → (f e s).basin.wf) (l : LaneId)
    (op : Nat) {s : State} (hs : s.basin.wf) : (onFresh l op f s).basin.wf := by
  fun_cases onFresh <;> simp [hf, hs]

@[simp] theorem setPhase_basin (l : LaneId) (ph : Phase) (s : State) : (setPhase l ph s).basin = s.basin := by
  simp [setPhase]

@[simp] theorem onLeased_wf {f : Exec → State → State} (hf : ∀ e s, s.basin.wf → (f e s).basin.wf) (c : Chain)
    (op : Nat) {s : State} (hs : s.basin.wf) : (onLeased c op f s).basin.wf :=
  onFresh_wf (fun e s h => by split <;> simp [hf, h]) _ _ hs

/-! ## Configuration values -/

@[simp] theorem dropEstimates_basin (c : Chain) (s : State) : (dropEstimates c s).basin = s.basin := (rfl)

@[simp] theorem newGain_basin (c : Chain) (k : Nat) (s : State) : (newGain c k s).basin = s.basin := by
  unfold newGain
  split <;> simp

@[simp] theorem manualGain_basin (s : State) : (manualGain s).basin = s.basin := by simp [manualGain]
@[simp] theorem hfNewStep_basin (k : Nat) (s : State) : (hfNewStep k s).basin = s.basin := by simp [hfNewStep]
@[simp] theorem uhfNewPower_basin (p : Nat) (s : State) : (uhfNewPower p s).basin = s.basin := by simp [uhfNewPower]
@[simp] theorem uhfNewOutput_basin (s : State) : (uhfNewOutput s).basin = s.basin := by simp [uhfNewOutput]
@[simp] theorem fieldEffect_basin (id : Nat) (s : State) : (fieldEffect id s).basin = s.basin := by simp [fieldEffect]

@[simp] theorem pinOwner_basin (id : Nat) (v : Int) (s : State) : (pinOwner id v s).basin = s.basin := by
  simp [pinOwner]

@[simp] theorem applyField_basin (id : Nat) (v : Int) (s : State) : (applyField id v s).basin = s.basin := by
  simp [applyField]

@[simp] theorem recheckBlf_basin (id : Nat) (s : State) : (recheckBlf id s).1.basin = s.basin := by
  fun_cases recheckBlf <;> simp

@[simp] theorem applyEntry_basin (n : Nat) (a : Applied) (x : Nat × Nat) : (applyEntry n a x).s.basin = a.s.basin := by
  fun_cases applyEntry <;> simp +zetaDelta

@[simp] theorem applyEntries_basin (n : Nat) (es : List (Nat × Nat)) (s : State) :
    (applyEntries n es s).s.basin = s.basin := foldl_keeps (fun a : Applied => a.s.basin) (applyEntry_basin n) es _

/-! ## Fetch, admission and deadlines -/

@[simp] theorem fetchFrom_wf (n : Nat) {s : State} (hs : s.basin.wf) : (fetchFrom n s).basin.wf := by
  fun_cases fetchFrom <;> simp +zetaDelta [hs]

@[simp] theorem execPacketFetch_canonical {s : State} (hs : s.basin.wf) : CanonicalNext (execPacketFetch s) := by
  unfold execPacketFetch
  (repeat' split) <;> simp [hs]

@[simp] theorem takeCredit_basin (l : LaneId) (n : Nat) (s : State) : (takeCredit l n s).basin = s.basin := by
  simp [takeCredit]

@[simp] theorem admitFrom_wf (l : LaneId) (n : Nat) {s : State} (hs : s.basin.wf) : (admitFrom l n s).basin.wf := by
  unfold admitFrom
  split <;> simp [hs]

@[simp] theorem execSliceExpiry_canonical (l : LaneId) {s : State} (hs : s.basin.wf) :
    CanonicalNext (execSliceExpiry l s) := by
  unfold execSliceExpiry
  split <;> simp [hs]

@[simp] theorem expireWaits_wf (c : Chain) {s : State} (hs : s.basin.wf) : (expireWaits c s).basin.wf :=
  foldl_wf (fun s w h => by split <;> simp [h]) _ (by simp [hs])

/-! ## Frames on the air -/

@[simp] theorem keepVerdict_basin (c : Chain) (code : Nat) (s : State) : (keepVerdict c code s).basin = s.basin := (rfl)

@[simp] theorem requestCheck_basin (c : Chain) (s : State) : (requestCheck c s).basin = s.basin := by
  simp [requestCheck]

@[simp] theorem stopLane_basin (l : LaneId) (status : Nat) (s : State) : (stopLane l status s).basin = s.basin := by
  simp [stopLane]

@[simp] theorem notSooner_basin (c : Chain) (s : State) : (notSooner c s).basin = s.basin := by
  unfold notSooner
  split <;> simp

@[simp] theorem countRefused_basin (c : Chain) (s : State) : (countRefused c s).basin = s.basin := by
  simp [countRefused]

@[simp] theorem hfStart_basin (s : State) : (hfStart s).basin = s.basin := by
  unfold hfStart
  split <;> simp

@[simp] theorem stepYields_basin (c : Chain) (s : State) : (stepYields c s).basin = s.basin := by
  unfold stepYields
  split <;> simp

@[simp] theorem hfRelease_basin (s0 : State) : (hfRelease s0).basin = s0.basin := by simp [hfRelease]

@[simp] theorem hfSendAt_basin (f : HfFrame) (win at_ : Nat) (s : State) : (hfSendAt f win at_ s).basin = s.basin := by
  simp [hfSendAt]

@[simp] theorem hfSend_basin (f : HfFrame) (win : Nat) (s : State) : (hfSend f win s).basin = s.basin := by
  simp [hfSend]

@[simp] theorem setBandwidth_basin (s : State) : (setBandwidth s).basin = s.basin := by simp [setBandwidth]

@[simp] theorem queryLink_basin (f : UhfFrame) (s : State) : (queryLink f s).2.basin = s.basin := by
  unfold queryLink
  split <;> simp

@[simp] theorem uhfStart_basin (s : State) : (uhfStart s).basin = s.basin := by
  unfold uhfStart
  split <;> simp

@[simp] theorem uhfRelease_basin (s0 : State) : (uhfRelease s0).basin = s0.basin := by simp [uhfRelease]

@[simp] theorem uhfSend_basin (f : UhfFrame) (win : Nat) (s : State) : (uhfSend f win s).basin = s.basin := by
  simp [uhfSend]

/-! ## The HF reader -/

@[simp] theorem onCards_basin (f : List Card → List Card) (s : State) : (onCards f s).basin = s.basin := (rfl)
@[simp] theorem onCard_basin (h : Nat) (f : Card → Card) (s : State) : (onCard h f s).basin = s.basin := (rfl)
@[simp] theorem dropCard_basin (h : Nat) (s : State) : (dropCard h s).basin = s.basin := (rfl)

@[simp] theorem recordCard_basin (c : Card) (s : State) : (recordCard c s).basin = s.basin := by
  fun_cases recordCard <;> simp

@[simp] theorem pollFinish_wf (op : PollOp) {s : State} (hs : s.basin.wf) : (pollFinish op s).basin.wf := by
  unfold pollFinish
  split <;> simp [hs, poundWrite_wf]

@[simp] theorem pollSendAt_basin (op : PollOp) (f : HfFrame) (at_ : Nat) (s : State) :
    (pollSendAt op f at_ s).basin = s.basin := by simp [pollSendAt]

@[simp] theorem pollSend_basin (op : PollOp) (f : HfFrame) (s : State) : (pollSend op f s).basin = s.basin := by
  simp [pollSend]

@[simp] theorem startTech_basin (op : PollOp) (t at_ : Nat) (s : State) : (startTech op t at_ s).basin = s.basin := by
  simp [startTech]

@[simp] theorem nextTech_wf (op : PollOp) {s : State} (hs : s.basin.wf) : (nextTech op s).basin.wf := by
  fun_cases nextTech <;> simp [hs]

@[simp] theorem foundMore_wf (op : PollOp) {s : State} (hs : s.basin.wf) : (foundMore op s).basin.wf := by
  simp [foundMore, hs]

@[simp] theorem againA_basin (op : PollOp) (s : State) : (againA op s).basin = s.basin := by simp [againA]

@[simp] theorem pollA_wf (op : PollOp) (res : FrameResult) (ans : Option HfAnswer) (lq evm : Nat) {s : State}
    (hs : s.basin.wf) : (pollA op res ans lq evm s).basin.wf := by
  fun_cases pollA <;> simp [hs]

@[simp] theorem afterSlotB_wf (op : PollOp) {s : State} (hs : s.basin.wf) : (afterSlotB op s).basin.wf := by
  simp [afterSlotB, hs]

@[simp] theorem pollB_wf (op : PollOp) (res : FrameResult) (ans : Option HfAnswer) (lq evm : Nat) {s : State}
    (hs : s.basin.wf) : (pollB op res ans lq evm s).basin.wf := by
  fun_cases pollB <;> simp [hs]

@[simp] theorem afterSlotV_wf (op : PollOp) {s : State} (hs : s.basin.wf) : (afterSlotV op s).basin.wf := by
  fun_cases afterSlotV <;> simp [hs]

@[simp] theorem pollV_wf (op : PollOp) (res : FrameResult) (ans : Option HfAnswer) (lq evm : Nat) {s : State}
    (hs : s.basin.wf) : (pollV op res ans lq evm s).basin.wf := by
  fun_cases pollV <;> simp [hs]

@[simp] theorem pollNext_wf (op : PollOp) (res : FrameResult) (ans : Option HfAnswer) (lq evm : Nat) {s : State}
    (hs : s.basin.wf) : (pollNext op res ans lq evm s).basin.wf := by simp [pollNext, hs]

@[simp] theorem pollStart_wf (e : Exec) {s : State} (hs : s.basin.wf) : (pollStart e s).basin.wf := by
  simp [pollStart, hs]

@[simp] theorem activateFail_wf (op : ActivateOp) (status : Nat) {s : State} (hs : s.basin.wf) :
    (activateFail op status s).basin.wf := by simp [activateFail, hs]

@[simp] theorem activateDone_wf (op : ActivateOp) (state : Nat) (selected : Bool) {s : State} (hs : s.basin.wf) :
    (activateDone op state selected s).basin.wf := by
  fun_cases activateDone <;> simp +zetaDelta [hs, poundWrite_wf]

@[simp] theorem actSend_basin (op : ActivateOp) (f : HfFrame) (s : State) : (actSend op f s).basin = s.basin := by
  simp [actSend]

@[simp] theorem actHigh_wf (op : ActivateOp) {s : State} (hs : s.basin.wf) : (actHigh op s).basin.wf := by
  simp [actHigh, hs]

@[simp] theorem actParams_basin (op : ActivateOp) (fsci fwi sfgi : Nat) (s : State) :
    (actParams op fsci fwi sfgi s).basin = s.basin := (rfl)

@[simp] theorem attribSend_basin (op : ActivateOp) (c : Card) (prot : List Byte) (s : State) :
    (attribSend op c prot s).basin = s.basin := by simp [attribSend]

@[simp] theorem activateNext_wf (op0 : ActivateOp) (res : FrameResult) (ans : Option HfAnswer) (lq evm : Nat)
    {s : State} (hs : s.basin.wf) : (activateNext op0 res ans lq evm s).basin.wf := by
  fun_cases activateNext <;> simp +zetaDelta [hs]

@[simp] theorem activateStart_wf (e : Exec) {s : State} (hs : s.basin.wf) : (activateStart e s).basin.wf := by
  fun_cases activateStart <;> simp +zetaDelta [hs]

@[simp] theorem rawDone_wf (op : RawOp) (res : FrameResult) (ans : Option HfAnswer) (lq evm : Nat) {s : State}
    (hs : s.basin.wf) : (rawDone op res ans lq evm s).basin.wf := by
  unfold rawDone
  split <;> simp [hs, poundWrite_wf]

@[simp] theorem transceiveStart_wf (e : Exec) {s : State} (hs : s.basin.wf) : (transceiveStart e s).basin.wf := by
  simp [transceiveStart, hs]

@[simp] theorem exchange15Start_wf (e : Exec) {s : State} (hs : s.basin.wf) : (exchange15Start e s).basin.wf := by
  simp [exchange15Start, hs]

@[simp] theorem isoSend_basin (op : IsoOp) (f : HfFrame) (win : Nat) (s : State) :
    (isoSend op f win s).basin = s.basin := by simp [isoSend]

@[simp] theorem isoNextBlock_basin (op : IsoOp) (c : Card) (s : State) : (isoNextBlock op c s).basin = s.basin := by
  simp [isoNextBlock]

@[simp] theorem isoEnd_wf (op : IsoOp) (status : Nat) {f : State → State} (hf : ∀ s, s.basin.wf → (f s).basin.wf)
    {s : State} (hs : s.basin.wf) : (isoEnd op status f s).basin.wf := by
  fun_cases isoEnd <;> simp [hf, hs]

@[simp] theorem isoFinish_wf (op : IsoOp) {s : State} (hs : s.basin.wf) : (isoFinish op s).basin.wf := by
  simp [isoFinish, hs]

@[simp] theorem isoError_basin (op : IsoOp) (c : Card) (status : Nat) (s : State) :
    (isoError op c status s).basin = s.basin := by simp [isoError]

@[simp] theorem isoResend_basin (op : IsoOp) (c : Card) (s : State) : (isoResend op c s).basin = s.basin := by
  simp [isoResend]

@[simp] theorem isoStore_wf (op : IsoOp) (tenant : Nat) (inf : List Byte) {s : State} (hs : s.basin.wf) :
    (isoStore op tenant inf s).2.basin.wf := by simp [isoStore, hs, poundWrite_wf]

@[simp] theorem isoNext_wf (op0 : IsoOp) (res : FrameResult) (ans : Option HfAnswer) (lq evm : Nat) {s : State}
    (hs : s.basin.wf) : (isoNext op0 res ans lq evm s).basin.wf := by
  fun_cases isoNext <;> simp +zetaDelta [hs]

@[simp] theorem isoStart_wf (e : Exec) {s : State} (hs : s.basin.wf) : (isoStart e s).basin.wf := by
  fun_cases isoStart <;> simp [hs]

@[simp] theorem passLive_basin (c : Chain) (s : State) : (passLive c s).basin = s.basin := by simp [passLive]

@[simp] theorem deselectGo_wf (l : LaneId) (op : DeselectOp) {s : State} (hs : s.basin.wf) :
    (deselectGo l op s).basin.wf := by
  fun_cases deselectGo <;> simp [hs]

@[simp] theorem deselectNext_wf (l : LaneId) (op : DeselectOp) (res : FrameResult) (ans : Option HfAnswer) {s : State}
    (hs : s.basin.wf) : (deselectNext l op res ans s).basin.wf := by
  fun_cases deselectNext <;> simp [hs]

@[simp] theorem deselectStart_wf (e : Exec) {s : State} (hs : s.basin.wf) : (deselectStart e s).basin.wf := by
  simp [deselectStart, hs]

@[simp] theorem hfContinue_wf (res : FrameResult) (ans : Option HfAnswer) (lq evm : Nat) {s : State} (hs : s.basin.wf) :
    (hfContinue res ans lq evm s).basin.wf := by
  fun_cases hfContinue <;> simp [hs]

@[simp] theorem countHf_basin (res : FrameResult) (s : State) : (countHf res s).basin = s.basin := by simp [countHf]

@[simp] theorem clipEvents_basin (clipped : Bool) (s : State) : (clipEvents clipped s).basin = s.basin := by
  simp [clipEvents]

@[simp] theorem gatherHf_basin (res : FrameResult) (lq : Nat) (carrier : Int) (s : State) :
    (gatherHf res lq carrier s).basin = s.basin := by simp [gatherHf]

@[simp] theorem cardHeard_basin (lq evm : Nat) (s : State) : (cardHeard lq evm s).basin = s.basin := by
  unfold cardHeard
  split <;> simp

@[simp] theorem hfRx_wf (res0 : FrameResult) (ans : HfAnswer) (m : RxMeas) (clipped : Bool) {s : State}
    (hs : s.basin.wf) : (hfRx res0 ans m clipped s).basin.wf := by simp [hfRx, hs]

/-! ## Leases of the chains -/

@[simp] theorem setDivider_basin (s : State) : (setDivider s).basin = s.basin := by
  unfold setDivider
  split <;> simp

@[simp] theorem setPll_basin (c : Chain) (p : Pll) (s : State) : (setPll c p s).basin = s.basin := by
  unfold setPll
  split <;> simp

@[simp] theorem armClocks_basin (c : Chain) (s : State) : (armClocks c s).basin = s.basin := by simp [armClocks]

@[simp] theorem settleRadio_basin (c : Chain) (s0 : State) : (settleRadio c s0).basin = s0.basin := by
  unfold settleRadio
  split <;> simp

@[simp] theorem grantTo_wf (c : Chain) (w : Waiter) {s : State} (hs : s.basin.wf) : (grantTo c w s).basin.wf := by
  fun_cases grantTo <;> simp +zetaDelta [hs]

@[simp] theorem startGrant_wf (c : Chain) (w : Waiter) {s : State} (hs : s.basin.wf) : (startGrant c w s).basin.wf := by
  simp [startGrant, hs]

@[simp] theorem grantLocked_wf (c : Chain) {s : State} (hs : s.basin.wf) : (grantLocked c s).basin.wf := by
  fun_cases grantLocked <;> simp +zetaDelta [hs]

@[simp] theorem freeLease_basin (c : Chain) (s : State) : (freeLease c s).basin = s.basin := by simp [freeLease]

@[simp] theorem grantStep_wf (c : Chain) {s0 : State} (hs : s0.basin.wf) : (grantStep c s0).basin.wf := by
  fun_cases grantStep <;> simp +zetaDelta [hs]

@[simp] theorem takePlace_basin (c : Chain) (e : Exec) (s : State) : (takePlace c e s).basin = s.basin := by
  simp [takePlace]

@[simp] theorem acquire_wf (e : Exec) {s : State} (hs : s.basin.wf) : (acquire e s).basin.wf := by
  fun_cases acquire <;> simp [hs]

@[simp] theorem releaseNow_wf (c : Chain) {s : State} (hs : s.basin.wf) : (releaseNow c s).basin.wf := by
  simp [releaseNow, hs]

@[simp] theorem releaseKeep_wf (c : Chain) {s : State} (hs : s.basin.wf) : (releaseKeep c s).basin.wf := by
  unfold releaseKeep
  split <;> simp [hs]

@[simp] theorem release_wf (e : Exec) {s : State} (hs : s.basin.wf) : (release e s).basin.wf := by simp [release, hs]
@[simp] theorem keeperFirst_basin (c : Chain) (s : State) : (keeperFirst c s).basin = s.basin := by simp [keeperFirst]

@[simp] theorem grantIfFree_wf (c : Chain) {s : State} (hs : s.basin.wf) : (grantIfFree c s).basin.wf := by
  unfold grantIfFree
  split <;> simp [hs]

@[simp] theorem preempt_wf (e : Exec) {s : State} (hs : s.basin.wf) : (preempt e s).basin.wf := by
  fun_cases preempt <;> simp +zetaDelta [hs]

/-! ## The HF chain -/

@[simp] theorem powerApply_basin (l : LaneId) (id v : Nat) (c : Checked) (s : State) :
    (powerApply l id v c s).basin = s.basin := by simp [powerApply]

@[simp] theorem hfRise_basin (k wait : Nat) (s : State) : (hfRise k wait s).basin = s.basin := by simp [hfRise]
@[simp] theorem hfLight_wf (e : Exec) {s : State} (hs : s.basin.wf) : (hfLight e s).basin.wf := by simp [hfLight, hs]

@[simp] theorem hfChange_wf (iAnt : Nat) (e : Exec) {s : State} (hs : s.basin.wf) : (hfChange iAnt e s).basin.wf := by
  simp [hfChange, hs]

@[simp] theorem hfOff_wf (e : Exec) {s : State} (hs : s.basin.wf) : (hfOff e s).basin.wf := by simp [hfOff, hs]

@[simp] theorem hfField_wf (iAnt : Nat) (e : Exec) {s : State} (hs : s.basin.wf) : (hfField iAnt e s).basin.wf := by
  simp [hfField, hs]

@[simp] theorem loopSettled_basin (iAnt drive : Nat) (s : State) : (loopSettled iAnt drive s).basin = s.basin := (rfl)
@[simp] theorem autoRetune_basin (s : State) : (autoRetune s).basin = s.basin := by simp [autoRetune]

@[simp] theorem mismatchMeasured_basin (phi : Int) (m : Nat) (s : State) :
    (mismatchMeasured phi m s).basin = s.basin := by simp [mismatchMeasured]

@[simp] theorem tuneApply_basin (e : Exec) (body : List Byte) (s : State) : (tuneApply e body s).basin = s.basin := by
  simp [tuneApply]

@[simp] theorem tuneLight_wf (body : List Byte) {s : State} (hs : s.basin.wf) : (tuneLight body s).basin.wf := by
  simp [tuneLight, hs]

@[simp] theorem tuneSet_wf (e : Exec) (body : List Byte) {s : State} (hs : s.basin.wf) :
    (tuneSet e body s).basin.wf := by simp [tuneSet, hs]

@[simp] theorem hfTune_wf (ms : List (Int × Nat)) (iAnt : Nat) (e : Exec) {s : State} (hs : s.basin.wf) :
    (hfTune ms iAnt e s).basin.wf := by simp [hfTune, hs]

@[simp] theorem lpcdStore_basin (p : Packet) (s : State) : (lpcdStore p s).basin = s.basin := (rfl)
@[simp] theorem lpcdArm_wf (e : Exec) {s : State} (hs : s.basin.wf) : (lpcdArm e s).basin.wf := by simp [lpcdArm, hs]

@[simp] theorem lpcdHit_basin (a n : Nat) (byA byN : Bool) (s : State) : (lpcdHit a n byA byN s).basin = s.basin := by
  simp [lpcdHit]

@[simp] theorem lpcdNext_basin (us : Nat) (s : State) : (lpcdNext us s).basin = s.basin := (rfl)
@[simp] theorem lpcdCompare_basin (a n : Nat) (s : State) : (lpcdCompare a n s).basin = s.basin := by simp [lpcdCompare]

@[simp] theorem lpcdRebase_wf (left aSum nSum a n : Nat) {s : State} (hs : s.basin.wf) :
    (lpcdRebase left aSum nSum a n s).basin.wf := by simp [lpcdRebase, hs]

@[simp] theorem lpcdCal_wf (left aSum nSum a n : Nat) {s : State} (hs : s.basin.wf) :
    (lpcdCal left aSum nSum a n s).basin.wf := by simp [lpcdCal, hs]

@[simp] theorem lpcdMeasured_wf (a n : Nat) {s : State} (hs : s.basin.wf) : (lpcdMeasured a n s).basin.wf := by
  unfold lpcdMeasured
  split <;> simp [hs]

@[simp] theorem setQuiet_basin (c : Chain) (q : Nat) (s : State) : (setQuiet c q s).basin = s.basin := by
  unfold setQuiet
  split <;> simp

@[simp] theorem gainStep_basin (c : Chain) (k : Nat) (clip : Bool) (s : State) :
    (gainStep c k clip s).basin = s.basin := by
  unfold gainStep
  split <;> simp

@[simp] theorem sofSeen_basin (c : Chain) (s : State) : (sofSeen c s).basin = s.basin := by
  unfold sofSeen
  split <;> simp

@[simp] theorem agcWindow_basin (c : Chain) (peak : Nat) (clip : Bool) (s : State) :
    (agcWindow c peak clip s).basin = s.basin := by simp [agcWindow]

/-! ## The UHF chain -/

@[simp] theorem newPerm_basin (s : State) : (newPerm s).basin = s.basin := (rfl)

@[simp] theorem pickNextFrom_basin (avoid : Option Nat) (s : State) : (pickNextFrom avoid s).2.basin = s.basin := by
  fun_cases pickNextFrom <;> simp +zetaDelta

@[simp] theorem pickNext_basin (s : State) : (pickNext s).2.basin = s.basin := by simp [pickNext]

theorem pickNext_eq_basin {s t : State} {o : Option Nat} (h : pickNext s = (o, t)) : t.basin = s.basin := by
  rw [← pickNext_basin s, h]

@[simp] theorem pickFirst_basin (s : State) : (pickFirst s).2.basin = s.basin := by simp [pickFirst]

theorem pickFirst_eq_basin {s t : State} {o : Option Nat} (h : pickFirst s = (o, t)) : t.basin = s.basin := by
  rw [← pickFirst_basin s, h]

@[simp] theorem setIndex_basin (c : Nat) (s : State) : (setIndex c s).basin = s.basin := by simp [setIndex]
@[simp] theorem waitRise_basin (w : RiseWait) (s : State) : (waitRise w s).basin = s.basin := (rfl)
@[simp] theorem uhfReturn_basin (s : State) : (uhfReturn s).basin = s.basin := by simp [uhfReturn]
@[simp] theorem uhfRise_basin (s : State) : (uhfRise s).basin = s.basin := by simp [uhfRise]
@[simp] theorem uhfCheckRise_basin (s : State) : (uhfCheckRise s).basin = s.basin := by simp [uhfCheckRise]

@[simp] theorem uhfSense_basin (s : State) : (uhfSense s).basin = s.basin := by
  fun_cases uhfSense <;> simp

@[simp] theorem synthRecal_basin (ch band : Nat) (s : State) : (synthRecal ch band s).basin = s.basin := by
  simp [synthRecal]

@[simp] theorem hopRecal_basin (ch : Nat) (s : State) : (hopRecal ch s).basin = s.basin := by simp [hopRecal]

@[simp] theorem changeChannel_basin (c : Nat) (s : State) : (changeChannel c s).basin = s.basin := by
  simp [changeChannel]

@[simp] theorem hopKnown_basin (c : Nat) (s : State) : (hopKnown c s).basin = s.basin := by simp [hopKnown]
@[simp] theorem restFrom_basin (s : State) : (restFrom s).basin = s.basin := by simp [restFrom]

@[simp] theorem uhfTryRise_basin (s : State) : (uhfTryRise s).basin = s.basin := by
  fun_cases uhfTryRise
  case case6 h => simp [pickNext_eq_basin h]
  case case7 h => simp [pickNext_eq_basin h]
  all_goals simp +zetaDelta

@[simp] theorem uhfLight_wf (e : Exec) {s : State} (hs : s.basin.wf) : (uhfLight e s).basin.wf := by simp [uhfLight, hs]

@[simp] theorem uhfChange_wf (e : Exec) {s : State} (hs : s.basin.wf) : (uhfChange e s).basin.wf := by
  simp [uhfChange, hs]

@[simp] theorem uhfOff_wf (e : Exec) {s : State} (hs : s.basin.wf) : (uhfOff e s).basin.wf := by simp [uhfOff, hs]

@[simp] theorem uhfCarrier_wf (e : Exec) {s : State} (hs : s.basin.wf) : (uhfCarrier e s).basin.wf := by
  simp [uhfCarrier, hs]

@[simp] theorem applyChannel_basin (mode index : Nat) (s : State) : (applyChannel mode index s).basin = s.basin := by
  fun_cases applyChannel
  case case1 => simp +zetaDelta
  case case2 h => simp +zetaDelta [pickFirst_eq_basin h]
  case case3 h => simp +zetaDelta [pickFirst_eq_basin h]

@[simp] theorem uhfSetChannel_wf (e : Exec) {s : State} (hs : s.basin.wf) : (uhfSetChannel e s).basin.wf := by
  simp [uhfSetChannel, hs]

@[simp] theorem recalTick_basin (s : State) : (recalTick s).basin = s.basin := (rfl)

@[simp] theorem moveOn_basin (loud : Bool) (s : State) : (moveOn loud s).basin = s.basin := by
  fun_cases moveOn
  case case1 => simp +zetaDelta
  case case2 h => simp +zetaDelta [pickNext_eq_basin h]
  case case3 h => simp +zetaDelta [pickNext_eq_basin h]

@[simp] theorem dwellLimit_basin (s : State) : (dwellLimit s).basin = s.basin := by simp [dwellLimit]

@[simp] theorem execLbtSenseDone_canonical (level : Int) {s : State} (hs : s.basin.wf) :
    CanonicalNext (execLbtSenseDone level s) := by
  unfold execLbtSenseDone
  split
  next => simp [hs]
  next =>
    have hnext : ∀ o t, pickNext s = (o, t) → t.basin = s.basin := fun o t => pickNext_eq_basin
    (repeat' split) <;> simp [*]

@[simp] theorem channelAtFall_basin (s : State) : (channelAtFall s).basin = s.basin := by
  unfold channelAtFall
  split <;> simp

@[simp] theorem afterMove_basin (why : FallFor) (s : State) : (afterMove why s).basin = s.basin := by
  unfold afterMove
  split <;> simp

@[simp] theorem reflectedAction_basin (s : State) : (reflectedAction s).basin = s.basin := by
  unfold reflectedAction
  split
  · simp only [basin_ite, clampEvent_basin, uhfNewOutput_basin, setField_basin, ite_self]
  · simp only [basin_ite, uhfBoundary_basin, State.onUhf_basin, ite_self]
  · rfl

@[simp] theorem rlMeasured_basin (rl : Nat) (s : State) : (rlMeasured rl s).basin = s.basin := by simp [rlMeasured]

/-! ## The UHF reader -/

@[simp] theorem selectGo_wf (left : List Nat) {s : State} (hs : s.basin.wf) : (selectGo left s).basin.wf := by
  fun_cases selectGo <;> simp [hs]

@[simp] theorem uhfSelect_wf (e : Exec) {s : State} (hs : s.basin.wf) : (uhfSelect e s).basin.wf := by
  simp [uhfSelect, hs]

@[simp] theorem invFinish_wf (op : InvOp) (cause : Nat) {s : State} (hs : s.basin.wf) :
    (invFinish op cause s).basin.wf := by simp [invFinish, hs]

@[simp] theorem setInv_basin (op : InvOp) (s : State) : (setInv op s).basin = s.basin := (rfl)

@[simp] theorem invSend_wf (op : InvOp) (f : UhfFrame) {s : State} (hs : s.basin.wf) : (invSend op f s).basin.wf := by
  simp [invSend, hs]

@[simp] theorem invOpen_wf (op : InvOp) (x : List Nat) {s : State} (hs : s.basin.wf) : (invOpen op x s).basin.wf := by
  fun_cases invOpen <;> simp [hs]

@[simp] theorem beginRound_wf (op : InvOp) {s : State} (hs : s.basin.wf) : (beginRound op s).basin.wf := by
  simp [beginRound, hs]

@[simp] theorem roundEvent_basin (op : InvOp) (s : State) : (roundEvent op s).basin = s.basin := by simp [roundEvent]

@[simp] theorem endRound_wf (op : InvOp) {s : State} (hs : s.basin.wf) : (endRound op s).basin.wf := by
  simp [endRound, hs]

@[simp] theorem slotRep_wf (op : InvOp) {s : State} (hs : s.basin.wf) : (slotRep op s).basin.wf := by simp [slotRep, hs]

@[simp] theorem slotDecide_wf (op : InvOp) (u : Nat) {s : State} (hs : s.basin.wf) : (slotDecide op u s).basin.wf := by
  simp [slotDecide, hs]

@[simp] theorem slotDraw_wf (op : InvOp) {s : State} (hs : s.basin.wf) : (slotDraw op s).basin.wf := by
  unfold slotDraw
  split
  next h => simp [rngDraw1_basin h, hs]
  next => simp [hs]

@[simp] theorem afterSlot_wf (op : InvOp) (input : Nat) {s : State} (hs : s.basin.wf) :
    (afterSlot op input s).basin.wf := by simp [afterSlot, hs]

@[simp] theorem recordTag_wf (op : InvOp) (pc : Half) (epc : List Byte) (lq evm tenant : Nat) {s : State}
    (hs : s.basin.wf) : (recordTag op pc epc lq evm tenant s).2.basin.wf := by
  fun_cases recordTag <;> simp +zetaDelta [hs, poundWrite_wf]

@[simp] theorem invNext_wf (op : InvOp) (tenant : Nat) (res : FrameResult) (ans : Option UhfAnswer) (lq evm : Nat)
    {s : State} (hs : s.basin.wf) : (invNext op tenant res ans lq evm s).basin.wf := by
  fun_cases invNext <;> simp +zetaDelta [hs]

@[simp] theorem inventory_wf (e : Exec) {s : State} (hs : s.basin.wf) : (inventory e s).basin.wf := by
  simp [inventory, hs]

@[simp] theorem limitTick_wf {s : State} (hs : s.basin.wf) : (limitTick s).basin.wf := by
  fun_cases limitTick <;> simp [hs]

@[simp] theorem accessSend_basin (op : AccessOp) (f : UhfFrame) (win : Nat) (s : State) :
    (accessSend op f win s).basin = s.basin := by simp [accessSend]

@[simp] theorem accessAttempt_basin (op : AccessOp) (s : State) : (accessAttempt op s).basin = s.basin := by
  simp [accessAttempt]

@[simp] theorem accessRetry_wf (op : AccessOp) {s : State} (hs : s.basin.wf) : (accessRetry op s).basin.wf := by
  simp [accessRetry, hs]

@[simp] theorem accessResult_wf (op : AccessOp) (tenant status code words : Nat) {s : State} (hs : s.basin.wf) :
    (accessResult op tenant status code words s).basin.wf := by simp [accessResult, hs, poundWrite_wf]

@[simp] theorem accessOp_wf (op : AccessOp) {s : State} (hs : s.basin.wf) : (accessOp op s).basin.wf := by
  fun_cases accessOp <;> simp [hs]

@[simp] theorem accessFail_wf (op : AccessOp) (tenant status code words : Nat) {s : State} (hs : s.basin.wf) :
    (accessFail op tenant status code words s).basin.wf := by simp [accessFail, hs]

@[simp] theorem accessDone_wf (op : AccessOp) (tenant words : Nat) {s : State} (hs : s.basin.wf) :
    (accessDone op tenant words s).basin.wf := by simp [accessDone, hs]

@[simp] theorem accessWrite_basin (op : AccessOp) (a : AccessEntry) (tenant w : Nat) (rn : Half) (s : State) :
    (accessWrite op a tenant w rn s).basin = s.basin := by simp [accessWrite]

@[simp] theorem opNext_wf (op : AccessOp) (a : AccessEntry) (tenant w : Nat) (cover : Bool) (res : FrameResult)
    (ans : Option UhfAnswer) {s : State} (hs : s.basin.wf) : (opNext op a tenant w cover res ans s).basin.wf := by
  unfold opNext
  cases res
  case ok =>
    rcases ans with _ | ans
    · simp [hs]
    · cases ans <;> simp [hs, poundWrite_wf]
  all_goals simp [hs]

@[simp] theorem accessNext_wf (op0 : AccessOp) (tenant : Nat) (res : FrameResult) (ans : Option UhfAnswer)
    (lq evm : Nat) {s : State} (hs : s.basin.wf) : (accessNext op0 tenant res ans lq evm s).basin.wf := by
  fun_cases accessNext <;> simp [hs]

@[simp] theorem access_wf (e : Exec) {s : State} (hs : s.basin.wf) : (access e s).basin.wf := by simp [access, hs]

@[simp] theorem uhfContinue_wf (res : FrameResult) (ans : Option UhfAnswer) (lq evm : Nat) {s : State}
    (hs : s.basin.wf) : (uhfContinue res ans lq evm s).basin.wf := by
  fun_cases uhfContinue <;> simp [hs]

@[simp] theorem countUhf_basin (res : FrameResult) (s : State) : (countUhf res s).basin = s.basin := by simp [countUhf]

@[simp] theorem gatherUhf_basin (res : FrameResult) (lq : Nat) (s : State) : (gatherUhf res lq s).basin = s.basin := by
  simp [gatherUhf]

@[simp] theorem uhfRx_wf (res : FrameResult) (ans : UhfAnswer) (m : RxMeas) {s : State} (hs : s.basin.wf) :
    (uhfRx res ans m s).basin.wf := by simp [uhfRx, hs]

@[simp] theorem breakRound_wf {s : State} (hs : s.basin.wf) : (breakRound s).basin.wf :=
  withWaiting_wf (fun s h => by (repeat' split) <;> simp [h]) _ _ hs

/-! ## The spectrum monitor and captures -/

@[simp] theorem refuseOn_wf (l : LaneId) {s : State} (hs : s.basin.wf) : (refuseOn l s).basin.wf := by
  unfold refuseOn
  split <;> simp [hs]

@[simp] theorem onPeerRun_basin (f : PeerRun → PeerRun) (s : State) : (onPeerRun f s).basin = s.basin := (rfl)
@[simp] theorem peerQuit_basin (s : State) : (peerQuit s).basin = s.basin := by simp [peerQuit]
@[simp] theorem peerAlone_basin (s : State) : (peerAlone s).basin = s.basin := (rfl)
@[simp] theorem peerRefused_basin (s : State) : (peerRefused s).basin = s.basin := by simp [peerRefused]

@[simp] theorem maskFail_wf (c : Chain) (reason : Nat) (margin : Int) {s : State} (hs : s.basin.wf) :
    (maskFail c reason margin s).basin.wf := by
  fun_cases maskFail <;> simp +zetaDelta [hs]

@[simp] theorem maskPass_basin (c : Chain) (s : State) : (maskPass c s).basin = s.basin := by
  unfold maskPass
  split <;> simp

@[simp] theorem spectrumDone_wf (l : LaneId) (bins : List (Int × Int)) {s : State} (hs : s.basin.wf) :
    (spectrumDone l bins s).basin.wf := by
  unfold spectrumDone
  split <;> simp [hs, poundWrite_wf]

@[simp] theorem specTurns_wf (k : Nat) {s : State} (hs : s.basin.wf) : (specTurns k s).basin.wf := by
  induction k generalizing s with
  | zero => exact hs
  | succ k ih =>
    unfold specTurns
    split
    · exact ih (withWaiting_wf (fun s h => by split <;> simp [h]) _ _ hs)
    · exact hs

@[simp] theorem checkEnds_wf {go : State → State} (hgo : ∀ s, s.basin.wf → (go s).basin.wf) (c : Chain) {s : State}
    (hs : s.basin.wf) : (checkEnds c go s).basin.wf := by
  fun_cases checkEnds <;> exact withWaiting_wf hgo _ _ hs

@[simp] theorem execMaskCheckDone_canonical (bins : List (Int × Int)) {s : State} (hs : s.basin.wf) :
    CanonicalNext (execMaskCheckDone bins s) := by
  unfold execMaskCheckDone
  split
  · refine canonicalNext_next.2 (specTurns_wf _ (checkEnds_wf (fun s h => ?_) _ (by simp [hs])))
    split <;> simp [h]
  · simp [hs]

@[simp] theorem spectrumCheck_wf (l : LaneId) (bins : List (Int × Int)) (e : Exec) {s : State} (hs : s.basin.wf) :
    (spectrumCheck l bins e s).basin.wf := by simp [spectrumCheck, hs]

@[simp] theorem captureStart_basin (c : Chain) (s0 : State) : (captureStart c s0).basin = s0.basin := by
  simp [captureStart]

@[simp] theorem captureSamples_wf (l : LaneId) (e : Exec) {s : State} (hs : s.basin.wf) :
    (captureSamples l e s).basin.wf := by simp [captureSamples, hs]

@[simp] theorem captureEnd_wf (c : Chain) (k : Capture) (samples : List (Int × Int)) (state : Nat) (clipped : Bool)
    {s : State} (hs : s.basin.wf) : (captureEnd c k samples state clipped s).basin.wf := by
  simp [captureEnd, hs, poundWrite_wf]

@[simp] theorem captureSof_basin (c : Chain) (s : State) : (captureSof c s).basin = s.basin := by
  unfold captureSof
  split <;> simp

@[simp] theorem captureFrameEnd_basin (c : Chain) (s : State) : (captureFrameEnd c s).basin = s.basin := by
  unfold captureFrameEnd
  split <;> simp

@[simp] theorem execCaptureDone_canonical (c : Chain) (samples : List (Int × Int)) (clipped : Bool) {s : State}
    (hs : s.basin.wf) : CanonicalNext (execCaptureDone c samples clipped s) := by
  unfold execCaptureDone
  split <;> simp [hs]

@[simp] theorem execCaptureTimeout_canonical (c : Chain) {s : State} (hs : s.basin.wf) :
    CanonicalNext (execCaptureTimeout c s) := by
  unfold execCaptureTimeout
  split <;> simp [hs]

/-! ## The NV queue -/

@[simp] theorem jobBegin_basin (j : NvJob) (s : State) : (jobBegin j s).basin = s.basin := (rfl)

@[simp] theorem takeJob_basin (j : NvJob) (s : State) : (takeJob j s).basin = s.basin := by
  unfold takeJob
  split <;> simp

theorem nvSubmit_basin {j : NvJob} {s t : State} (h : nvSubmit j s = some t) : t.basin = s.basin := by
  unfold nvSubmit at h
  split at h
  · obtain rfl := Option.some.inj h
    simp
  · split at h
    · obtain rfl := Option.some.inj h
      simp
    · split at h
      · obtain rfl := Option.some.inj h
        simp
      · cases h

theorem nvSubmitAll_basin {js : List NvJob} {s t : State} (h : nvSubmitAll js s = some t) : t.basin = s.basin := by
  cases js with
  | nil => rw [Option.some.inj h]
  | cons j rest =>
    obtain ⟨u, hu, rfl⟩ := Option.map_eq_some_iff.1 h
    simp [nvSubmit_basin hu]

@[simp] theorem nvAhead_basin (j : NvJob) (s : State) : (nvAhead j s).basin = s.basin := (rfl)
@[simp] theorem onBank_basin (b : Bool) (f : FwBank → FwBank) (s : State) : (onBank b f s).basin = s.basin := (rfl)
@[simp] theorem dropAwaited_basin (b : Bool) (k : Nat) (s : State) : (dropAwaited b k s).basin = s.basin := (rfl)
@[simp] theorem nvBadChunk_basin (a : Nat) (s : State) : (nvBadChunk a s).basin = s.basin := by simp [nvBadChunk]

@[simp] theorem eccRead_basin (lo hi : Nat) (r : EccRead) (s : State) : (eccRead lo hi r s).basin = s.basin := by
  simp [eccRead]

/-! ## System opcodes -/

@[simp] theorem setConfigEnd_wf (e : Exec) {a : Applied} (hs : a.s.basin.wf) : (setConfigEnd e a).basin.wf := by
  fun_cases setConfigEnd
  case case2 h => simp +zetaDelta [nvSubmit_basin h, hs, poundWrite_wf]
  all_goals simp +zetaDelta [hs, poundWrite_wf]

@[simp] theorem setConfig_wf (e : Exec) {s : State} (hs : s.basin.wf) : (setConfig e s).basin.wf := by
  fun_cases setConfig
  · simp [hs]
  · refine setConfigEnd_wf e ?_
    split <;> simp +zetaDelta [hs]

@[simp] theorem getConfig_wf (ecc : EccRead) (e : Exec) {s0 : State} (hs : s0.basin.wf) :
    (getConfig ecc e s0).basin.wf := by simp [getConfig, hs, poundWrite_wf]

@[simp] theorem setWeights_wf (e : Exec) {s : State} (hs : s.basin.wf) : (setWeights e s).basin.wf := by
  simp [setWeights, hs]

@[simp] theorem ctrReset_basin (id : Nat) (s : State) : (ctrReset id s).basin = s.basin := by simp [ctrReset]

@[simp] theorem readOne_basin (n : Nat) (clear : Bool) (id : Nat) (s : State) :
    (readOne n clear id s).2.basin = s.basin := by
  unfold readOne
  split <;> simp

@[simp] theorem readMany_basin (n : Nat) (clear : Bool) (k id : Nat) (s : State) :
    (readMany n clear k id s).2.basin = s.basin := by
  induction k generalizing id s with
  | zero => rfl
  | succ k ih => simp [readMany, ih]

@[simp] theorem readCounters_wf (e : Exec) {s : State} (hs : s.basin.wf) : (readCounters e s).basin.wf := by
  simp [readCounters, hs, poundWrite_wf]

@[simp] theorem logEnds_basin (s : State) : (logEnds s).2.2.basin = s.basin := by
  unfold logEnds
  split <;> simp

@[simp] theorem getLog_wf (ecc : EccRead) (e : Exec) {s0 : State} (hs : s0.basin.wf) : (getLog ecc e s0).basin.wf := by
  simp [getLog, hs, poundWrite_wf]

@[simp] theorem stageProtection_wf (e : Exec) {s : State} (hs : s.basin.wf) : (stageProtection e s).basin.wf := by
  simp [stageProtection, hs]

/-! ## The charter -/

@[simp] theorem recheckField_basin (id : Nat) (s : State) : (recheckField id s).basin = s.basin := by
  unfold recheckField
  split <;> simp

@[simp] theorem resetChannel_basin (s : State) : (resetChannel s).basin = s.basin := by
  fun_cases resetChannel
  case case3 h => simp +zetaDelta [pickFirst_eq_basin h]
  case case4 h => simp +zetaDelta [pickFirst_eq_basin h]
  all_goals simp +zetaDelta

@[simp] theorem setCharter_basin (c : Option Charter) (isSealed : Bool) (s : State) :
    (setCharter c isSealed s).basin = s.basin := by simp [setCharter]

@[simp] theorem dropAllVerdicts_basin (s : State) : (dropAllVerdicts s).basin = s.basin := (rfl)

@[simp] theorem peerFieldLost_basin (s : State) : (peerFieldLost s).basin = s.basin := by
  unfold peerFieldLost
  split <;> simp

@[simp] theorem stopTransmission_basin (s : State) : (stopTransmission s).basin = s.basin := by simp [stopTransmission]
@[simp] theorem resumeTransmission_basin (s : State) : (resumeTransmission s).basin = s.basin := (rfl)

@[simp] theorem charterRead_wf (ecc : EccRead) (e : Exec) {s0 : State} (hs : s0.basin.wf) :
    (charterRead ecc e s0).basin.wf := by simp [charterRead, hs, poundWrite_wf]

@[simp] theorem charterWrite_wf (e : Exec) {s : State} (hs : s.basin.wf) : (charterWrite e s).basin.wf := by
  fun_cases charterWrite
  case case5 h => simp +zetaDelta [nvSubmit_basin h, hs]
  all_goals simp [hs]

@[simp] theorem charterErased_basin (s : State) : (charterErased s).basin = s.basin := (rfl)

@[simp] theorem charterCommitted_basin (c : Charter) (s : State) : (charterCommitted c s).basin = s.basin := by
  simp [charterCommitted]

@[simp] theorem charterLost_basin (torn : Bool) (s : State) : (charterLost torn s).basin = s.basin := (rfl)

@[simp] theorem charterSeal_wf (e : Exec) {s : State} (hs : s.basin.wf) : (charterSeal e s).basin.wf := by
  fun_cases charterSeal
  case case5 h => simp +zetaDelta [nvSubmit_basin h, hs]
  all_goals simp [hs]

@[simp] theorem sealCommitted_basin (gen : Nat) (s : State) : (sealCommitted gen s).basin = s.basin := (rfl)

@[simp] theorem charterBreak_wf (e : Exec) {s : State} (hs : s.basin.wf) : (charterBreak e s).basin.wf := by
  fun_cases charterBreak
  case case3 h => simp +zetaDelta [nvSubmit_basin h, hs]
  all_goals simp [hs]

@[simp] theorem erasePoolSector_basin (k : Nat) (s : State) : (erasePoolSector k s).basin = s.basin := (rfl)

@[simp] theorem breakErased_basin (left : Nat) (s : State) : (breakErased left s).basin = s.basin := by
  simp [breakErased]

/-! ## Calibration banks -/

@[simp] theorem calStoreGo_wf {s : State} (hs : s.basin.wf) : (calStoreGo s).basin.wf := by
  fun_cases calStoreGo
  case case2 h => simp +zetaDelta [nvSubmit_basin h, hs]
  all_goals simp [hs]

@[simp] theorem calStore_wf (e : Exec) {s : State} (hs : s.basin.wf) : (calStore e s).basin.wf := by simp [calStore, hs]
@[simp] theorem discardGather_basin (c : Chain) (s : State) : (discardGather c s).basin = s.basin := (rfl)

@[simp] theorem loadHf_basin (d : CalData) (bank : Nat) (s : State) : (loadHf d bank s).basin = s.basin := by
  simp [loadHf]

@[simp] theorem loadUhf_basin (d : CalData) (bank : Nat) (s : State) : (loadUhf d bank s).basin = s.basin := by
  simp [loadUhf]

@[simp] theorem loadCommon_basin (d : CalData) (bank : Nat) (s : State) : (loadCommon d bank s).basin = s.basin := (rfl)

@[simp] theorem calLoadGo_wf (e : Exec) {s : State} (hs : s.basin.wf) : (calLoadGo e s).basin.wf := by
  fun_cases calLoadGo <;> simp +zetaDelta [hs]

@[simp] theorem calLoad_wf (ecc : EccRead) (e : Exec) {s0 : State} (hs : s0.basin.wf) :
    (calLoad ecc e s0).basin.wf := by simp [calLoad, hs]

@[simp] theorem towWaiter_wf {s : State} (hs : s.basin.wf) : (towWaiter s).basin.wf := by
  fun_cases towWaiter <;> simp [hs]

@[simp] theorem towConfig_wf (e : Exec) {s : State} (hs : s.basin.wf) : (towConfig e s).basin.wf := by
  fun_cases towConfig
  case case2 => simp [foldl_basin fun s i => ctrClear_basin i s, hs]
  all_goals simp [hs]

/-! ## The towpath -/

@[simp] theorem tunerMove_basin (s : State) : (tunerMove s).basin = s.basin := by
  unfold tunerMove
  split <;> simp

@[simp] theorem tunerStep_basin (phi : Int) (m iAnt : Nat) (s : State) : (tunerStep phi m iAnt s).basin = s.basin := by
  unfold tunerStep
  split <;> simp

@[simp] theorem hfStepEffect_basin (k : StepKind) (x y : Int) (iAnt : Nat) (s : State) :
    (hfStepEffect k x y iAnt s).basin = s.basin := by
  unfold hfStepEffect
  split <;> simp

@[simp] theorem uhfStepEffect_basin (k : StepKind) (x y : Int) (s : State) :
    (uhfStepEffect k x y s).basin = s.basin := by
  unfold uhfStepEffect
  split <;> simp

@[simp] theorem stepEffect_basin (c : Chain) (k : StepKind) (x y : Int) (iAnt : Nat) (s : State) :
    (stepEffect c k x y iAnt s).basin = s.basin := by
  unfold stepEffect
  split <;> simp

@[simp] theorem startStep_basin (c : Chain) (k : StepKind) (s : State) : (startStep c k s).basin = s.basin := by
  simp [startStep]

@[simp] theorem execTowpathStepStart_canonical (c : Chain) {s : State} (hs : s.basin.wf) :
    CanonicalNext (execTowpathStepStart c s) := by
  unfold execTowpathStepStart
  split <;> simp [hs]

@[simp] theorem chargeDelay_basin (c : Chain) (l : LaneId) (id ns : Nat) (s : State) :
    (chargeDelay c l id ns s).basin = s.basin := by simp [chargeDelay]

@[simp] theorem imposeDelay_basin (c : Chain) (s : State) : (imposeDelay c s).basin = s.basin := by
  fun_cases imposeDelay <;> simp

@[simp] theorem startHeld_basin (c : Chain) (s : State) : (startHeld c s).basin = s.basin := by
  unfold startHeld
  split <;> simp

@[simp] theorem stepEnd_wf (c : Chain) (k : StepKind) (x y : Int) (iAnt : Nat) {s : State} (hs : s.basin.wf) :
    (stepEnd c k x y iAnt s).basin.wf := by
  fun_cases stepEnd <;> simp +zetaDelta [hs]

@[simp] theorem execTowpathStepEnd_canonical (c : Chain) (x y : Int) (iAnt : Nat) {s : State} (hs : s.basin.wf) :
    CanonicalNext (execTowpathStepEnd c x y iAnt s) := by
  unfold execTowpathStepEnd
  split <;> simp [hs]

@[simp] theorem execTowpathStepOverrun_canonical (c : Chain) {s : State} (hs : s.basin.wf) :
    CanonicalNext (execTowpathStepOverrun c s) := by
  unfold execTowpathStepOverrun
  split <;> simp [hs]

/-! ## CAL_RUN -/

@[simp] theorem hfReceiver_basin (rs : List Int) (s : State) : (hfReceiver rs s).2.basin = s.basin := (rfl)
@[simp] theorem hfAntenna_basin (rs : List Int) (s : State) : (hfAntenna rs s).2.basin = s.basin := (rfl)
@[simp] theorem uhfReceiver_basin (rs : List Int) (s : State) : (uhfReceiver rs s).2.basin = s.basin := (rfl)
@[simp] theorem uhfTable_basin (rs : List Int) (s : State) : (uhfTable rs s).2.basin = s.basin := (rfl)
@[simp] theorem uhfLeak_basin (rs : List Int) (s : State) : (uhfLeak rs s).2.basin = s.basin := by simp [uhfLeak]

@[simp] theorem runOf_basin (p : Packet) (rs : List Int) (s : State) : (runOf p rs s).2.basin = s.basin := by
  fun_cases runOf <;> simp

@[simp] theorem runNow_wf (l : LaneId) (e : Exec) (rs : List Int) {s : State} (hs : s.basin.wf) :
    (runNow l e rs s).basin.wf := by simp [runNow, hs]

@[simp] theorem hfRunLight_wf (e : Exec) (rs : List Int) {s : State} (hs : s.basin.wf) :
    (hfRunLight e rs s).basin.wf := by simp [hfRunLight, hs]

@[simp] theorem calHf_wf (rs : List Int) (e : Exec) {s : State} (hs : s.basin.wf) : (calHf rs e s).basin.wf := by
  simp [calHf, hs]

@[simp] theorem uhfRunLight_wf (e : Exec) (rs : List Int) {s : State} (hs : s.basin.wf) :
    (uhfRunLight e rs s).basin.wf := by
  unfold uhfRunLight
  split <;> simp [hs]

@[simp] theorem calLeak_wf (e : Exec) (rs : List Int) {s : State} (hs : s.basin.wf) : (calLeak e rs s).basin.wf := by
  simp [calLeak, hs]

@[simp] theorem startHold_wf (e : Exec) (point : Nat) {s : State} (hs : s.basin.wf) :
    (startHold e point s).basin.wf := by
  unfold startHold
  split <;> simp [hs]

@[simp] theorem solve_wf (e : Exec) {s : State} (hs : s.basin.wf) : (solve e s).basin.wf := by
  unfold solve
  split <;> simp [hs]

@[simp] theorem calUhf_wf (rs : List Int) (e : Exec) {s : State} (hs : s.basin.wf) : (calUhf rs e s).basin.wf := by
  simp [calUhf, hs]

@[simp] theorem holdDone_wf (point : Nat) (own : Bool) (fwd rev : Int) {s : State} (hs : s.basin.wf) :
    (holdDone point own fwd rev s).basin.wf := by simp [holdDone, hs]

@[simp] theorem execCalHoldEnd_canonical (fwd rev : Int) {s : State} (hs : s.basin.wf) :
    CanonicalNext (execCalHoldEnd fwd rev s) := canonicalNext_withWaiting (fun s h => by split <;> simp [h]) hs

@[simp] theorem calOsc_wf (e : Exec) {s : State} (hs : s.basin.wf) : (calOsc e s).basin.wf := by simp [calOsc, hs]

@[simp] theorem oscEnd_wf (status result : Nat) (o : OscRun) {s : State} (hs : s.basin.wf) :
    (oscEnd status result o s).basin.wf := by simp [oscEnd, hs]

@[simp] theorem gateEnd_wf (error : Int) (o : OscRun) {s : State} (hs : s.basin.wf) : (gateEnd error o s).basin.wf := by
  simp [gateEnd, hs]

@[simp] theorem execCalGateEnd_canonical (error : Int) {s : State} (hs : s.basin.wf) :
    CanonicalNext (execCalGateEnd error s) := canonicalNext_withWaiting (fun s h => by split <;> simp [h]) hs

@[simp] theorem execXoTrimStep_canonical {s : State} (hs : s.basin.wf) : CanonicalNext (execXoTrimStep s) :=
  canonicalNext_withWaiting (fun s h => by split <;> simp [h]) hs

@[simp] theorem execCalRefinTimeout_canonical {s : State} (hs : s.basin.wf) : CanonicalNext (execCalRefinTimeout s) :=
  canonicalNext_withWaiting (fun s h => by split <;> simp [h]) hs

@[simp] theorem execCalRun_canonical (results : List Int) {s : State} (hs : s.basin.wf) :
    CanonicalNext (execCalRun results s) := by
  unfold execCalRun
  split <;> simp +contextual [hs]

/-! ## The key store and the cipher unit -/

@[simp] theorem setUsed_basin (k v : Nat) (s : State) : (setUsed k v s).basin = s.basin := (rfl)
@[simp] theorem onSlot_basin (k : Nat) (f : KeySlot → KeySlot) (s : State) : (onSlot k f s).basin = s.basin := (rfl)
@[simp] theorem countUse_basin (k : Nat) (s : State) : (countUse k s).basin = s.basin := by simp [countUse]

theorem entriesSubmit_basin {n : Nat} {js : List NvJob} {s t : State} (h : entriesSubmit n js s = some t) :
    t.basin = s.basin := by
  unfold entriesSubmit at h
  split at h
  · obtain ⟨j, -, hj⟩ := Option.bind_eq_some_iff.1 h
    exact nvSubmitAll_basin hj
  · exact nvSubmitAll_basin h

@[simp] theorem entriesRefused_wf (n : Nat) {s : State} (hs : s.basin.wf) : (entriesRefused n s).basin.wf := by
  simp [entriesRefused, hs]

theorem entrySubmit_basin {k : JobKind} {lane : Option LaneId} {s t : State} (h : entrySubmit k lane s = some t) :
    t.basin = s.basin := entriesSubmit_basin h

@[simp] theorem execKeyLogRollover_canonical {s : State} (hs : s.basin.wf) : CanonicalNext (execKeyLogRollover s) := by
  unfold execKeyLogRollover
  split
  · cases h : (rollJob s).bind fun j => nvSubmit j s with
    | none => simp [hs]
    | some t =>
      obtain ⟨j, -, hj⟩ := Option.bind_eq_some_iff.1 h
      simp [nvSubmit_basin hj, hs]
  · simp [hs]

theorem useSubmit_basin {k : Nat} {s t : State} (h : useSubmit k s = some t) : t.basin = s.basin := entrySubmit_basin h

@[simp] theorem keyIncomplete_basin (slot cause owner : Nat) (s : State) :
    (keyIncomplete slot cause owner s).basin = s.basin := by simp [keyIncomplete]

@[simp] theorem dropGone_basin (k : Nat) (s : State) : (dropGone k s).basin = s.basin := by simp [dropGone]

@[simp] theorem keyRead_basin (ecc : EccRead) (k : Nat) (s : State) : (keyRead ecc k s).basin = s.basin := by
  simp [keyRead]

@[simp] theorem wipeKey_wf (p : Packet) {s : State} (hs : s.basin.wf) : (wipeKey p s).basin.wf := by
  simp [wipeKey, hs, poundWrite_wf]

@[simp] theorem stageGo_wf (e : Exec) {s : State} (hs : s.basin.wf) : (stageGo e s).basin.wf := by
  fun_cases stageGo
  case case3 h => simp +zetaDelta [entriesSubmit_basin h, hs]
  all_goals simp [hs]

@[simp] theorem stageUse_wf (e : Exec) {s : State} (hs : s.basin.wf) : (stageUse e s).basin.wf := by
  fun_cases stageUse
  case case2 h => simp +zetaDelta [useSubmit_basin h, hs]
  all_goals simp [hs]

@[simp] theorem keyStage_wf (e : Exec) {s : State} (hs : s.basin.wf) : (keyStage e s).basin.wf := by
  fun_cases keyStage <;> simp [hs]

@[simp] theorem keyEntry_wf (k : JobKind) (body : List Byte) {s : State} (hs : s.basin.wf) :
    (keyEntry k body s).basin.wf := by
  unfold keyEntry
  split
  next => simp [hs]
  next h => simp [entrySubmit_basin h, hs]

@[simp] theorem keyCommit_wf (e : Exec) {s : State} (hs : s.basin.wf) : (keyCommit e s).basin.wf := by
  fun_cases keyCommit <;> simp [hs]

@[simp] theorem keyQuery_wf (e : Exec) {s : State} (hs : s.basin.wf) : (keyQuery e s).basin.wf := by simp [keyQuery, hs]

@[simp] theorem keyDestroy_wf (e : Exec) {s : State} (hs : s.basin.wf) : (keyDestroy e s).basin.wf := by
  simp [keyDestroy, hs]

@[simp] theorem killPoolPage_basin (p : Nat) (s : State) : (killPoolPage p s).basin = s.basin := (rfl)

@[simp] theorem killShadow_basin (slot : Nat) (s : State) : (killShadow slot s).basin = s.basin := by
  unfold killShadow
  split <;> simp

@[simp] theorem recordCommitted_basin (slot : Nat) (sh : Shadow) (s : State) :
    (recordCommitted slot sh s).basin = s.basin := by simp [recordCommitted]

@[simp] theorem recordFailed_basin (slot : Nat) (s : State) : (recordFailed slot s).basin = s.basin := by
  unfold recordFailed
  split <;> simp

@[simp] theorem copyDone_basin (slot src dst : Nat) (live : Bool) (s : State) :
    (copyDone slot src dst live s).basin = s.basin := by simp [copyDone]

@[simp] theorem moveDone_basin (slot src dst : Nat) (s : State) : (moveDone slot src dst s).basin = s.basin := (rfl)
@[simp] theorem killPage_basin (slot : Nat) (s : State) : (killPage slot s).basin = s.basin := by simp [killPage]

@[simp] theorem flipLost_basin (slot : Nat) (sh : Shadow) (s : State) : (flipLost slot sh s).basin = s.basin := by
  simp [flipLost]

@[simp] theorem keyFlip_basin (slot : Nat) (h : Shadow) (s : State) : (keyFlip slot h s).basin = s.basin := by
  simp [keyFlip]

@[simp] theorem keyGone_basin (slot : Nat) (s : State) : (keyGone slot s).basin = s.basin := by simp [keyGone]
@[simp] theorem keyRolled_basin (s : State) : (keyRolled s).basin = s.basin := (rfl)

@[simp] theorem rollDone_basin (i : Nat) (s : State) : (rollDone i s).basin = s.basin := by
  fun_cases rollDone <;> simp

@[simp] theorem cipherRun_wf (e : Exec) (key : List Byte) {s : State} (hs : s.basin.wf) :
    (cipherRun e key s).basin.wf := by simp [cipherRun, hs, poundWrite_wf]

@[simp] theorem cipherDraw_wf (e : Exec) (key : List Byte) (since : Nat) {s : State} (hs : s.basin.wf) :
    (cipherDraw e key since s).basin.wf := by
  unfold cipherDraw
  split
  next h => simp [rngGenerate_basin h, hs, poundWrite_wf]
  next => simp [hs]

@[simp] theorem cipherGo_wf (e : Exec) (key : List Byte) {s : State} (hs : s.basin.wf) :
    (cipherGo e key s).basin.wf := by simp [cipherGo, hs]

@[simp] theorem cipherStart_wf (u : Nat) (ecc : EccRead) (e : Exec) {s : State} (hs : s.basin.wf) :
    (cipherStart u ecc e s).basin.wf := by
  fun_cases cipherStart
  case case3 h => simp +zetaDelta [useSubmit_basin h, hs]
  all_goals simp +zetaDelta [hs]

@[simp] theorem cipherAes_wf (ecc : EccRead) (e : Exec) {s : State} (hs : s.basin.wf) :
    (cipherAes ecc e s).basin.wf := by simp [cipherAes, hs]

@[simp] theorem cipherCmac_wf (ecc : EccRead) (e : Exec) {s : State} (hs : s.basin.wf) :
    (cipherCmac ecc e s).basin.wf := by simp [cipherCmac, hs]

/-! ## The interrupt controller -/

@[simp] theorem setPend_basin (n : Nat) (b : Bool) (s : State) : (setPend n b s).basin = s.basin := (rfl)
@[simp] theorem setMask_basin (n : Nat) (b : Bool) (s : State) : (setMask n b s).basin = s.basin := (rfl)
@[simp] theorem drive_basin (p : Port) (ws : List Nat) (s : State) : (drive p ws s).basin = s.basin := by simp [drive]

@[simp] theorem writeRecord_wf (d : Doorbell) {s : State} (hs : s.basin.wf) : (writeRecord d s).basin.wf := by
  simp [writeRecord, hs, basinWrite_wf]

@[simp] theorem coalesce_basin (n : Nat) (s : State) : (coalesce n s).basin = s.basin := by simp [coalesce]
@[simp] theorem arrive_wf (d : Doorbell) {s : State} (hs : s.basin.wf) : (arrive d s).basin.wf := by simp [arrive, hs]

theorem takeDoorbell_basin {d : Doorbell} {s t : State} (h : takeDoorbell s = some (d, t)) : t.basin = s.basin := by
  unfold takeDoorbell at h
  split at h
  · obtain ⟨-, rfl⟩ := Prod.mk.inj (Option.some.inj h)
    simp
  · split at h
    · cases h
    · split at h
      · cases h
      · obtain ⟨-, rfl⟩ := Prod.mk.inj (Option.some.inj h)
        simp

@[simp] theorem execDoorbellArrived_canonical {s : State} (hs : s.basin.wf) :
    CanonicalNext (execDoorbellArrived s) := by
  unfold execDoorbellArrived
  (repeat' split)
  next => simp [hs]
  next => simp [hs]
  next h => simp [takeDoorbell_basin h, hs]

@[simp] theorem arbitrate_basin (s : State) : (arbitrate s).basin = s.basin := by
  fun_cases arbitrate <;> simp

@[simp] theorem deliver_basin (x : Nat × Nat × Nat × Bool) (s : State) : (deliver x s).basin = s.basin := by
  simp [deliver]

@[simp] theorem stallNearer_basin (s : State) : (stallNearer s).basin = s.basin := (rfl)

@[simp] theorem deliverOldest_basin (s : State) : (deliverOldest s).basin = s.basin := by
  unfold deliverOldest
  split <;> simp

@[simp] theorem deliverAll_basin (s : State) : (deliverAll s).basin = s.basin := by simp [deliverAll]
@[simp] theorem icDoorbell_basin (p : Port) (v : Nat) (s : State) : (icDoorbell p v s).basin = s.basin := (rfl)

@[simp] theorem icSetclr_basin (onMask set : Bool) (v : Nat) (s : State) :
    (icSetclr onMask set v s).basin = s.basin := by simp [icSetclr]

@[simp] theorem icPendSet_basin (p : Port) (i v : Nat) (s : State) : (icPendSet p i v s).basin = s.basin := by
  simp [icPendSet]

@[simp] theorem icMaskSet_basin (p : Port) (i v : Nat) (s : State) : (icMaskSet p i v s).basin = s.basin := (rfl)
@[simp] theorem newProfile_basin (n : Nat) (s : State) : (newProfile n s).basin = s.basin := by simp [newProfile]
@[simp] theorem icSrcSet_basin (n v : Nat) (s : State) : (icSrcSet n v s).basin = s.basin := by simp [icSrcSet]
@[simp] theorem icEoi_basin (t v : Nat) (s : State) : (icEoi t v s).basin = s.basin := by simp [icEoi]
@[simp] theorem icCurpriSet_basin (t v : Nat) (s : State) : (icCurpriSet t v s).basin = s.basin := (rfl)
@[simp] theorem icTcfgSet_basin (t v : Nat) (s : State) : (icTcfgSet t v s).basin = s.basin := (rfl)

@[simp] theorem icWrite_basin (p : Port) (off v : Nat) (s : State) : (icWrite p off v s).basin = s.basin := by
  simp [icWrite]

@[simp] theorem icClaim_basin (p : Port) (t : Nat) (s : State) : (icClaim p t s).2.basin = s.basin := by
  fun_cases icClaim <;> simp

@[simp] theorem icTstat_basin (p : Port) (t : Nat) (s : State) : (icTstat p t s).2.basin = s.basin := by
  unfold icTstat
  split <;> simp

@[simp] theorem icSync_basin (p : Port) (fast : Bool) (s : State) : (icSync p fast s).2.basin = s.basin := by
  unfold icSync
  split <;> simp

@[simp] theorem icStatus_basin (s : State) : (icStatus s).2.basin = s.basin := (rfl)
@[simp] theorem icEvtdrop_basin (n : Nat) (s : State) : (icEvtdrop n s).2.basin = s.basin := (rfl)

@[simp] theorem icRead_basin (p : Port) (off : Nat) (fast : Bool) (s : State) :
    (icRead p off fast s).2.basin = s.basin := by
  fun_cases icRead <;> simp

/-! ## The host ports -/

@[simp] theorem portStorm_basin (p : Port) (s : State) : (portStorm p s).basin = s.basin := by simp [portStorm]

@[simp] theorem portError_basin (p : Port) (code addr : Nat) (s : State) :
    (portError p code addr s).basin = s.basin := by simp [portError]

@[simp] theorem laterError_basin (p : Port) (code addr : Nat) (s : State) :
    (laterError p code addr s).basin = s.basin := by simp [laterError]

@[simp] theorem discardDraw_basin (p : Port) (addr : Nat) (s : State) : (discardDraw p addr s).basin = s.basin := by
  fun_cases discardDraw
  case case1 h => simp +zetaDelta [rngTakeWord_basin h]
  all_goals simp

@[simp] theorem resetPort_wf (p : Port) {s : State} (hs : s.basin.wf) : (resetPort p s).basin.wf := by
  unfold resetPort
  exact foldl_wf (fun s n h => tenantReset_wf n _ h) _ (by split <;> simp [hs])

@[simp] theorem portResetReg_wf (v : Nat) {s : State} (hs : s.basin.wf) : (portResetReg v s).basin.wf := by
  simp [portResetReg, hs]

@[simp] theorem cmdProdSet_basin (n v : Nat) (s : State) : (cmdProdSet n v s).basin = s.basin := by simp [cmdProdSet]

@[simp] theorem rplConsSet_wf (n v : Nat) {s : State} (hs : s.basin.wf) : (rplConsSet n v s).basin.wf := by
  simp [rplConsSet, hs]

@[simp] theorem clearMarks_basin (n : Nat) (s : State) : (clearMarks n s).basin = s.basin := (rfl)
@[simp] theorem evtConsSet_basin (n v : Nat) (s : State) : (evtConsSet n v s).basin = s.basin := by simp [evtConsSet]

@[simp] theorem tenantPageWrite_wf (n off v : Nat) {s : State} (hs : s.basin.wf) :
    (tenantPageWrite n off v s).basin.wf := by simp [tenantPageWrite, hs]

@[simp] theorem paCfgSet_basin (v : Nat) (s : State) : (paCfgSet v s).basin = s.basin := (rfl)

@[simp] theorem setRec_basin (busy : Bool) (verdict status : Nat) (s : State) :
    (setRec busy verdict status s).basin = s.basin := (rfl)

@[simp] theorem recCommand_basin (v : Nat) (s : State) : (recCommand v s).basin = s.basin := by
  fun_cases recCommand
  case case4 h => simp +zetaDelta [nvSubmit_basin h]
  case case9 h => simp +zetaDelta [nvSubmit_basin h]
  all_goals simp +zetaDelta

@[simp] theorem recWriteWord_wf (addr v : Nat) {s : State} (hs : s.basin.wf) : (recWriteWord addr v s).basin.wf := by
  simp [recWriteWord, hs, basinWrite_wf]

@[simp] theorem writeWord_wf (p : Port) (addr v : Nat) {s : State} (hs : s.basin.wf) :
    (writeWord p addr v s).basin.wf := by simp [writeWord, hs, basinWrite_wf]

@[simp] theorem errRead_basin (q : Port) (s : State) : (errRead q s).2.basin = s.basin := by simp [errRead]

@[simp] theorem globalRead_basin (p : Port) (off : Nat) (s : State) : (globalRead p off s).2.basin = s.basin := by
  unfold globalRead
  split <;> simp

@[simp] theorem rngLate_basin (p : Port) (s : State) : (rngLate p s).2.basin = s.basin := by
  unfold rngLate
  split <;> simp

@[simp] theorem rngDataWord_basin (p : Port) (s : State) : (rngDataWord p s).2.basin = s.basin := by
  unfold rngDataWord
  split
  next h => simp [rngTakeWord_basin h]
  next => simp

@[simp] theorem readWord_basin (p : Port) (addr : Nat) (fast : Bool) (s : State) :
    (readWord p addr fast s).2.basin = s.basin := by
  fun_cases readWord <;> simp

@[simp] theorem burstWrite_wf (p : Port) (addr : Nat) (ws : List Word) (failed : Bool) {s : State} (hs : s.basin.wf) :
    (burstWrite p addr ws failed s).2.basin.wf := by
  induction ws generalizing addr failed s with
  | nil => exact hs
  | cons w ws ih =>
    unfold burstWrite
    split
    · exact ih _ _ (by simp [hs])
    · exact ih _ _ (by simp [hs])

@[simp] theorem burstRead_basin (p : Port) (fast : Bool) (addr n : Nat) (failed : Bool) (s : State) :
    (burstRead p fast addr n failed s).2.2.basin = s.basin := by
  induction n generalizing addr failed s with
  | zero => rfl
  | succ n ih =>
    unfold burstRead
    split <;> simp [ih]

@[simp] theorem lateWords_wf (o : OpenTx) {s : State} (hs : s.basin.wf) : (lateWords o s).basin.wf := by
  cases h : o.paCfg <;> simp [lateWords, h, hs]

@[simp] theorem txError_basin (p : Port) (o : OpenTx) (code addr : Nat) (s : State) :
    (txError p o code addr s).basin = s.basin := by simp [txError]

@[simp] theorem endWords_wf (p : Port) (o : OpenTx) (n : Nat) (fin : TxEnd) {s : State} (hs : s.basin.wf) :
    (endWords p o n fin s).basin.wf := by
  unfold endWords
  split <;> simp [hs]

@[simp] theorem closeTx_wf (p : Port) (o : OpenTx) {s : State} (hs : s.basin.wf) : (closeTx p o s).basin.wf := by
  unfold closeTx
  split <;> simp [hs]

@[simp] theorem portBegin_wf (p : Port) {s : State} (hs : s.basin.wf) : (portBegin p s).basin.wf := by
  simp only [portBegin]
  (repeat' split) <;> simp [hs]

@[simp] theorem keepTx_wf (p : Port) (o : OpenTx) (fin : TxEnd) {s : State} (hs : s.basin.wf) :
    (keepTx p o fin s).basin.wf := by
  unfold keepTx
  split <;> simp [hs]

@[simp] theorem silentTx_wf (p : Port) (write : Bool) (fin : TxEnd) {s : State} (hs : s.basin.wf) :
    (silentTx p write fin s).basin.wf := by simp [silentTx, hs]

@[simp] theorem misaligned_wf (p : Port) (write : Bool) (addr n : Nat) (fin : TxEnd) {s : State} (hs : s.basin.wf) :
    (misaligned p write addr n fin s).basin.wf := by simp [misaligned, hs]

@[simp] theorem writeRun_wf (p : Port) (o : OpenTx) (ws : List Word) (fin : TxEnd) {s : State} (hs : s.basin.wf) :
    (writeRun p o ws fin s).basin.wf := by simp [writeRun, hs]

@[simp] theorem portWriteTx_wf (p : Port) (addr : Nat) (ws : List Word) (fin : TxEnd) {s : State} (hs : s.basin.wf) :
    (portWriteTx p addr ws fin s).basin.wf := by simp [portWriteTx, hs]

@[simp] theorem zeroRead_basin (p : Port) (n : Nat) (s : State) : (zeroRead p n s).basin = s.basin := by simp [zeroRead]

@[simp] theorem readRun_wf (p : Port) (o : OpenTx) (n : Nat) (fin : TxEnd) (fast : Bool) {s : State} (hs : s.basin.wf) :
    (readRun p o n fin fast s).basin.wf := by simp [readRun, hs]

@[simp] theorem portReadTx_wf (p : Port) (addr n : Nat) (fin : TxEnd) (fast : Bool) {s : State} (hs : s.basin.wf) :
    (portReadTx p addr n fin fast s).basin.wf := by simp [portReadTx, hs]

@[simp] theorem endStall_wf (st : Stall) (first : Nat) {s : State} (hs : s.basin.wf) :
    (endStall st first s).basin.wf := by simp [endStall, hs]

@[simp] theorem deliverAhead_basin (st : Stall) (s : State) : (deliverAhead st s).basin = s.basin := by
  simp [deliverAhead]

@[simp] theorem stallTimeout_wf (st : Stall) {s : State} (hs : s.basin.wf) : (stallTimeout st s).basin.wf := by
  simp [stallTimeout, hs]

@[simp] theorem cutAddress_wf (p : Port) (addr : List Byte) (tail : List Bool) {s : State} (hs : s.basin.wf) :
    (cutAddress p addr tail s).basin.wf := by simp [cutAddress, hs]

@[simp] theorem closeBurst_basin (p : Port) (s : State) : (closeBurst p s).basin = s.basin := by simp [closeBurst]

@[simp] theorem writeOn_wf (p : Port) (o : OpenTx) (ws : List Word) (fin : TxEnd) {s : State} (hs : s.basin.wf) :
    (writeOn p o ws fin s).basin.wf := by
  fun_cases writeOn <;> simp [hs]

@[simp] theorem readOn_wf (p : Port) (o : OpenTx) (n : Nat) (fin : TxEnd) (fast : Bool) {s : State} (hs : s.basin.wf) :
    (readOn p o n fin fast s).basin.wf := by
  fun_cases readOn <;> simp +zetaDelta [hs]

@[simp] theorem stallOn_wf (n : Nat) (fin : TxEnd) (st : Stall) {s : State} (hs : s.basin.wf) :
    (stallOn n fin st s).basin.wf := by simp [stallOn, hs]

@[simp] theorem execPortWrite_canonical (p : Port) (addr data : List Byte) (tail : List Bool) (held : Bool)
    {s : State} (hs : s.basin.wf) : CanonicalNext (execPortWrite p addr data tail s held) := by
  unfold execPortWrite
  split <;> simp [hs]

@[simp] theorem execPortRead_canonical (p : Port) (addr : List Byte) (tail : List Bool) (n : Nat) (fin : TxEnd)
    (fast : Bool) {s : State} (hs : s.basin.wf) : CanonicalNext (execPortRead p addr tail n s fin fast) := by
  unfold execPortRead
  split <;> simp [hs]

@[simp] theorem execPortReadDataReady_canonical {s : State} (hs : s.basin.wf) :
    CanonicalNext (execPortReadDataReady s) := by
  unfold execPortReadDataReady
  (repeat' split)
  next => simp [hs]
  next => simp [hs]
  next h => simp [rngTakeWord_basin h, hs]
  all_goals simp [hs]

@[simp] theorem execPortStallLimit_canonical {s : State} (hs : s.basin.wf) : CanonicalNext (execPortStallLimit s) := by
  unfold execPortStallLimit
  split <;> simp [hs]

@[simp] theorem execRngWaitTimeout_canonical {s : State} (hs : s.basin.wf) : CanonicalNext (execRngWaitTimeout s) := by
  unfold execRngWaitTimeout
  split <;> simp [hs]

@[simp] theorem beginTx_wf (p : Port) {f : State → State} (hf : ∀ s, s.basin.wf → (f s).basin.wf) {s : State}
    (hs : s.basin.wf) : (beginTx p f s).basin.wf := by
  fun_cases beginTx <;> simp +zetaDelta [hf, hs]

@[simp] theorem beginError_wf (p : Port) (code : Nat) {s : State} (hs : s.basin.wf) :
    (beginError p code s).basin.wf := beginTx_wf p (fun s h => by simp [h]) hs

@[simp] theorem execPortBadCommand_canonical (p : Port) (cmd : List Byte) (part : Bool) {s : State} (hs : s.basin.wf) :
    CanonicalNext (execPortBadCommand p s cmd part) := by
  unfold execPortBadCommand
  dsimp only
  (repeat' split) <;> simp [hs]

/-! ## Ends of NV jobs, and firmware -/

@[simp] theorem preEraseFw_basin (b : Bool) (s : State) : (preEraseFw b s).basin = s.basin := by simp [preEraseFw]
@[simp] theorem preEraseCal_basin (b : Bool) (s : State) : (preEraseCal b s).basin = s.basin := by simp [preEraseCal]
@[simp] theorem queueDeadSectors_basin (s : State) : (queueDeadSectors s).basin = s.basin := (rfl)
@[simp] theorem queueLogErase_basin (s : State) : (queueLogErase s).basin = s.basin := by simp [queueLogErase]

@[simp] theorem advanceArc_basin (v : Nat) (s : State) : (advanceArc v s).basin = s.basin := by
  fun_cases advanceArc <;> simp

@[simp] theorem recordDone_basin (j : NvJob) (s : State) : (recordDone j s).basin = s.basin := by
  unfold recordDone
  split <;> simp

@[simp] theorem recordLost_basin (j : NvJob) (s : State) : (recordLost j s).basin = s.basin := by
  unfold recordLost
  split <;> simp

@[simp] theorem recDone_basin (status : Nat) (s : State) : (recDone status s).basin = s.basin := by simp [recDone]
@[simp] theorem dropJobs_basin (l : LaneId) (s : State) : (dropJobs l s).basin = s.basin := (rfl)

@[simp] theorem jobFail_wf (status : Nat) (j : NvJob) {s : State} (hs : s.basin.wf) :
    (jobFail status j s).basin.wf := by
  unfold jobFail
  split <;> simp [hs]

@[simp] theorem jobRefused_wf (j : NvJob) {s : State} (hs : s.basin.wf) : (jobRefused j s).basin.wf := by
  unfold jobRefused
  split <;> simp [hs]

@[simp] theorem nextJob_wf (k : Nat) {s : State} (hs : s.basin.wf) : (nextJob k s).basin.wf := by
  fun_induction nextJob <;> simp +zetaDelta [*]

@[simp] theorem clearJob_basin (s : State) : (clearJob s).basin = s.basin := (rfl)
@[simp] theorem advanceJobs_wf {s : State} (hs : s.basin.wf) : (advanceJobs s).basin.wf := by simp [advanceJobs, hs]

@[simp] theorem afterUse_wf (j : NvJob) {s : State} (hs : s.basin.wf) : (afterUse j s).basin.wf := by
  fun_cases afterUse <;> simp [hs]

@[simp] theorem jobReply_wf (l : LaneId) (e : Exec) (own : Option Nat) {s : State} (hs : s.basin.wf) :
    (jobReply l e own s).basin.wf := by simp [jobReply, hs]

@[simp] theorem jobDone_wf (j : NvJob) {s : State} (hs : s.basin.wf) : (jobDone j s).basin.wf := by
  refine afterUse_wf j (advanceJobs_wf ?_)
  (repeat' split) <;> simp [hs]

@[simp] theorem jobMismatch_wf (j : NvJob) {s : State} (hs : s.basin.wf) : (jobMismatch j s).basin.wf := by
  refine advanceJobs_wf ?_
  split <;> simp [hs]

@[simp] theorem stopJobs_basin (l : LaneId) (st : Nat) (s : State) : (stopJobs l st s).basin = s.basin := by
  fun_cases stopJobs <;> simp +zetaDelta

@[simp] theorem forsakeJobs_basin (id st : Nat) (s : State) : (forsakeJobs id st s).basin = s.basin := by
  simp [forsakeJobs]

@[simp] theorem stopNv_basin (l : LaneId) (st : Nat) (e : Exec) (s : State) : (stopNv l st e s).basin = s.basin := by
  simp [stopNv]

@[simp] theorem holdJobs_basin (l : LaneId) (id : Nat) (s : State) : (holdJobs l id s).basin = s.basin := (rfl)
@[simp] theorem wakeJobs_wf {s : State} (hs : s.basin.wf) : (wakeJobs s).basin.wf := by simp [wakeJobs, hs]

@[simp] theorem resumeJobs_wf (id : Nat) {s : State} (hs : s.basin.wf) : (resumeJobs id s).basin.wf := by
  simp [resumeJobs, hs]

@[simp] theorem suspendHere_wf (l : LaneId) (e : Exec) {s : State} (hs : s.basin.wf) :
    (suspendHere l e s).basin.wf := by simp [suspendHere, hs]

@[simp] theorem jobYield_wf (j : NvJob) {s : State} (hs : s.basin.wf) : (jobYield j s).basin.wf := by
  fun_cases jobYield <;> simp [hs]

@[simp] theorem progPage_basin (b : Bool) (off i : Nat) (bytes : List Byte) (s : State) :
    (progPage b off i bytes s).basin = s.basin := (rfl)

@[simp] theorem programmed_basin (j : NvJob) (left : Nat) (s : State) : (programmed j left s).basin = s.basin := by
  unfold programmed
  split <;> simp

@[simp] theorem setStage_basin (g : JobStage) (s : State) : (setStage g s).basin = s.basin := (rfl)

@[simp] theorem readBack_wf (j : NvJob) (mismatch uncorrectable : Bool) (corrected : Nat) {s : State}
    (hs : s.basin.wf) : (readBack j mismatch uncorrectable corrected s).basin.wf := by simp [readBack, hs]

@[simp] theorem nvProgramDone_wf (mismatch uncorrectable : Bool) (corrected : Nat) (j : NvJob) {s : State}
    (hs : s.basin.wf) : (nvProgramDone mismatch uncorrectable corrected j s).basin.wf := by
  unfold nvProgramDone
  split <;> simp [hs]

@[simp] theorem execNvProgramDone_canonical (mismatch uncorrectable : Bool) (corrected : Nat) {s : State}
    (hs : s.basin.wf) : CanonicalNext (execNvProgramDone mismatch uncorrectable corrected s) := by
  unfold execNvProgramDone
  (repeat' split) <;> simp [hs]

@[simp] theorem jobErased_basin (j : NvJob) (left : Nat) (s : State) : (jobErased j left s).basin = s.basin := by
  unfold jobErased
  split <;> simp

@[simp] theorem startBody_basin (j : NvJob) (s : State) : (startBody j s).basin = s.basin := by simp [startBody]

@[simp] theorem eraseFinished_wf (j : NvJob) {s : State} (hs : s.basin.wf) : (eraseFinished j s).basin.wf := by
  unfold eraseFinished
  split <;> simp [hs]

@[simp] theorem jobEraseDone_wf (j : NvJob) (left : Nat) {s : State} (hs : s.basin.wf) :
    (jobEraseDone j left s).basin.wf := by simp [jobEraseDone, hs]

@[simp] theorem keyEraseOver_wf {s : State} (hs : s.basin.wf) : (keyEraseOver s).basin.wf := by
  unfold keyEraseOver
  split <;> simp [hs]

@[simp] theorem bgStart_basin (s : State) : (bgStart s).basin = s.basin := by
  fun_cases bgStart <;> simp

@[simp] theorem bgErased_wf {s : State} (hs : s.basin.wf) : (bgErased s).basin.wf := by
  fun_cases bgErased <;> simp +zetaDelta [hs]

@[simp] theorem execNvEraseDone_canonical {s : State} (hs : s.basin.wf) : CanonicalNext (execNvEraseDone s) := by
  unfold execNvEraseDone
  (repeat' split) <;> simp [hs]

@[simp] theorem fwStageBlock_wf (e : Exec) {s : State} (hs : s.basin.wf) : (fwStageBlock e s).basin.wf := by
  fun_cases fwStageBlock
  case case3 h => simp +zetaDelta [nvSubmit_basin h, hs]
  all_goals simp [hs]

@[simp] theorem fwVerify_wf (ecc : EccRead) (e : Exec) {s0 : State} (hs : s0.basin.wf) :
    (fwVerify ecc e s0).basin.wf := by simp [fwVerify, hs]

@[simp] theorem fwActivate_wf (e : Exec) {s : State} (hs : s.basin.wf) : (fwActivate e s).basin.wf := by
  fun_cases fwActivate
  case case4 h => simp +zetaDelta [nvSubmit_basin h, hs]
  all_goals simp [hs]

@[simp] theorem confirmTry_basin (s : State) : (confirmTry s).basin = s.basin := by
  fun_cases confirmTry
  case case3 =>
    cases h : nvSubmit _ s with
    | none => simp
    | some t => simp [nvSubmit_basin h]
  all_goals simp

@[simp] theorem execFaultLogCommit_canonical {s : State} (hs : s.basin.wf) : CanonicalNext (execFaultLogCommit s) := by
  unfold execFaultLogCommit
  (repeat' split)
  next => simp [hs]
  next => simp [hs]
  next r _ _ =>
    cases h : nvSubmit (nvJob (.log r) none (0xE90 + s.nv.logPos / 4) 0) s with
    | none => simp [hs]
    | some t => simp [nvSubmit_basin h, hs]

/-! ## Card emulation -/

@[simp] theorem emuConfigure_wf (e : Exec) {s : State} (hs : s.basin.wf) : (emuConfigure e s).basin.wf := by
  simp [emuConfigure, hs]

@[simp] theorem emuField_basin (s : State) : (emuField s).basin = s.basin := by
  fun_cases emuField
  case case5 h => simp +zetaDelta [rngDraw1_basin h]
  all_goals simp

@[simp] theorem emuListen_basin (uid : List Byte) (s : State) : (emuListen uid s).basin = s.basin := by simp [emuListen]

@[simp] theorem armDraw_wf (since : Nat) {s : State} (hs : s.basin.wf) : (armDraw since s).basin.wf := by
  unfold armDraw
  split
  next h => simp [rngDraw1_basin h, hs]
  next => simp [hs]

@[simp] theorem emuArm_wf (e : Exec) {s : State} (hs : s.basin.wf) : (emuArm e s).basin.wf := by
  unfold emuArm
  split <;> simp [hs]

@[simp] theorem emuRespondLost_wf {s : State} (hs : s.basin.wf) : (emuRespondLost s).basin.wf := by
  unfold emuRespondLost
  split <;> simp [hs]

@[simp] theorem emuFieldLost_wf {s : State} (hs : s.basin.wf) : (emuFieldLost s).basin.wf := by simp [emuFieldLost, hs]
@[simp] theorem emuSend_basin (f : HfFrame) (s : State) : (emuSend f s).basin = s.basin := (rfl)
@[simp] theorem emuError_basin (s : State) : (emuError s).basin = s.basin := (rfl)

@[simp] theorem emuSelected_basin (dsi dri : Nat) (s : State) : (emuSelected dsi dri s).basin = s.basin := by
  simp [emuSelected]

@[simp] theorem emuFirstBlock_basin (s : State) : (emuFirstBlock s).basin = s.basin := by
  unfold emuFirstBlock
  split <;> simp

@[simp] theorem emuNextBlock_basin (s : State) : (emuNextBlock s).basin = s.basin := (rfl)

@[simp] theorem emuCommand_wf {s : State} (hs : s.basin.wf) : (emuCommand s).basin.wf := by
  simp [emuCommand, hs, poundWrite_wf]

@[simp] theorem emuIBlockIn_wf (chain : Bool) (inf : List Byte) {s : State} (hs : s.basin.wf) :
    (emuIBlockIn chain inf s).basin.wf := by simp [emuIBlockIn, hs]

@[simp] theorem emuRBlockIn_basin (nak n : Bool) (s : State) : (emuRBlockIn nak n s).basin = s.basin := by
  fun_cases emuRBlockIn <;> simp

@[simp] theorem emuProtocol_wf (f : EmuFrame) {s : State} (hs : s.basin.wf) : (emuProtocol f s).basin.wf := by
  fun_cases emuProtocol <;> simp +zetaDelta [hs]

@[simp] theorem emuLayer3_basin (f : EmuFrame) (s : State) : (emuLayer3 f s).basin = s.basin := by
  unfold emuLayer3
  split <;> simp

@[simp] theorem execEmuRxFrame_canonical (f : EmuFrame) (clipped : Bool) (res : FrameResult) {s : State}
    (hs : s.basin.wf) :
    CanonicalNext (execEmuRxFrame f s clipped res) := canonicalNext_withWaiting (fun s h => by split <;> simp [h]) hs

@[simp] theorem emuAnswer_basin (bs : List Byte) (s : State) : (emuAnswer bs s).basin = s.basin := by simp [emuAnswer]

@[simp] theorem emuRespond_wf (e : Exec) {s : State} (hs : s.basin.wf) : (emuRespond e s).basin.wf := by
  simp [emuRespond, hs]

@[simp] theorem emuBlockSent_wf {s : State} (hs : s.basin.wf) : (emuBlockSent s).basin.wf := by
  unfold emuBlockSent
  split <;> simp [hs]

/-! ## Peer mode -/

@[simp] theorem answerSense_basin (s : State) : (answerSense s).basin = s.basin := (rfl)

@[simp] theorem peerSend_basin (f : HfFrame) (s : State) : (peerSend f s).basin = s.basin := by
  unfold peerSend
  split <;> simp

@[simp] theorem peerSendData_basin (s : State) : (peerSendData s).basin = s.basin := by
  unfold peerSendData
  split <;> simp

@[simp] theorem sendSwap_basin (want : Bool) (s : State) : (sendSwap want s).basin = s.basin := by
  unfold sendSwap
  split <;> simp

@[simp] theorem peerBegin_wf (p : Packet) (ws : List Half) {s : State} (hs : s.basin.wf) :
    (peerBegin p ws s).basin.wf := by simp [peerBegin, hs]

@[simp] theorem peerDraw_wf (since : Nat) (p : Packet) {s : State} (hs : s.basin.wf) :
    (peerDraw since p s).basin.wf := by
  unfold peerDraw
  split
  next h => simp [rngDraw1_basin h, hs]
  next => simp [hs]

@[simp] theorem peerStart_wf (e : Exec) {s : State} (hs : s.basin.wf) : (peerStart e s).basin.wf := by
  simp [peerStart, hs]

@[simp] theorem peerFieldUp_basin (s : State) : (peerFieldUp s).basin = s.basin := by
  unfold peerFieldUp
  split <;> simp

@[simp] theorem swapEvent_basin (swapped failed : Bool) (s : State) : (swapEvent swapped failed s).basin = s.basin := by
  unfold swapEvent
  split <;> simp

@[simp] theorem swapReply_wf (status : Nat) (swapped : Bool) {s : State} (hs : s.basin.wf) :
    (swapReply status swapped s).basin.wf := by simp [swapReply, hs]

@[simp] theorem swapKept_wf {s : State} (hs : s.basin.wf) : (swapKept s).basin.wf := by simp [swapKept, hs]
@[simp] theorem swapFailed_wf {s : State} (hs : s.basin.wf) : (swapFailed s).basin.wf := by simp [swapFailed, hs]

@[simp] theorem swapRoles_basin (s : State) : (swapRoles s).basin = s.basin := by
  unfold swapRoles
  split <;> simp

@[simp] theorem swapWaits_basin (length : Bool) (s : State) : (swapWaits length s).basin = s.basin := by
  simp [swapWaits]

@[simp] theorem tieDraw_basin (s : State) : (tieDraw s).basin = s.basin := by
  unfold tieDraw
  split
  next h => simp [rngDraw1_basin h]
  next => simp

@[simp] theorem swapTie_wf {s : State} (hs : s.basin.wf) : (swapTie s).basin.wf := by
  fun_cases swapTie <;> simp +zetaDelta [hs]

@[simp] theorem swapCompare_wf {s : State} (hs : s.basin.wf) : (swapCompare s).basin.wf := by
  unfold swapCompare
  split <;> simp [hs]

@[simp] theorem keepGb_wf (gb : List Byte) {s : State} (hs : s.basin.wf) : (keepGb gb s).basin.wf := by
  unfold keepGb
  split <;> simp [hs, poundWrite_wf]

@[simp] theorem gotAtrReq_wf (gb : List Byte) {s : State} (hs : s.basin.wf) : (gotAtrReq gb s).basin.wf := by
  unfold gotAtrReq
  split <;> simp [hs]

@[simp] theorem gotAtrRes_wf (nfcid gb : List Byte) (toc : Nat) {s : State} (hs : s.basin.wf) :
    (gotAtrRes nfcid gb toc s).basin.wf := by
  fun_cases gotAtrRes <;> simp +zetaDelta [hs]

@[simp] theorem storeData_wf (data : List Byte) {s : State} (hs : s.basin.wf) : (storeData data s).basin.wf := by
  unfold storeData
  split <;> simp [hs, poundWrite_wf]

@[simp] theorem swapEnds_wf (status code : Nat) {s : State} (hs : s.basin.wf) : (swapEnds status code s).basin.wf := by
  simp [swapEnds, hs]

@[simp] theorem swapLost_wf (code : Nat) {s : State} (hs : s.basin.wf) : (swapLost code s).basin.wf := by
  simp [swapLost, hs]

@[simp] theorem peerBad_wf {s : State} (hs : s.basin.wf) : (peerBad s).basin.wf := by simp [peerBad, hs]

@[simp] theorem initiatorData_wf (bs : List Byte) {s : State} (hs : s.basin.wf) : (initiatorData bs s).basin.wf := by
  simp [initiatorData, hs]

@[simp] theorem swapDropped_basin (s : State) : (swapDropped s).basin = s.basin := by simp [swapDropped]

@[simp] theorem targetData_wf (bs : List Byte) {s0 : State} (hs : s0.basin.wf) : (targetData bs s0).basin.wf := by
  fun_cases targetData <;> simp +zetaDelta [hs]

@[simp] theorem gotDep_wf (more : Bool) (data : List Byte) {s : State} (hs : s.basin.wf) :
    (gotDep more data s).basin.wf := by
  unfold gotDep
  split <;> simp [hs]

@[simp] theorem gotRelease_basin (s : State) : (gotRelease s).basin = s.basin := by simp [gotRelease]

@[simp] theorem peerNext_wf (f : PeerFrame) {s : State} (hs : s.basin.wf) : (peerNext f s).basin.wf := by
  fun_cases peerNext <;> simp [hs]

@[simp] theorem peerRx_wf (f : PeerFrame) (m : RxMeas) (clipped : Bool) (res0 : FrameResult) {s : State}
    (hs : s.basin.wf) : (peerRx f m clipped res0 s).basin.wf := by simp [peerRx, hs]

@[simp] theorem execPeerRxFrame_canonical (f : PeerFrame) (m : RxMeas) (clipped : Bool) (res : FrameResult)
    {s : State} (hs : s.basin.wf) :
    CanonicalNext (execPeerRxFrame f m s clipped res) := canonicalNext_withWaiting (fun s h => by split <;> simp [h]) hs

@[simp] theorem peerExchange_wf (e : Exec) {s : State} (hs : s.basin.wf) : (peerExchange e s).basin.wf := by
  unfold peerExchange
  split <;> simp [hs]

@[simp] theorem execPeerRtox_canonical {s : State} (hs : s.basin.wf) : CanonicalNext (execPeerRtox s) := by
  unfold execPeerRtox
  split <;> simp [hs]

@[simp] theorem swapRequest_basin (draw : Nat) (s : State) : (swapRequest draw s).basin = s.basin := by
  fun_cases swapRequest <;> simp +zetaDelta

@[simp] theorem swapDraw_basin (since : Nat) (s : State) : (swapDraw since s).basin = s.basin := by
  unfold swapDraw
  split
  next h => simp [rngDraw1_basin h]
  next => simp

@[simp] theorem peerRoleSwap_wf (e : Exec) {s : State} (hs : s.basin.wf) : (peerRoleSwap e s).basin.wf := by
  simp [peerRoleSwap, hs]

@[simp] theorem backoffEnd_basin (draw : Nat) (s : State) : (backoffEnd draw s).basin = s.basin := by
  fun_cases backoffEnd <;> simp +zetaDelta

@[simp] theorem backoffDraw_basin (s : State) : (backoffDraw s).basin = s.basin := by
  unfold backoffDraw
  split
  next h => simp [rngDraw1_basin h]
  next => simp

@[simp] theorem execSwapBackoffEnd_canonical {s : State} (hs : s.basin.wf) : CanonicalNext (execSwapBackoffEnd s) :=
  canonicalNext_withWaiting (fun s h => by split <;> simp [h]) hs

@[simp] theorem peerFieldSeen_wf {s : State} (hs : s.basin.wf) : (peerFieldSeen s).basin.wf := by
  unfold peerFieldSeen
  split <;> simp [hs]

@[simp] theorem swapSense_basin (s : State) : (swapSense s).basin = s.basin := by
  unfold swapSense
  split
  next h => simp [rngDraw1_basin h]
  next => simp

@[simp] theorem swapDrawAgain_basin (s : State) : (swapDrawAgain s).basin = s.basin := by
  fun_cases swapDrawAgain <;> simp

@[simp] theorem execSwapGapEnd_canonical (sensed : Bool) {s : State} (hs : s.basin.wf) :
    CanonicalNext (execSwapGapEnd sensed s) := canonicalNext_withWaiting (fun s h => by split <;> simp [h]) hs

@[simp] theorem execSwapReactivationTimeout_canonical {s : State} (hs : s.basin.wf) :
    CanonicalNext (execSwapReactivationTimeout s) := canonicalNext_withWaiting (fun s h => by split <;> simp [h]) hs

@[simp] theorem peerEnd_wf {s : State} (hs : s.basin.wf) : (peerEnd s).basin.wf := by simp [peerEnd, hs]

@[simp] theorem peerFrameEnd_wf (f : HfFrame) {s : State} (hs : s.basin.wf) : (peerFrameEnd f s).basin.wf := by
  fun_cases peerFrameEnd <;> simp +zetaDelta [hs]

@[simp] theorem peerSilent_wf {s : State} (hs : s.basin.wf) : (peerSilent s).basin.wf := by
  unfold peerSilent
  split <;> simp [hs]

@[simp] theorem peerFieldDown_basin (s : State) : (peerFieldDown s).basin = s.basin := by
  unfold peerFieldDown
  split <;> simp

@[simp] theorem execOtherFieldEnds_canonical {s : State} (hs : s.basin.wf) : CanonicalNext (execOtherFieldEnds s) :=
  canonicalNext_withWaiting (fun s h => by split <;> simp [h]) hs

@[simp] theorem peerStop_wf (e : Exec) {s : State} (hs : s.basin.wf) : (peerStop e s).basin.wf := by
  unfold peerStop
  split <;> simp [hs]

@[simp] theorem extWindow_wf (peak : Nat) {s : State} (hs : s.basin.wf) : (extWindow peak s).basin.wf := by
  simp [extWindow, hs]

@[simp] theorem execExternalFieldDetected_canonical (peak : Nat) {s : State} (hs : s.basin.wf) :
    CanonicalNext (execExternalFieldDetected s peak) := canonicalNext_withWaiting (fun s h => by simp [h]) hs

@[simp] theorem execExternalFieldGone_canonical {s : State} (hs : s.basin.wf) :
    CanonicalNext (execExternalFieldGone s) := canonicalNext_withWaiting (fun s h => by split <;> simp [h]) hs

@[simp] theorem execAgcWindow_canonical (c : Chain) (peak : Nat) (clip : Bool) (sof : Bool) {s : State}
    (hs : s.basin.wf) : CanonicalNext (execAgcWindow c peak clip s sof) :=
  canonicalNext_withWaiting (fun s h => by (repeat' split) <;> simp [h]) hs

/-! ## Entropy and draws -/

@[simp] theorem setFails_basin (noise : Bool) (n : Nat) (s : State) : (setFails noise n s).basin = s.basin := (rfl)
@[simp] theorem stopSource_basin (noise : Bool) (s : State) : (stopSource noise s).basin = s.basin := (rfl)
@[simp] theorem rngFence_basin (noise : Bool) (s : State) : (rngFence noise s).basin = s.basin := by simp [rngFence]
@[simp] theorem setTest_basin (noise : Bool) (t : HealthTest) (s : State) : (setTest noise t s).basin = s.basin := (rfl)

@[simp] theorem blockPassed_basin (noise : Bool) (raw : List Byte) (s : State) :
    (blockPassed noise raw s).basin = s.basin := (rfl)

@[simp] theorem blockFailed_basin (noise : Bool) (test : Nat) (s : State) :
    (blockFailed noise test s).basin = s.basin := by simp [blockFailed]

@[simp] theorem readGo_wf (e : Exec) (k done since : Nat) {s : State} (hs : s.basin.wf) :
    (readGo e k done since s).basin.wf := by
  fun_induction readGo
  case case3 h ih => simp [ih, rngGenerate_basin h, hs, poundWrite_wf]
  all_goals simp [hs]

@[simp] theorem readFrom_wf (e : Exec) (done since : Nat) {s : State} (hs : s.basin.wf) :
    (readFrom e done since s).basin.wf := by simp [readFrom, hs]

@[simp] theorem rngRead_wf (e : Exec) {s : State} (hs : s.basin.wf) : (rngRead e s).basin.wf := by simp [rngRead, hs]

@[simp] theorem drawHf_wf (e : Exec) (since : Nat) {s : State} (hs : s.basin.wf) : (drawHf e since s).basin.wf := by
  unfold drawHf
  split <;> simp [hs]

@[simp] theorem drawAgain_wf (l : LaneId) {s : State} (hs : s.basin.wf) : (drawAgain l s).basin.wf := by
  fun_cases drawAgain <;> simp [hs]

@[simp] theorem serveCall_wf (x : DrawCall) {s : State} (hs : s.basin.wf) : (serveCall s x).basin.wf := by
  unfold serveCall
  split
  · exact withWaiting_wf (fun s h => by simp [h]) _ _ hs
  · exact withWaiting_wf (fun s h => drawAgain_wf _ h) _ _ hs

@[simp] theorem serveDraws_wf {s : State} (hs : s.basin.wf) : (serveDraws s).basin.wf := by
  simp only [serveDraws, rngRefillPort_basin]
  exact foldl_wf (fun s x h => serveCall_wf x h) _ (by simp [hs])

@[simp] theorem execDrawTimeout_canonical (l : LaneId) {s : State} (hs : s.basin.wf) :
    CanonicalNext (execDrawTimeout l s) :=
  canonicalNext_withWaiting (fun s h => by (repeat' split) <;> simp [h]) hs

@[simp] theorem katFences_basin (t : Nat) (s : State) : (katFences t s).basin = s.basin := by simp [katFences]

@[simp] theorem restartSources_basin (m : Nat) (s : State) : (restartSources m s).basin = s.basin := by
  simp [restartSources]

/-! ## The lock cycle and RESET_TENANT -/

@[simp] theorem swapTable_basin (s : State) : (swapTable s).basin = s.basin := (rfl)

@[simp] theorem recheck_wf {s : State} (hs : s.basin.wf) : (recheck s).2.basin.wf :=
  foldl_wf (fun _ n h => withdrawWaits_wf .uhf n 0x51 h) _
    (foldl_wf (fun _ n h => withdrawWaits_wf .hf n 0x51 h) _ (foldl_wf (fun _ p h => answer_wf p 0x51 h) _ hs))

@[simp] theorem startWithdrawal_basin (old : List Word) (s : State) : (startWithdrawal old s).basin = s.basin := by
  simp [startWithdrawal, foldl_basin fun s n => onTenant_basin n _ s]

@[simp] theorem lockRun_wf (p : Packet) {s : State} (hs : s.basin.wf) : (lockRun p s).2.2.basin.wf := by
  unfold lockRun
  split <;> simp [hs]

@[simp] theorem lockCycle_wf (e : Exec) {s : State} (hs : s.basin.wf) : (lockCycle e s).basin.wf := by
  simp [lockCycle, hs]

@[simp] theorem execLockCycleDeferredStart_canonical {s : State} (hs : s.basin.wf) :
    CanonicalNext (execLockCycleDeferredStart s) := by
  unfold execLockCycleDeferredStart
  split <;> simp [hs]

@[simp] theorem withdraw_wf (w : Nat × Option Chain) {s : State} (hs : s.basin.wf) : (withdraw w s).basin.wf := by
  unfold withdraw
  split
  next => split <;> simp [hs]
  next =>
    refine drainTenant_wf _ (withdrawWaits_wf .uhf _ _ (withdrawWaits_wf .hf _ _ ?_))
    (repeat' split) <;> simp [hs]

@[simp] theorem samWithdraw_basin (k : Nat) (s : State) : (samWithdraw k s).basin = s.basin := by
  unfold samWithdraw
  split <;> simp

@[simp] theorem resetTenant_wf (e : Exec) {s : State} (hs : s.basin.wf) : (resetTenant e s).basin.wf := by
  simp [resetTenant, hs]

/-! ## Resets -/

/-- Every reset leaves the Basin empty. -/
@[simp] theorem surroundings_wf (s : State) : (surroundings s).basin.wf := reset_wf

@[simp] theorem resetPowerOn_wf (s : State) : (resetPowerOn s).basin.wf := surroundings_wf s
@[simp] theorem resetWarm_wf (cause : Nat) (s : State) : (resetWarm cause s).basin.wf := surroundings_wf s

@[simp] theorem resetWatchdog_wf (origin reason : Nat) (s : State) : (resetWatchdog origin reason s).basin.wf :=
  surroundings_wf s

@[simp] theorem powerOff_wf (s : State) : (powerOff s).basin.wf := surroundings_wf s

theorem canonicalNext_withinRating {vin : Nat} {t : State} (ht : t.basin.wf) : CanonicalNext (withinRating vin t) := by
  unfold withinRating
  split <;> simp [CanonicalNext, ht]

@[simp] theorem execPowerOnReset_canonical (vin : Nat) {s : State} (hs : s.basin.wf) :
    CanonicalNext (execPowerOnReset vin s) := canonicalNext_withinRating (by simp [hs])

@[simp] theorem execFwActivationReset_canonical {s : State} (hs : s.basin.wf) :
    CanonicalNext (execFwActivationReset s) := by
  unfold execFwActivationReset
  split <;> simp [hs]

@[simp] theorem coresStart_basin (s : State) : (coresStart s).basin = s.basin := (rfl)

/-! ## Start-up -/

@[simp] theorem abandonBank_basin (b : Bool) (s : State) : (abandonBank b s).basin = s.basin := by simp [abandonBank]
@[simp] theorem bootFrom_basin (b : Bool) (s : State) : (bootFrom b s).basin = s.basin := (rfl)
@[simp] theorem heldFences_basin (s : State) : (heldFences s).basin = s.basin := (rfl)
@[simp] theorem startClocks_basin (env : StartEnv) (s : State) : (startClocks env s).basin = s.basin := (rfl)
@[simp] theorem armComparator_basin (s : State) : (armComparator s).basin = s.basin := (rfl)

@[simp] theorem startFirmware_basin (env : StartEnv) (b : Bool) (s : State) :
    (startFirmware env b s).basin = s.basin := by simp [startFirmware]

@[simp] theorem startUp_basin (env : StartEnv) (s : State) : (startUp env s).basin = s.basin := by
  fun_cases startUp <;> simp +zetaDelta

@[simp] theorem execStartUp_canonical (env : StartEnv) {s : State} (hs : s.basin.wf) :
    CanonicalNext (execStartUp env s) := canonicalNext_withinRating (by simp [hs])

/-! ## UNFENCE and the scrubber -/

@[simp] theorem unfenceDone_wf (named : List Nat) {s : State} (hs : s.basin.wf) : (unfenceDone named s).basin.wf := by
  simp [unfenceDone, hs]

@[simp] theorem testNext_wf (op : TestOp) {s : State} (hs : s.basin.wf) : (testNext op s).basin.wf := by
  unfold testNext
  split <;> simp [hs]

@[simp] theorem unfence_wf (failing : List Nat) (rl : Nat) (ecc : EccRead) (e : Exec) {s : State} (hs : s.basin.wf) :
    (unfence failing rl ecc e s).basin.wf := by simp [unfence, hs]

@[simp] theorem doubleError_wf (a : Nat) {s : State} (hs : s.basin.wf) : (doubleError a s).basin.wf := by
  have hlost : (ctrAdd 2 1 (wordLost a s)).basin.wf := by simp [wordLost_wf, hs]
  unfold doubleError
  dsimp only
  split
  · rw [logRecord_basin]
    split
    · rw [raise_basin]
      exact hlost
    · exact hlost
  · exact resetWatchdog_wf ..

/-! ## Pins -/

@[simp] theorem gpioSet_wf (e : Exec) {s : State} (hs : s.basin.wf) : (gpioSet e s).basin.wf := by simp [gpioSet, hs]

@[simp] theorem setPinLevel_basin (n : Nat) (level : Bool) (s : State) : (setPinLevel n level s).basin = s.basin :=
  (rfl)

/-! ## Ends of frames, rises and falls -/

@[simp] theorem hfWindow_basin (s : State) : (hfWindow s).basin = s.basin := (rfl)

@[simp] theorem hfSentFrame_wf (f : HfFrame) {s : State} (hs : s.basin.wf) : (hfSentFrame f s).basin.wf := by
  simp [hfSentFrame, hs]

@[simp] theorem hfFrameEnd_wf {s : State} (hs : s.basin.wf) : (hfFrameEnd s).basin.wf := by
  unfold hfFrameEnd
  split <;> simp [hs]

@[simp] theorem uhfFrameEnd_wf {s : State} (hs : s.basin.wf) : (uhfFrameEnd s).basin.wf := by
  unfold uhfFrameEnd
  split <;> simp [hs]

@[simp] theorem execReaderFrameEnd_canonical (c : Chain) {s : State} (hs : s.basin.wf) :
    CanonicalNext (execReaderFrameEnd c s) := by
  cases c
  · exact canonicalNext_withWaiting (fun s h => hfFrameEnd_wf h) hs
  · simp [execReaderFrameEnd, hs]

@[simp] theorem hfSilence_wf {s : State} (hs : s.basin.wf) : (hfSilence s).basin.wf := by simp [hfSilence, hs]
@[simp] theorem uhfSilence_wf {s : State} (hs : s.basin.wf) : (uhfSilence s).basin.wf := by simp [uhfSilence, hs]

@[simp] theorem execReplyWindowTimeout_canonical (c : Chain) {s : State} (hs : s.basin.wf) :
    CanonicalNext (execReplyWindowTimeout c s) := by
  unfold execReplyWindowTimeout
  cases c
  · dsimp only
    split
    · exact canonicalNext_withWaiting (fun s h => hfSilence_wf h) hs
    · simp [hs]
  · simp [hs]

@[simp] theorem hfMeasured_basin (e : Exec) (vals : List Int) (body : List Byte) (s : State) :
    (hfMeasured e vals body s).basin = s.basin := by simp [hfMeasured]

@[simp] theorem hfRisen_wf {s : State} (hs : s.basin.wf) : (hfRisen s).basin.wf := by
  unfold hfRisen
  split <;> simp [hs]

@[simp] theorem fieldUp_wf (iAnt drive : Nat) {s : State} (hs : s.basin.wf) : (fieldUp iAnt drive s).basin.wf := by
  simp [fieldUp, hs]

@[simp] theorem fieldSettled_wf (iAnt drive : Nat) {s : State} (hs : s.basin.wf) :
    (fieldSettled iAnt drive s).basin.wf := by simp [fieldSettled, hs]

@[simp] theorem execFieldRiseDone_canonical (iAnt : Nat) (drive : Nat) {s : State} (hs : s.basin.wf) :
    CanonicalNext (execFieldRiseDone iAnt s drive) := canonicalNext_withWaiting (fun s h => by split <;> simp [h]) hs

@[simp] theorem hfFellPacket_wf {s : State} (hs : s.basin.wf) : (hfFellPacket s).basin.wf := by
  fun_cases hfFellPacket <;> simp [hs]

@[simp] theorem releaseFell_wf (c : Chain) {s : State} (hs : s.basin.wf) : (releaseFell c s).basin.wf := by
  simp [releaseFell, hs]

@[simp] theorem deselectFell_wf (l : LaneId) {s : State} (hs : s.basin.wf) : (deselectFell l s).basin.wf :=
  withWaiting_wf (fun s h => by (repeat' split) <;> simp [h]) _ _ hs

@[simp] theorem hfFell_wf {s : State} (hs : s.basin.wf) : (hfFell s).basin.wf := by
  simp only [hfFell, peerFieldDown_basin]
  exact deselectFell_wf _ (deselectFell_wf _ (by simp [hs]))

@[simp] theorem execHfFieldFallDone_canonical {s : State} (hs : s.basin.wf) : CanonicalNext (execHfFieldFallDone s) :=
  canonicalNext_withWaiting (fun s h => by split <;> simp [h]) hs

@[simp] theorem holdBegins_basin (e : Exec) (s : State) : (holdBegins e s).basin = s.basin := (rfl)

@[simp] theorem uhfRisen_wf {s : State} (hs : s.basin.wf) : (uhfRisen s).basin.wf := by
  unfold uhfRisen
  split <;> simp [hs]

@[simp] theorem carrierUp_wf (fwd : Int) (rl : Nat) {s : State} (hs : s.basin.wf) : (carrierUp fwd rl s).basin.wf := by
  simp [carrierUp, hs]

@[simp] theorem carrierSettled_wf (fwd : Int) {s : State} (hs : s.basin.wf) : (carrierSettled fwd s).basin.wf := by
  simp [carrierSettled, hs]

@[simp] theorem execCarrierRiseDone_canonical (fwd : Int) (rl : Nat) {s : State} (hs : s.basin.wf) :
    CanonicalNext (execCarrierRiseDone fwd rl s) := canonicalNext_withWaiting (fun s h => by split <;> simp [h]) hs

@[simp] theorem uhfFellPacket_wf {s : State} (hs : s.basin.wf) : (uhfFellPacket s).basin.wf := by
  fun_cases uhfFellPacket <;> simp [hs]

@[simp] theorem uhfFell_wf (why : FallFor) {s : State} (hs : s.basin.wf) : (uhfFell why s).basin.wf := by
  unfold uhfFell
  split <;> simp [hs]

@[simp] theorem execCarrierFallDone_canonical {s : State} (hs : s.basin.wf) : CanonicalNext (execCarrierFallDone s) :=
  canonicalNext_withWaiting (fun s h => by split <;> simp [h]) hs

/-! ## Supply, temperature and clocks -/

@[simp] theorem execVinBelowThreshold_canonical (vin : Nat) {s : State} (hs : s.basin.wf) :
    CanonicalNext (execVinBelowThreshold vin s) := canonicalNext_withinRating (by simp [hs])

@[simp] theorem stopSam_basin (n st : Nat) (s : State) : (stopSam n st s).basin = s.basin := (rfl)

@[simp] theorem shedSam_basin (cls : List Nat) (st n : Nat) (s : State) : (shedSam cls st n s).basin = s.basin := by
  simp [shedSam]

@[simp] theorem shedLoad_basin (s : State) : (shedLoad s).basin = s.basin := by simp [shedLoad]

@[simp] theorem execVinEarlyWarn_canonical (vin : Nat) {s : State} (hs : s.basin.wf) :
    CanonicalNext (execVinEarlyWarn vin s) := canonicalNext_withinRating (by simp [hs])

@[simp] theorem execVinAboveHysteresis_canonical (vin : Nat) {s : State} (hs : s.basin.wf) :
    CanonicalNext (execVinAboveHysteresis vin s) := canonicalNext_withinRating (by simp [hs])

@[simp] theorem execVinRecovered_canonical (vin : Nat) {s : State} (hs : s.basin.wf) :
    CanonicalNext (execVinRecovered vin s) := canonicalNext_withinRating (by
  split <;> simp [hs])

@[simp] theorem vpaLost_basin (cause detail : Nat) (s : State) : (vpaLost cause detail s).basin = s.basin := by
  simp [vpaLost]

@[simp] theorem thermWarn_basin (t : Int) (s : State) : (thermWarn t s).basin = s.basin := by simp [thermWarn]
@[simp] theorem thermTrip_basin (t : Int) (s : State) : (thermTrip t s).basin = s.basin := by simp [thermTrip]
@[simp] theorem thermRecal_basin (s : State) : (thermRecal s).basin = s.basin := by simp [thermRecal]
@[simp] theorem thermRead_basin (t : Int) (s : State) : (thermRead t s).basin = s.basin := by simp [thermRead]

@[simp] theorem countWindow_basin (s : State) (x : Clock × Nat) : (countWindow s x).basin = s.basin := by
  simp [countWindow]

@[simp] theorem markLost_basin (ks : List Clock) (s : State) : (markLost ks s).basin = s.basin := by simp [markLost]

@[simp] theorem clockFault_basin (k : Clock) (outcome : Nat) (s : State) :
    (clockFault k outcome s).basin = s.basin := by simp [clockFault]

@[simp] theorem clockFresh_basin (k : Clock) (s : State) : (clockFresh k s).basin = s.basin := (rfl)

@[simp] theorem lossActs_wf (k : Clock) {s : State} (hs : s.basin.wf) : (lossActs s k).basin.wf := by
  unfold lossActs
  split <;> simp [hs]

@[simp] theorem clockReset_wf (ks : List Clock) (s : State) : (clockReset ks s).basin.wf := resetWatchdog_wf ..
@[simp] theorem xoReset_wf {s : State} (hs : s.basin.wf) : (xoReset s).basin.wf := by simp [xoReset, hs]

@[simp] theorem xoLoss_wf (ks : List Clock) {s : State} (hs : s.basin.wf) : (xoLoss ks s).basin.wf := by
  simp [xoLoss, hs]

@[simp] theorem clockLosses_wf (ks : List Clock) {s : State} (hs : s.basin.wf) : (clockLosses ks s).basin.wf := by
  have hacts : (ks.foldl lossActs (markLost ks s)).basin.wf := foldl_wf (fun s k h => by simp [h]) ks (by simp [hs])
  unfold clockLosses
  (repeat' split) <;> simp [hs, hacts]

@[simp] theorem vioCut_wf (p : Port) (cut : Option Nat) {s : State} (hs : s.basin.wf) : (vioCut p cut s).basin.wf := by
  fun_cases vioCut <;> simp +zetaDelta [hs]

/-! ## The SAM interfaces -/

@[simp] theorem samPowerEnd_wf (op : SamPowerOp) (status : Nat) {s : State} (hs : s.basin.wf) :
    (samPowerEnd op status s).basin.wf := by simp [samPowerEnd, hs]

@[simp] theorem samActivate_wf (op : SamPowerOp) {s : State} (hs : s.basin.wf) : (samActivate op s).basin.wf := by
  simp [samActivate, hs]

@[simp] theorem samWarm_basin (op : SamPowerOp) (s : State) : (samWarm op s).basin = s.basin := by simp [samWarm]

@[simp] theorem samAtrFailed_wf (op : SamPowerOp) (status : Nat) {s : State} (hs : s.basin.wf) :
    (samAtrFailed op status s).basin.wf := by
  unfold samAtrFailed
  split <;> simp [hs]

@[simp] theorem samPower_wf (e : Exec) {s : State} (hs : s.basin.wf) : (samPower e s).basin.wf := by simp [samPower, hs]

@[simp] theorem samInUse_wf (op : SamPowerOp) (tenant status : Nat) {s : State} (hs : s.basin.wf) :
    (samInUse op tenant status s).basin.wf := by simp [samInUse, hs, poundWrite_wf]

@[simp] theorem samIfsFor_basin (op : SamPowerOp) (times : Nat) (s : State) :
    (samIfsFor op times s).basin = s.basin := by simp [samIfsFor]

@[simp] theorem samIfsError_wf (op : SamPowerOp) (tenant status : Nat) {s : State} (hs : s.basin.wf) :
    (samIfsError op tenant status s).basin.wf := by simp [samIfsError, hs]

@[simp] theorem samIfsNext_wf (op : SamPowerOp) (tenant : Nat) (rx : SamRx) {s : State} (hs : s.basin.wf) :
    (samIfsNext op tenant rx s).basin.wf := by
  unfold samIfsNext
  split <;> simp [hs]

@[simp] theorem samReady_wf (op : SamPowerOp) (tenant : Nat) (atr : List Byte) (i : AtrInfo) (proto fi di : Nat)
    {s : State} (hs : s.basin.wf) : (samReady op tenant atr i proto fi di s).basin.wf := by simp [samReady, hs]

@[simp] theorem samAtr_wf (op : SamPowerOp) (tenant : Nat) (atr : List Byte) (ppsOk : Bool) {s : State}
    (hs : s.basin.wf) : (samAtr op tenant atr ppsOk s).basin.wf := by
  fun_cases samAtr <;> simp [hs]

@[simp] theorem execSamAtrReceived_canonical (n : Nat) (atr : List Byte) (ppsOk : Bool) {s : State} (hs : s.basin.wf) :
    CanonicalNext (execSamAtrReceived n atr ppsOk s) :=
  canonicalNext_withWaiting (fun s h => by (repeat' split) <;> simp [h]) hs

@[simp] theorem execSamAtrTimeout_canonical (n : Nat) {s : State} (hs : s.basin.wf) :
    CanonicalNext (execSamAtrTimeout n s) :=
  canonicalNext_withWaiting (fun s h => by (repeat' split) <;> simp [h]) hs

@[simp] theorem execSamClassRetry_canonical (n : Nat) {s : State} (hs : s.basin.wf) :
    CanonicalNext (execSamClassRetry n s) :=
  canonicalNext_withWaiting (fun s h => by (repeat' split) <;> simp [h]) hs

@[simp] theorem samWaitFor_basin (op : SamXchgOp) (times : Nat) (s : State) :
    (samWaitFor op times s).basin = s.basin := by simp [samWaitFor]

@[simp] theorem samXchgEnd_wf (op : SamXchgOp) (status : Nat) (sw : Option (Byte × Byte)) {s : State}
    (hs : s.basin.wf) : (samXchgEnd op status sw s).basin.wf := by
  unfold samXchgEnd
  split <;> simp [hs, poundWrite_wf]

@[simp] theorem samXchgFail_wf (op : SamXchgOp) (status : Nat) {s : State} (hs : s.basin.wf) :
    (samXchgFail op status s).basin.wf := by simp [samXchgFail, hs]

@[simp] theorem t0Send_basin (op : SamXchgOp) (cmd : List Byte) (s : State) : (t0Send op cmd s).basin = s.basin := by
  simp [t0Send]

@[simp] theorem t0Status_wf (op : SamXchgOp) (sw1 sw2 : Byte) {s : State} (hs : s.basin.wf) :
    (t0Status op sw1 sw2 s).basin.wf := by simp [t0Status, hs]

@[simp] theorem t0Next_wf (op : SamXchgOp) (rx : SamRx) {s : State} (hs : s.basin.wf) : (t0Next op rx s).basin.wf := by
  unfold t0Next
  cases rx <;> simp [hs]

@[simp] theorem t1Send_basin (op : SamXchgOp) (s : State) : (t1Send op s).basin = s.basin := by simp [t1Send]

@[simp] theorem t1Error_wf (op : SamXchgOp) (status : Nat) {s : State} (hs : s.basin.wf) :
    (t1Error op status s).basin.wf := by simp [t1Error, hs]

@[simp] theorem t1Next_wf (op : SamXchgOp) (rx : SamRx) {s : State} (hs : s.basin.wf) : (t1Next op rx s).basin.wf := by
  fun_cases t1Next <;> simp [hs]

@[simp] theorem samExchange_wf (e : Exec) {s : State} (hs : s.basin.wf) : (samExchange e s).basin.wf := by
  simp [samExchange, hs]

@[simp] theorem samRx_wf (n : Nat) (rx : SamRx) (e : Exec) {s : State} (hs : s.basin.wf) :
    (samRx n rx e s).basin.wf := by
  fun_cases samRx <;> simp [hs]

@[simp] theorem execSamRxBlock_canonical (n : Nat) (rx : SamRx) (gap : Nat) {s : State} (hs : s.basin.wf) :
    CanonicalNext (execSamRxBlock n rx s gap) := canonicalNext_withWaiting (fun s h => by split <;> simp [h]) hs

@[simp] theorem execSamWaitTimeout_canonical (n : Nat) {s : State} (hs : s.basin.wf) :
    CanonicalNext (execSamWaitTimeout n s) :=
  canonicalNext_withWaiting (fun s h => by (repeat' split) <;> simp [h]) hs

@[simp] theorem samLeaseGive_wf (n tenant : Nat) {s : State} (hs : s.basin.wf) :
    (samLeaseGive n tenant s).basin.wf := by simp [samLeaseGive, hs]

@[simp] theorem samLeaseForce_wf (n : Nat) (e : Exec) {s : State} (hs : s.basin.wf) :
    (samLeaseForce n e s).basin.wf := by
  unfold samLeaseForce
  split <;> simp [hs]

@[simp] theorem samRelease_wf (n : Nat) {s : State} (hs : s.basin.wf) : (samRelease n s).basin.wf := by
  simp [samRelease, hs]

@[simp] theorem samLease_wf (e : Exec) {s : State} (hs : s.basin.wf) : (samLease e s).basin.wf := by simp [samLease, hs]
@[simp] theorem samEvent_basin (n kind : Nat) (s : State) : (samEvent n kind s).basin = s.basin := by simp [samEvent]
@[simp] theorem cardInserted_basin (n : Nat) (s : State) : (cardInserted n s).basin = s.basin := by simp [cardInserted]
@[simp] theorem cardRemoved_basin (n : Nat) (s : State) : (cardRemoved n s).basin = s.basin := by simp [cardRemoved]

@[simp] theorem execSamOvercurrent_canonical (n : Nat) {s : State} (hs : s.basin.wf) :
    CanonicalNext (execSamOvercurrent n s) := by
  unfold execSamOvercurrent
  (repeat' split) <;> simp [hs]

/-! ## Yield points -/

@[simp] theorem dropRise_basin (s : State) : (dropRise s).basin = s.basin := by simp [dropRise]
@[simp] theorem dropHold_basin (s : State) : (dropHold s).basin = s.basin := by simp [dropHold]

@[simp] theorem stopEffect_basin (l : LaneId) (st : Nat) (e : Exec) (s : State) :
    (stopEffect l st e s).basin = s.basin := by
  unfold stopEffect
  split <;> simp

@[simp] theorem dropHeld_basin (l : LaneId) (s : State) : (dropHeld l s).basin = s.basin := by
  unfold dropHeld
  split <;> simp

@[simp] theorem stopHere_wf (l : LaneId) (st : Nat) (e : Exec) {s : State} (hs : s.basin.wf) :
    (stopHere l st e s).basin.wf := by simp [stopHere, hs]

@[simp] theorem releaseAgain_wf (e : Exec) {s : State} (hs : s.basin.wf) : (releaseAgain e s).basin.wf := by
  simp [releaseAgain, hs]

@[simp] theorem preemptAgain_wf (e : Exec) {s : State} (hs : s.basin.wf) : (preemptAgain e s).basin.wf := by
  simp [preemptAgain, hs]

@[simp] theorem waitAgain_wf (l : LaneId) (e : Exec) {s : State} (hs : s.basin.wf) : (waitAgain l e s).basin.wf := by
  unfold waitAgain
  split <;> simp [hs]

@[simp] theorem yieldPoint_wf (l : LaneId) (e : Exec) {s : State} (hs : s.basin.wf) : (yieldPoint l e s).basin.wf := by
  fun_cases yieldPoint <;> simp [hs]

@[simp] theorem execYieldPoint_canonical (l : LaneId) {s : State} (hs : s.basin.wf) :
    CanonicalNext (execYieldPoint l s) := by
  unfold execYieldPoint
  split <;> simp [hs]

@[simp] theorem releaseHeld_basin (l : LaneId) (s : State) : (releaseHeld l s).basin = s.basin := by
  unfold releaseHeld
  split <;> simp

@[simp] theorem resume_wf (l : LaneId) {s : State} (hs : s.basin.wf) : (resume l s).basin.wf := by
  have hlimit : (if l = .uhf then limitTick s else s).basin.wf := by split <;> simp [hs]
  fun_cases resume
  case case1 => exact hlimit
  case case2 => exact hlimit
  case case3 => exact waitAgain_wf l _ (drawAgain_wf l (by simpa using resumeJobs_wf _ hlimit))

@[simp] theorem execPacketAdmit_canonical (l : LaneId) {s : State} (hs : s.basin.wf) :
    CanonicalNext (execPacketAdmit l s) := by
  unfold execPacketAdmit
  (repeat' split) <;> simp [hs]

/-! ## Low-power states and wakes -/

@[simp] theorem stopSuspended_wf (l : LaneId) (st : Nat) {s : State} (hs : s.basin.wf) :
    (stopSuspended l st s).basin.wf := foldl_wf (fun s e h => by simp [h]) _ (by simp [hs])

@[simp] theorem stopChains_wf {s : State} (hs : s.basin.wf) : (stopChains s).basin.wf := by simp [stopChains, hs]

@[simp] theorem setPower_wf (e : Exec) {s : State} (hs : s.basin.wf) : (setPower e s).basin.wf := by
  fun_cases setPower <;> simp [hs]

@[simp] theorem undoGrant_basin (c : Chain) (s : State) : (undoGrant c s).basin = s.basin := by simp [undoGrant]

@[simp] theorem chainsDown_wf {s : State} (hs : s.basin.wf) : (chainsDown s).basin.wf := by
  simp only [chainsDown]
  split <;> simp [hs]

@[simp] theorem abandonStall_basin (s : State) : (abandonStall s).basin = s.basin := by
  unfold abandonStall
  split <;> simp

@[simp] theorem wakeEvent_basin (w : WakeSrc) (s : State) : (wakeEvent w s).basin = s.basin := by
  unfold wakeEvent
  split <;> simp

@[simp] theorem towSleep_basin (s : State) : (towSleep s).basin = s.basin := (rfl)

@[simp] theorem asleep_wf (t : PowerState) (ms : Nat) {s : State} (hs : s.basin.wf) : (asleep t ms s).basin.wf := by
  simp [asleep, hs, banksOff_wf]

@[simp] theorem wakeReset_wf (s : State) : (wakeReset s).basin.wf := surroundings_wf s

@[simp] theorem lateWakes_wf (ws : List WakeSrc) {s : State} (hs : s.basin.wf) : (lateWakes ws s).basin.wf := by
  simp [lateWakes, hs]

@[simp] theorem enterLowPower_wf (t : PowerState) (ms : Nat) {s : State} (hs : s.basin.wf) :
    (enterLowPower t ms s).basin.wf := lateWakes_wf _ (asleep_wf t ms (by simp [hs]))

@[simp] theorem execLowPowerEntry_canonical {s : State} (hs : s.basin.wf) : CanonicalNext (execLowPowerEntry s) := by
  unfold execLowPowerEntry
  (repeat' split) <;> simp [hs]

@[simp] theorem wakeBy_wf (w : WakeSrc) {awake : State → State} (hawake : ∀ s, s.basin.wf → (awake s).basin.wf)
    {s : State} (hs : s.basin.wf) : (wakeBy w awake s).basin.wf := by
  fun_cases wakeBy <;> simp +zetaDelta [hawake, hs]

@[simp] theorem wakeLevel_wf (high : Bool) {s : State} (hs : s.basin.wf) : (wakeLevel high s).basin.wf := by
  unfold wakeLevel
  split
  · exact hs
  · dsimp only
    split
    · exact wakeBy_wf _ (fun s h => by simp [h]) hs
    · exact hs

@[simp] theorem rngWake_basin (s : State) : (rngWake s).basin = s.basin := (rfl)
@[simp] theorem chainWake_basin (c : Chain) (s : State) : (chainWake c s).basin = s.basin := by simp [chainWake]
@[simp] theorem wakeUp_basin (s : State) : (wakeUp s).basin = s.basin := by simp [wakeUp]

/-! ## The parts of one µs of service -/

@[simp] theorem powerCycle_basin (s : State) : (powerCycle s).basin = s.basin := (rfl)

@[simp] theorem fencedGrant_wf (c : Chain) {s : State} (hs : s.basin.wf) : (fencedGrant c s).basin.wf := by
  simp [fencedGrant, hs]

@[simp] theorem fencedRead_wf {s : State} (hs : s.basin.wf) : (fencedRead s).basin.wf := by
  unfold fencedRead
  split <;> simp [hs]

@[simp] theorem loopTick_basin (s : State) : (loopTick s).basin = s.basin := by simp [loopTick]
@[simp] theorem hfOnTick_basin (s : State) : (hfOnTick s).basin = s.basin := by simp [hfOnTick]
@[simp] theorem uhfOnTick_basin (s : State) : (uhfOnTick s).basin = s.basin := by simp [uhfOnTick]
@[simp] theorem peerLight_wf {s : State} (hs : s.basin.wf) : (peerLight s).basin.wf := by simp [peerLight, hs]

@[simp] theorem senseTick_wf {s : State} (hs : s.basin.wf) : (senseTick s).basin.wf := by
  fun_cases senseTick
  case case2 => exact withWaiting_wf (fun s h => by simp [peerSensed, h]) _ _ hs
  all_goals exact hs

@[simp] theorem answerTick_wf {s : State} (hs : s.basin.wf) : (answerTick s).basin.wf := by
  fun_cases answerTick
  case case2 => exact withWaiting_wf (fun s h => by simp [answerLight, h]) _ _ hs
  all_goals exact hs

@[simp] theorem senseEnd_wf {s : State} (hs : s.basin.wf) : (senseEnd s).basin.wf := by simp [senseEnd, hs]

@[simp] theorem hfSenseTick_wf {s : State} (hs : s.basin.wf) : (hfSenseTick s).basin.wf := by
  fun_cases hfSenseTick <;> simp [hs]

@[simp] theorem tuneTick_wf {s : State} (hs : s.basin.wf) : (tuneTick s).basin.wf := by
  fun_cases tuneTick <;> simp [hs]

@[simp] theorem valuesTick_basin (s : State) : (valuesTick s).basin = s.basin := by simp [valuesTick]

@[simp] theorem calTick_wf {s : State} (hs : s.basin.wf) : (calTick s).basin.wf := by
  fun_cases calTick <;> simp [hs]

@[simp] theorem uhfChangeTick_basin (s : State) : (uhfChangeTick s).basin = s.basin := by simp [uhfChangeTick]

/-! ## What a unit finds again after its fence -/

@[simp] theorem slotFromLog_basin (s : State) (k : Nat) : (slotFromLog s k).basin = s.basin := by simp [slotFromLog]

@[simp] theorem scanSlot_basin (s : State) (k : Nat) : (scanSlot s k).basin = s.basin := by
  simp only [scanSlot]
  (repeat' split) <;> simp

@[simp] theorem scanKeys_basin (s : State) : (scanKeys s).basin = s.basin := by simp [scanKeys, resumeKeyErase]
@[simp] theorem rngStart_basin (s : State) : (rngStart s).basin = s.basin := by simp [rngStart]

@[simp] theorem chainBack_basin (c : Chain) (s : State) : (chainBack c s).basin = s.basin := by
  cases c <;> simp [chainBack]

@[simp] theorem unitBack_basin (u : Nat) (s : State) : (unitBack u s).basin = s.basin := by
  unfold unitBack
  split <;> simp [keysBack, icCleared]

@[simp] theorem unfenceUnit_wf (u : Nat) {s : State} (hs : s.basin.wf) : (unfenceUnit u s).basin.wf := by
  simp [unfenceUnit, unmark, hs]

@[simp] theorem unfenceOne_wf (failing : List Nat) (rl : Nat) (u : Nat) {s : State} (hs : s.basin.wf) :
    (unfenceOne failing rl s u).basin.wf := by simp [unfenceOne, unfenceFailed, hs]

@[simp] theorem testEnd_wf (op : TestOp) {s : State} (hs : s.basin.wf) : (testEnd op s).basin.wf := by
  unfold testEnd
  split <;> simp [testRead, hs]

@[simp] theorem testTick_wf {s : State} (hs : s.basin.wf) : (testTick s).basin.wf := by
  unfold testTick
  split <;> simp [hs]

@[simp] theorem runTick_wf {s : State} (hs : s.basin.wf) : (runTick s).basin.wf := by
  have hread : (fencedRead (fencedGrant .uhf (fencedGrant .hf (bgStart (xoReset (powerCycle
      (s.onTime (· + 1)))))))).basin.wf := fencedRead_wf (fencedGrant_wf .uhf (fencedGrant_wf .hf (by simp [hs])))
  have hsense := hfSenseTick_wf (answerTick_wf (senseTick_wf (s := uhfOnTick (hfOnTick (loopTick _)))
    (by simpa using hread)))
  have htest := testTick_wf (calTick_wf (s := valuesTick _) (by simpa using tuneTick_wf hsense))
  simpa [runTick] using limitTick_wf (s := uhfChangeTick (hfStart _)) (by simpa using htest)

/-! ## The steps of start-up -/

@[simp] theorem limitField_basin (id : Nat) (s : State) : (limitField id s).2.basin = s.basin := by
  unfold limitField
  (repeat' split) <;> simp

@[simp] theorem startCharter_basin (s : State) : (startCharter s).2.basin = s.basin := by
  unfold startCharter
  (repeat' split) <;> simp

@[simp] theorem bankFallback_basin (bank used : Nat) (s : State) : (bankFallback bank used s).basin = s.basin := by
  simp [bankFallback]

@[simp] theorem startCal_basin (s : State) : (startCal s).basin = s.basin := by
  simp only [startCal]
  (repeat' split) <;> simp

@[simp] theorem startKeys_basin (s : State) : (startKeys s).basin = s.basin := by simp [startKeys]
@[simp] theorem startRng_basin (env : StartEnv) (s : State) : (startRng env s).basin = s.basin := by simp [startRng]
@[simp] theorem stormFence_basin (s : State) : (stormFence s).basin = s.basin := by simp [stormFence]

@[simp] theorem selfTests_basin (env : StartEnv) (s : State) : (selfTests env s).basin = s.basin := by
  simp [selfTests, fenceNew]

@[simp] theorem startDefaults_basin (s : State) : (startDefaults s).2.basin = s.basin := by
  unfold startDefaults
  split <;> simp

@[simp] theorem bootStage_basin (b : BootRun) (s : State) : (bootStage b s).2.basin = s.basin := by
  unfold bootStage
  split <;> simp [seedHop, startUnits]

/-! ## BOOT_DONE -/

@[simp] theorem startRecord_basin (pay : Nat) (s : State) : (startRecord pay s).basin = s.basin := by simp [startRecord]
@[simp] theorem reportClocks_basin (s : State) : (reportClocks s).basin = s.basin := by simp [reportClocks]

@[simp] theorem reportWatchdog_basin (s : State) : (reportWatchdog s).basin = s.basin := by
  unfold reportWatchdog
  split <;> simp [reportFull]

@[simp] theorem reportHeld_basin (held : List Nat) (s : State) : (reportHeld held s).basin = s.basin := by
  simp [reportHeld]

@[simp] theorem clampEvents_basin (ids : List Nat) (s : State) : (clampEvents ids s).basin = s.basin := by
  simp [clampEvents]

@[simp] theorem bootDone_basin (held clamps : List Nat) (s : State) : (bootDone held clamps s).basin = s.basin := by
  simp [bootDone]

@[simp] theorem bootStep_basin (s : State) : (bootStep s).basin = s.basin := by
  fun_cases bootStep <;> simp +zetaDelta

/-! ## Every row -/

@[simp] theorem execDeadlineExpiry_canonical {s : State} (hs : s.basin.wf) :
    CanonicalNext (execDeadlineExpiry s) := by
  simp only [execDeadlineExpiry, canonicalNext_next, State.onHouseLane_basin, State.onUhfLane_basin,
    State.onHfLane_basin]
  exact foldl_wf (fun s e h => replyExec_wf e 0x15 [] none h) _
    (expireWaits_wf .uhf (expireWaits_wf .hf (foldl_wf (fun s p h => answer_wf p 0x15 h) _ hs)))

@[simp] theorem execProtectionWithdrawal_canonical {s : State} (hs : s.basin.wf) :
    CanonicalNext (execProtectionWithdrawal s) := by
  simp only [execProtectionWithdrawal, canonicalNext_next, samWithdraw_basin]
  exact foldl_wf (fun s w h => preemptDone_wf .uhf (preemptDone_wf .hf (withdraw_wf w h))) _ hs

theorem exec_canonical (c : Instr) {s : State} (hs : s.basin.wf) : CanonicalNext (exec c s) := by
  unfold exec
  cases c
  all_goals simp +contextual [hs,
    execHfPoll, execHfActivate, execHfTransceive, execHf15693Exchange, execHfIsodepExchange,
    execHfDeselect, execHfRxFrame, execLeaseGrant, execLeaseAcquire, execLeaseRelease, execPreemptLease,
    execLeaseHoldExpiry, execHfField, execHfPllLocked, execHfPllUnlock, execDriverCurrentLimit, execPowerLoopLimit,
    execMismatchMeasurement, execHfTune, execHfLpcdArm, execLpcdMeasurement, execUhfCarrier, execUhfSetChannel,
    execSynthUnlock, execSynthLocked, execSynthRecal, execDwellSoftPoint, execRestEnd, execChannelAvailable,
    execLbtBackoffEnd, execRlMeasurement, execHardReflection, execPaCurrentLimit, execUhfSelect, execUhfInventory,
    execUhfAccess, execUhfRxFrame, execHop, execDwellLimit, execSpectrumCheck, execCaptureSamples,
    execCaptureTriggered, execNop, execGetInfo, execGetStatus, execGetFences, execLeaseQuery, execSetConfig,
    execGetConfig, execSetWeights, execReadCounters, execGetLog, execStageProtection, execCharterRead,
    execCharterWrite, execCharterSeal, execCharterBreak, execCalStore, execCalLoad, execCalStatus, execTowpathConfig,
    execKeyStage, execKeyCommit, execKeyQuery, execKeyDestroy, execCipherAes, execCipherCmac, execCoalesceTimeout,
    execArbitration, execDelivery, execReservedAccess, execPortResetSequence, execPortReset, execPaCfgWrite,
    execPortErrRead, execTimeLoRead, execCmdProdWrite, execRplConsWrite, execEvtConsWrite, execRegisterWrite,
    execRecStage, execRecVerify, execRecActivate, execIcDoorbellWrite, execSetclrSetPending, execSetclrClearPending,
    execSetclrSetMask, execSetclrClearMask, execIcPendWrite, execIcMaskWrite, execIcSrcWrite, execIcSyncRead,
    execIcStatusRead, execIcEvtdropRead, execIcClaimRead, execIcEoiWrite, execIcTstatRead, execRngDataRead,
    execRngStatRead, execFwStageBlock, execFwVerify, execFwActivate, execFwConfirmRetry, execEmuConfigure, execEmuArm,
    execEmuWtxTimer, execEmuRespond, execEmuDisarm, execPeerStart, execPeerExchange, execPeerRoleSwap, execPeerStop,
    execRngBlockDone, execRngRead, execReseed, execRngKat, execRngRestart, execLockCycle,
    execResetTenant, execPowerGoodLoss, execPinReset, execUvloFall, execCrystalStartTimeout, execWatchdogReset,
    execWatchdogWarning, execStormCountClear, execFenceEntry, execUnfence, execBasinScrub, execGpioSet, execGpioEdge,
    execVpaFault, execHoldupUpdate, execCholdMeasured, execThermalSample, execThermalReadingTimeout,
    execClockMonitorWindow, execAonCrystalSelect, execHfDriverClockStop, execSpreadTurningPoint, execVioPresent,
    execVioAbsent, execSamPower, execSamExchange, execSamLease, execSamCardDetect, execSamCurrentLimitActive,
    execSetPowerState, execWakeAsserted, execWakeReleased, execFdetAsserted, execFdetReleased, execWakeTimerExpiry,
    execRetainPortWake, execLowPowerWake]

/-! ## The statement -/

theorem tick_wf {s : State} (hs : s.basin.wf) : (tick s).basin.wf := by
  unfold tick
  split <;> simp [hs]

/-- Settles O6: a step is a row or a tick, and both keep the canonical form. -/
theorem stepKeepsBasinCanonical : Obligations.StepKeepsBasinCanonical := by
  unfold Obligations.StepKeepsBasinCanonical
  intro s t hs ht
  cases hp : s.pending with
  | nil =>
    rw [step_of_empty hp] at ht
    exact Host.Outcome.next.inj ht ▸ tick_wf hs
  | cons c cs =>
    simp only [step, hp] at ht
    exact exec_canonical c (s := { s with pending := cs }) hs t ht

end Sys2Proof.Machine

/-! # The Basin, byte by byte, and its bursts

What a byte reads after a write, then the words of a burst that falls into the Basin. -/

namespace Sys2Proof.Machine

open Sys2Proof

/-! ## Bytes after a write (R160) -/

/-- What one byte reads after bytes written one after another; those past the end of the Basin go nowhere. -/
theorem cellRead_cellsWrite {d : Nat → Byte} (vs : List Byte) {m : List Host.Cell} (a b : Nat)
    (h : Memory.wf d m = true) :
    cellRead d (cellsWrite d m a vs) b =
      if a ≤ b ∧ b < a + vs.length ∧ b < basinSize then nth vs (b - a) 0 else cellRead d m b := by
  induction vs generalizing m a with
  | nil =>
    rw [cellsWrite, if_neg]
    simp only [List.length_nil]
    omega
  | cons v vs ih =>
    have hm : Memory.wf d (if a < basinSize then cellWrite d m a v else m) = true := by
      split
      · exact cellWrite_wf m a v h
      · exact h
    have hfirst : cellRead d (if a < basinSize then cellWrite d m a v else m) b =
        if b = a ∧ a < basinSize then v else cellRead d m b := by
      by_cases ha : a < basinSize
      · rw [if_pos ha, cellRead_write v m 0 a b h]
        simp [ha]
      · simp [ha]
    rw [cellsWrite, ih (a + 1) hm, hfirst]
    simp only [List.length_cons]
    rcases Nat.lt_trichotomy b a with hb | rfl | hb
    · rw [if_neg (by omega), if_neg (by omega), if_neg (by omega)]
    · rw [if_neg (by omega)]
      simp [nth]
    · have hsub : nth (v :: vs) (b - a) 0 = nth vs (b - (a + 1)) 0 := by
        rw [show b - a = b - (a + 1) + 1 by omega, nth, List.getD_cons_succ, nth]
      rw [hsub, if_neg (show ¬ (b = a ∧ a < basinSize) by omega)]
      exact if_congr (by omega) rfl rfl

theorem basinByte_basinWrite {s : State} (a b : Nat) (vs : List Byte) (h : s.basin.wf) :
    basinByte (basinWrite a vs s) b =
      if a ≤ b ∧ b < a + vs.length ∧ b < basinSize then nth vs (b - a) 0 else basinByte s b :=
  cellRead_cellsWrite vs a b h

/-- Settles O8: a write changes the bytes that it covers and no other. -/
theorem basinReadAfterWrite : Obligations.BasinReadAfterWrite := by
  unfold Obligations.BasinReadAfterWrite
  exact fun s a b vs h => basinByte_basinWrite a b vs h

/-! ## Words of four bytes, the least significant first (R3, R164) -/

@[simp] theorem length_le (n v : Nat) : (le n v).length = n := by
  induction n generalizing v with
  | zero => rfl
  | succ n ih => rw [le, List.length_cons, ih]

theorem leNat_le (n v : Nat) : leNat (le n v) = v % 256 ^ n := by
  induction n generalizing v with
  | zero => simp [le, leNat, Nat.mod_one]
  | succ n ih => rw [le, leNat, ih, BitVec.toNat_ofNat, Nat.pow_succ' (m := 256), Nat.mod_mul]

@[simp] theorem leNat_le_word (w : Word) : leNat (le 4 w.toNat) = w.toNat := by
  rw [leNat_le]
  exact Nat.mod_eq_of_lt w.isLt

/-- A data phase of whole words is those words. -/
theorem wordsOf_flatten (ws : List Word) : wordsOf (ws.map fun w => le 4 w.toNat).flatten = ws := by
  induction ws with
  | nil => rfl
  | cons w ws ih =>
    rw [List.map_cons, List.flatten_cons]
    refine congrArg₂ List.cons ?_ ih
    exact (congrArg (BitVec.ofNat 32) (leNat_le_word w)).trans (by simp)

/-- Four bytes are one word. -/
theorem wordsOf_four {db : List Byte} (h : db.length = 4) : wordsOf db = [BitVec.ofNat 32 (leNat db)] := by
  match db, h with
  | [a, b, c, d], _ => rfl

theorem basinWord_congr {s t : State} {a : Nat} (h : ∀ i, i < 4 → basinByte t (a + i) = basinByte s (a + i)) :
    basinWord t a = basinWord s a := by
  refine congrArg leNat (List.map_congr_left fun i hi => h i (List.mem_range.1 hi))

/-- A word that was written reads as written. -/
theorem basinWord_basinWrite {s : State} {a : Nat} (w : Word) (h : s.basin.wf) (ha : a + 4 ≤ basinSize) :
    basinWord (basinWrite a (le 4 w.toNat) s) a = w.toNat := by
  have hread : basinRead (basinWrite a (le 4 w.toNat) s) a 4 = le 4 w.toNat := by
    refine List.ext_getElem (by simp [basinRead]) fun i hi _ => ?_
    have hi4 : i < 4 := by simpa [basinRead] using hi
    simp only [basinRead, List.getElem_map, List.getElem_range]
    rw [basinByte_basinWrite _ _ _ h, length_le, if_pos (by omega), Nat.add_sub_cancel_left, nth,
      List.getD_eq_getElem]
  rw [basinWord, hread, leNat_le_word]

end Sys2Proof.Machine

namespace Sys2Proof.Machine

open Sys2Proof

/-! ## Transactions on an open port (R163–R187) -/

theorem exec_portWrite_eq (p : Port) (ab db : List Byte) (tail : List Bool) (held : Bool) (s : State) :
    exec (.portWrite p ab db tail held) s = execPortWrite p ab db tail s held := rfl

theorem exec_portRead_eq (p : Port) (ab : List Byte) (tail : List Bool) (n : Nat) (fin : TxEnd) (fast : Bool)
    (s : State) : exec (.portRead p ab tail n fin fast) s = execPortRead p ab tail n s fin fast := rfl

theorem openTx_of_none {p : Port} {s : State} (write : Bool) (ab : List Byte) (h : (portSt s p).burst = none) :
    openTx s p write ab = none := by
  rw [openTx, h]

/-- A read of a stalled port that brings an address is a new transaction. -/
theorem exec_portRead_of_none {p : Port} {s : State} {ab : List Byte} (n : Nat) (fin : TxEnd) (fast : Bool)
    (h : (portSt s p).burst = none) (hab : ab.length = 4) :
    exec (.portRead p ab [] n fin fast) s = .next (portReadTx p (addrOf ab []) n fin fast s) := by
  have hne : ab ≠ [] := fun h => by simp [h] at hab
  rw [exec_portRead_eq]
  unfold execPortRead
  rw [openTx_of_none false ab h]
  split
  next ho => cases ho
  next he => exact absurd rfl hne
  next => simp [hab]

theorem exec_portWrite_of_none {p : Port} {s : State} {ab : List Byte} (db : List Byte) (held : Bool)
    (h : (portSt s p).burst = none) (hab : ab.length = 4) :
    exec (.portWrite p ab db [] held) s =
      .next (portWriteTx p (addrOf ab []) (wordsOf db) (writeEnd db [] held) s) := by
  simp [exec_portWrite_eq, execPortWrite, openTx_of_none _ _ h, hab]

section Open

variable {p : Port} {s : State} (h : PortOpen p s)
include h

/-- A transaction that ends inside its address is TRUNC (R196, R197). -/
theorem cutAddress_of_open (ab : List Byte) (tail : List Bool) :
    cutAddress p ab tail s = portError p 2 (addrOf ab tail) s := by
  simp [cutAddress, portBegin_of_open h, h.1]

theorem exec_portWrite_cut {ab : List Byte} (db : List Byte) (tail : List Bool) (held : Bool) (hab : ab.length < 4) :
    exec (.portWrite p ab db tail held) s = .next (portError p 2 (addrOf ab tail) s) := by
  simp [exec_portWrite_eq, execPortWrite, openTx_of_none _ _ h.2.2, hab, cutAddress_of_open h]

theorem exec_portRead_cut {ab : List Byte} (tail : List Bool) (n : Nat) (fin : TxEnd) (fast : Bool)
    (hab : ab.length < 4) :
    exec (.portRead p ab tail n fin fast) s = .next (portError p 2 (addrOf ab tail) s) := by
  rw [exec_portRead_eq]
  unfold execPortRead
  rw [openTx_of_none false ab h.2.2, h.2.1]
  simp [hab, cutAddress_of_open h]

theorem portReadTx_of_open {addr : Nat} (n : Nat) (fin : TxEnd) (fast : Bool) (ha : addr % 4 = 0) :
    portReadTx p addr n fin fast s = readRun p { addr := addr, write := false } n fin fast s := by
  simp [portReadTx, portBegin_of_open h, h.1, ha]

theorem portWriteTx_misaligned {addr : Nat} (ws : List Word) (fin : TxEnd) (ha : addr % 4 ≠ 0) :
    portWriteTx p addr ws fin s = misaligned p true addr ws.length fin (portError p 1 addr s) := by
  simp [portWriteTx, portBegin_of_open h, h.1, ha]

theorem portReadTx_misaligned {addr : Nat} (n : Nat) (fin : TxEnd) (fast : Bool) (ha : addr % 4 ≠ 0) :
    portReadTx p addr n fin fast s =
      misaligned p false addr n fin (drive p (List.replicate n 0) (portError p 1 addr s)) := by
  simp [portReadTx, portBegin_of_open h, h.1, ha]

theorem beginTx_of_open (f : State → State) : beginTx p f s = f s := by
  simp [beginTx, portBegin_of_open h, h.1]

end Open

/-! ## How a transaction ends (R175, R187, R196, R205, R212) -/

/-- Whole words, one or more, with nothing left for the rise of chip select. -/
theorem endWords_whole {o : OpenTx} {n : Nat} (p : Port) (s : State) (hn : o.write = true ∨ o.fresh = false ∨ n ≠ 0)
    (hr : o.reset = 0) (hp : o.paCfg = none) : endWords p o n .whole s = s := by
  have hlate := lateWords_of_none s hr hp
  rcases hn with h | h | h <;> simp [endWords, h, hlate]

theorem misaligned_whole (p : Port) (write : Bool) (addr n : Nat) (s : State) (hn : write = true ∨ n ≠ 0) :
    misaligned p write addr n .whole s = s :=
  endWords_whole p s (hn.imp id .inr) rfl rfl

theorem writeEnd_whole {db : List Byte} (h : db.length % 4 = 0) : writeEnd db [] false = .whole := by
  simp [writeEnd, h]

theorem writeEnd_held {db : List Byte} (h : db.length % 4 = 0) : writeEnd db [] true = .held := by
  simp [writeEnd, h]

theorem writeEnd_cut {db : List Byte} (h : db.length % 4 ≠ 0) (held : Bool) : writeEnd db [] held = .cut := by
  simp [writeEnd, h]

/-! ## One word (R160, R185, R188) -/

/-- A word given to a register whose effect waits for chip select, and any other word. -/
theorem lateWord_single {reg addr : Nat} (s : State) (p : Port) (w : Word) (hreg : reg % 4 = 0) (ha : addr % 4 = 0) :
    lateWord s p reg addr [w] =
      if addr = reg ∧ s.pwr.state ≠ .recovery ∧ accessKind s p true addr w.toNat = none then some w.toNat else none := by
  by_cases he : addr = reg
  · subst he
    simp [lateWord, nth]
  · rw [lateWord_eq_none s p (by simp only [List.length_singleton]; omega), if_neg fun hc => he hc.1]

/-- What waits for chip select after a write of one word. -/
def chipSelectEffect (addr v : Nat) (s t : State) : State :=
  (if addr = 0x400040 ∧ s.pwr.state ≠ .recovery then portResetReg v else id)
    ((if addr = 0x400020 ∧ s.pwr.state ≠ .recovery then paCfgSet v else id) t)

/-- A write of one word that passes its check. -/
theorem portWriteTx_pass {p : Port} {s : State} {addr : Nat} {w : Word} (h : PortOpen p s) (ha : addr % 4 = 0)
    (hk : accessKind s p true addr w.toNat = none) :
    portWriteTx p addr [w] .whole s = chipSelectEffect addr w.toNat s (writeWord p addr w.toNat s) := by
  have hreset : portResetReg 0 = id := by
    funext u
    simp [portResetReg, bits]
  rw [portWriteTx_of_open _ _ h ha]
  simp only [writeRun, endWords, lateWords, chipSelectEffect, burstWrite, resetWord, hk,
    lateWord_single s p w (by decide : 0x400040 % 4 = 0) ha, lateWord_single s p w (by decide : 0x400020 % 4 = 0) ha]
  by_cases hr : s.pwr.state = .recovery
  · simp [hr, hreset]
  · by_cases h1 : addr = 0x400040
    · simp [h1, hr]
    · by_cases h2 : addr = 0x400020 <;> simp [h1, h2, hr, hreset]

/-- A word that fails its check is dropped and raises source 11. -/
theorem portWriteTx_fail {p : Port} {s : State} {addr k : Nat} {w : Word} (h : PortOpen p s) (ha : addr % 4 = 0)
    (hk : accessKind s p true addr w.toNat = some k) :
    portWriteTx p addr [w] .whole s = accessFault p true k addr s := by
  have hlate : ∀ reg, reg % 4 = 0 → lateWord s p reg addr [w] = none := fun reg hreg => by
    rw [lateWord_single s p w hreg ha, if_neg (by simp [hk])]
  rw [portWriteTx_of_open _ _ h ha, writeRun, endWords_whole]
  · simp [burstWrite, hk]
  · exact .inl rfl
  · simp [resetWord, hlate]
  · simp [hlate]

theorem mustStall_of_fail {s : State} {p : Port} {addr k : Nat} (hk : accessKind s p false addr 0 = some k) :
    mustStall s p addr = false := by
  simp [mustStall, hk]

/-- A read whose first word is ready. -/
theorem readRun_whole {p : Port} {s : State} {addr n : Nat} (fast : Bool) (hs : mustStall s p addr = false)
    (hn : n ≠ 0) :
    readRun p { addr := addr, write := false } n .whole fast s =
      drive p (burstRead p fast addr n false s).1 (burstRead p fast addr n false s).2.2 := by
  simp only [readRun, hs, Bool.false_eq_true, and_false, if_false]
  exact endWords_whole _ _ (.inr (.inr hn)) rfl rfl

/-- A read of one word that passes its check and is ready. -/
theorem portReadTx_pass {p : Port} {s : State} {addr : Nat} (fast : Bool) (h : PortOpen p s) (ha : addr % 4 = 0)
    (hk : accessKind s p false addr 0 = none) (hs : mustStall s p addr = false) :
    portReadTx p addr 1 .whole fast s = drive p [(readWord p addr fast s).1] (readWord p addr fast s).2 := by
  rw [portReadTx_of_open h _ _ _ ha, readRun_whole fast hs one_ne_zero]
  simp [burstRead, hk]

/-- A read of one word that fails its check gives 0 and raises source 11. -/
theorem portReadTx_fail {p : Port} {s : State} {addr k : Nat} (fast : Bool) (h : PortOpen p s) (ha : addr % 4 = 0)
    (hk : accessKind s p false addr 0 = some k) :
    portReadTx p addr 1 .whole fast s = drive p [0] (accessFault p false k addr s) := by
  rw [portReadTx_of_open h _ _ _ ha, readRun_whole fast (mustStall_of_fail hk) one_ne_zero]
  simp [burstRead, hk]

/-- Settles O14: a misaligned word, and one that passes or fails its check, written or read. -/
theorem portWord : Obligations.PortWord := by
  unfold Obligations.PortWord
  intro p ab db s h hab hdb addr v taken
  have hwrite : exec (.portWrite p ab db [] false) s = .next (portWriteTx p addr [v] .whole s) := by
    rw [exec_portWrite_of_none db false h.2.2 hab, wordsOf_four hdb, writeEnd_whole (by omega)]
  have hregister : exec (.registerWrite p addr v) s = .next (portWriteTx p addr [v] .whole s) := rfl
  have hread := exec_portRead_of_none 1 .whole false h.2.2 hab
  rw [hwrite, hregister, hread]
  refine ⟨fun ha => ?_, fun ha => ⟨fun hk => ?_, fun k hk => ?_, fun hk hs => ?_, fun k hk => ?_⟩⟩
  · rw [portWriteTx_misaligned h _ _ ha, portReadTx_misaligned h _ _ _ ha, misaligned_whole _ _ _ _ _ (.inl rfl),
      misaligned_whole _ _ _ _ _ (.inr one_ne_zero)]
    exact ⟨rfl, rfl, rfl⟩
  · rw [portWriteTx_pass h ha hk]
    exact ⟨rfl, rfl⟩
  · rw [portWriteTx_fail h ha hk]
    exact ⟨rfl, rfl⟩
  · rw [portReadTx_pass false h ha hk hs]
  · rw [portReadTx_fail false h ha hk]

end Sys2Proof.Machine

namespace Sys2Proof.Machine

open Sys2Proof

/-! ## A burst of words of the Basin (R164, R185) -/

/-- What an aperture gives hangs on the protection table alone. -/
theorem basinKind_congr {s t : State} (h : t.pt = s.pt) (p : Port) (write : Bool) (addr : Nat) :
    basinKind t p write addr = basinKind s p write addr := by
  have hc : apCovers t = apCovers s := by
    funext page k
    simp only [apCovers, h]
  have hg : apGrants t = apGrants s := by
    funext q w k
    simp only [apGrants, h]
  simp only [basinKind, hc, hg]

/-- In service a word of the Basin is checked by the apertures. -/
theorem accessKind_inBasin {s : State} {addr : Nat} (p : Port) (write : Bool) (v : Nat) (h : s.pwr.state ≠ .recovery)
    (ha : addr < basinSize) : accessKind s p write addr v = basinKind s p write addr := by
  have hpage : inTenantPages addr = false := by
    simp only [inTenantPages, basinSize] at ha ⊢
    simp only [Bool.and_eq_false_iff, decide_eq_false_iff_not]
    omega
  simp [accessKind, hpage, h, show addr < 0x400000 from ha]

theorem writeWord_inBasin {s : State} {addr : Nat} (p : Port) (v : Nat) (h : s.pwr.state ≠ .recovery)
    (ha : addr < basinSize) : writeWord p addr v s = basinWrite addr (le 4 v) s := by
  simp [writeWord, h, show addr < 0x400000 from ha]

theorem readWord_inBasin {s : State} {addr : Nat} (p : Port) (fast : Bool) (h : s.pwr.state ≠ .recovery)
    (ha : addr < basinSize) : readWord p addr fast s = (basinWord s addr, s) := by
  simp [readWord, h, show addr < 0x400000 from ha]

/-- A word of a burst that falls into the Basin: written where an aperture grants it, dropped where none does. -/
def burstStep (p : Port) (addr : Nat) (w : Word) (failed : Bool) (s : State) : State :=
  match basinKind s p true addr with
  | some k => if failed then s else accessFault p true k addr s
  | none => basinWrite addr (le 4 w.toNat) s

theorem burstWrite_cons {s : State} {addr : Nat} (p : Port) (w : Word) (ws : List Word) (failed : Bool)
    (h : s.pwr.state ≠ .recovery) (ha : addr + 4 ≤ basinSize) :
    burstWrite p addr (w :: ws) failed s =
      burstWrite p (addr + 4) ws (failed || (basinKind s p true addr).isSome) (burstStep p addr w failed s) := by
  have hnext : (addr + 4) % 2 ^ 32 = addr + 4 := Nat.mod_eq_of_lt (by simp only [basinSize] at ha; omega)
  simp only [burstWrite, accessKind_inBasin p true w.toNat h (by omega : addr < basinSize), hnext, burstStep]
  cases basinKind s p true addr with
  | none => simp [writeWord_inBasin p w.toNat h (by omega : addr < basinSize)]
  | some k => simp

section Step

variable (p : Port) (addr : Nat) (w : Word) (failed : Bool) (s : State)

@[simp] theorem burstStep_pt : (burstStep p addr w failed s).pt = s.pt := by
  unfold burstStep
  (repeat' split) <;> simp [basinWrite]

@[simp] theorem burstStep_pwr : (burstStep p addr w failed s).pwr = s.pwr := by
  unfold burstStep
  (repeat' split) <;> simp [basinWrite]

variable {s}

theorem burstStep_wf (hs : s.basin.wf) : (burstStep p addr w failed s).basin.wf := by
  unfold burstStep
  (repeat' split) <;> simp [hs, basinWrite_wf]

/-- Bytes outside the word stay. -/
theorem basinByte_burstStep_outside {b : Nat} (hs : s.basin.wf) (hb : b < addr ∨ addr + 4 ≤ b) :
    basinByte (burstStep p addr w failed s) b = basinByte s b := by
  unfold burstStep
  split
  · split <;> simp [basinByte]
  · rw [basinByte_basinWrite _ _ _ hs, length_le, if_neg (by omega)]

theorem basinWord_burstStep (hs : s.basin.wf) (ha : addr + 4 ≤ basinSize) :
    basinWord (burstStep p addr w failed s) addr =
      if basinKind s p true addr = none then w.toNat else basinWord s addr := by
  unfold burstStep
  cases basinKind s p true addr with
  | none => exact basinWord_basinWrite w hs ha
  | some k =>
    dsimp only
    split <;> exact basinWord_congr fun i _ => by simp [basinByte]

end Step

/-- Bytes outside a burst of the Basin stay. -/
theorem basinByte_burstWrite_outside {p : Port} {ws : List Word} {addr b : Nat} {failed : Bool} {s : State}
    (h : s.pwr.state ≠ .recovery) (hs : s.basin.wf) (ha : addr + 4 * ws.length ≤ basinSize)
    (hb : b < addr ∨ addr + 4 * ws.length ≤ b) :
    basinByte (burstWrite p addr ws failed s).2 b = basinByte s b := by
  induction ws generalizing addr failed s with
  | nil => rfl
  | cons w ws ih =>
    simp only [List.length_cons] at ha hb
    rw [burstWrite_cons p w ws failed h (by omega), ih (by simpa using h) (burstStep_wf _ _ _ _ hs) (by omega) (by omega),
      basinByte_burstStep_outside _ _ _ _ hs (by omega)]

/-- Each word of a burst of the Basin is checked on its own. -/
theorem basinWord_burstWrite {p : Port} {ws : List Word} {addr : Nat} {failed : Bool} {s : State}
    (h : s.pwr.state ≠ .recovery) (hs : s.basin.wf) (ha : addr + 4 * ws.length ≤ basinSize) {i : Nat}
    (hi : i < ws.length) :
    basinWord (burstWrite p addr ws failed s).2 (addr + 4 * i) =
      if basinKind s p true (addr + 4 * i) = none then (nth ws i 0).toNat else basinWord s (addr + 4 * i) := by
  induction ws generalizing addr failed s i with
  | nil => cases hi
  | cons w ws ih =>
    simp only [List.length_cons] at ha hi
    have hr : (burstStep p addr w failed s).pwr.state ≠ .recovery := by simpa using h
    have hwf := burstStep_wf p addr w failed hs
    rw [burstWrite_cons p w ws failed h (by omega)]
    cases i with
    | zero =>
      rw [basinWord_congr fun j hj => basinByte_burstWrite_outside hr hwf (by omega) (.inl (by omega)),
        Nat.mul_zero, Nat.add_zero, basinWord_burstStep p addr w failed hs (by omega)]
      rfl
    | succ i =>
      have haddr : addr + 4 * (i + 1) = addr + 4 + 4 * i := by omega
      rw [haddr, ih hr hwf (by omega) (by omega), basinKind_congr (burstStep_pt ..),
        basinWord_congr fun j hj => basinByte_burstStep_outside p addr w failed hs (.inr (by omega))]
      rfl

/-- Each word read from the Basin in a burst is checked on its own. -/
theorem burstRead_inBasin {p : Port} {fast : Bool} {n addr : Nat} {failed : Bool} {s : State}
    (h : s.pwr.state ≠ .recovery) (ha : addr + 4 * n ≤ basinSize) :
    (burstRead p fast addr n failed s).1 = (List.range n).map fun i =>
      if basinKind s p false (addr + 4 * i) = none then basinWord s (addr + 4 * i) else 0 := by
  induction n generalizing addr failed s with
  | zero => rfl
  | succ n ih =>
    have hnext : (addr + 4) % 2 ^ 32 = addr + 4 := Nat.mod_eq_of_lt (by simp only [basinSize] at ha; omega)
    have htail : ∀ {g : Bool} {t : State}, t.pwr = s.pwr → t.pt = s.pt → t.basin = s.basin →
        (burstRead p fast (addr + 4) n g t).1 = (List.range n).map fun i =>
          if basinKind s p false (addr + 4 * (i + 1)) = none then basinWord s (addr + 4 * (i + 1)) else 0 := by
      intro g t hpwr hpt hbasin
      rw [ih (by rwa [hpwr]) (by omega)]
      refine List.map_congr_left fun i _ => ?_
      rw [basinKind_congr hpt, basinWord_congr (s := s) fun j _ => by simp only [basinByte, hbasin],
        show addr + 4 + 4 * i = addr + 4 * (i + 1) by omega]
    rw [List.range_succ_eq_map, List.map_cons, List.map_map]
    simp only [burstRead, accessKind_inBasin p false 0 h (by omega : addr < basinSize), hnext, Nat.mul_zero, Nat.add_zero]
    cases basinKind s p false addr with
    | none =>
      rw [readWord_inBasin p fast h (by omega), htail rfl rfl rfl]
      rfl
    | some k =>
      dsimp only
      rw [htail (by split <;> simp) (by split <;> simp) (by split <;> simp)]
      rfl

/-- Settles O15, word by word of the burst. -/
theorem burstWordsCheckedApart : Obligations.BurstWordsCheckedApart := by
  unfold Obligations.BurstWordsCheckedApart
  intro p ab ws s h hs hab hws addr ha hlen
  obtain ⟨hopen, hserv⟩ := h
  have hr := state_ne_recovery_of_inService hserv
  have hbelow : addr + 4 * ws.length ≤ 0x400000 := hlen
  have hdata : (ws.map fun w => le 4 w.toNat).flatten.length % 4 = 0 := by
    simp [List.length_flatten, Function.comp_def]
  refine ⟨⟨(burstWrite p addr ws false s).2, ?_, fun i hi => basinWord_burstWrite hr hs hlen hi,
    fun b hb => basinByte_burstWrite_outside hr hs hlen hb⟩,
    _, exec_portRead_of_none _ _ _ hopen.2.2 hab, ?_⟩
  · rw [exec_portWrite_of_none _ _ hopen.2.2 hab, wordsOf_flatten, writeEnd_whole hdata, portWriteTx_of_open _ _ hopen ha,
      writeRun, endWords_whole p _ (.inl rfl)]
    · simp [resetWord, lateWord_eq_none s p (.inr (by omega : addr + 4 * ws.length ≤ 0x400040))]
    · simp [lateWord_eq_none s p (.inr (by omega : addr + 4 * ws.length ≤ 0x400020))]
  · have hpos : 0 < ws.length := List.length_pos_iff.2 hws
    have hstall : mustStall s p addr = false := by
      have hrng : ¬ addr = 0x402000 := by omega
      have hsync : ¬ addr = icBase + 8 := by simp only [icBase]; omega
      simp [mustStall, hrng, hsync]
    rw [portReadTx_of_open hopen _ _ _ ha, readRun_whole false hstall (by omega), burstRead_inBasin hr hlen]
    cases p <;> simp [drive, onPort, portSt, Function.comp_def]

end Sys2Proof.Machine

/-! # Registers of the host ports

Ring indices, the global registers and port resets, each a word of a port transaction with an effect of its own. -/

namespace Sys2Proof.Machine

open Sys2Proof

/-! ## Ring indices (R87, R200, R201, R234, R238) -/

/-- The address of a tenant page register. -/
theorem pageAddr_spec {n off : Nat} (hn : n < 8) (hoff : off < 0x400) :
    inTenantPages (pageAddr n off) = true ∧ (pageAddr n off - 0x408000) / 0x400 = n ∧
      (pageAddr n off - 0x408000) % 0x400 = off := by
  have hsub : pageAddr n off - 0x408000 = 0x400 * n + off := by simp only [pageAddr]; omega
  refine ⟨?_, by omega, by omega⟩
  rw [inTenantPages, Bool.and_eq_true, decide_eq_true_eq, decide_eq_true_eq]
  simp only [pageAddr]
  omega

/-- A write to a listed tenant page register passes its check where the page takes nothing yet, or comes from a port of
the tenant. -/
theorem accessKind_page {p : Port} {s : State} {n off : Nat} (v : Nat) (hn : n < 8) (hoff : off < 0x40)
    (hl : pageListed off = true) (h : s.pwr.state ≠ .run ∨ portOf s p n = true) :
    accessKind s p true (pageAddr n off) v = none := by
  obtain ⟨hpage, hdiv, hmod⟩ := pageAddr_spec hn (by omega : off < 0x400)
  by_cases hrun : s.pwr.state = .run
  · have hport : portOf s p n = true := h.resolve_left (not_not.2 hrun)
    have hrange : ¬ pageAddr n off < 0x400000 ∧ ¬ pageAddr n off < 0x401000 ∧ ¬ pageAddr n off < 0x402000 ∧
        ¬ pageAddr n off < 0x403000 ∧ 0x408000 ≤ pageAddr n off ∧ pageAddr n off < 0x40A000 := by
      simp only [pageAddr]; omega
    simp [accessKind, hrun, hrange, hdiv, hmod, hport, hl]
  · simp [accessKind, hpage, hrun]

/-- A tenant page takes a word in service only. -/
theorem writeWord_page {s : State} {n off : Nat} (p : Port) (v : Nat) (hn : n < 8) (hoff : off < 0x40) :
    writeWord p (pageAddr n off) v s = if s.pwr.state = .run then tenantPageWrite n off v s else s := by
  obtain ⟨hpage, hdiv, hmod⟩ := pageAddr_spec hn (by omega : off < 0x400)
  have hrange : ¬ pageAddr n off < 0x400000 ∧ ¬ pageAddr n off < 0x401000 ∧ ¬ pageAddr n off < 0x402000 ∧
      ¬ pageAddr n off < 0x1000 ∧ pageAddr n off ≠ 0x400F04 ∧ pageAddr n off ≠ 0x400F08 ∧
      pageAddr n off ≠ 0x400F0C := by
    simp only [pageAddr]; omega
  by_cases hrec : s.pwr.state = .recovery
  · simp [writeWord, hrec, recWriteWord, hrange]
  · simp [writeWord, hrec, hrange, hpage, hdiv, hmod]

/-- A write to a tenant page register, before step 11 and in service. -/
theorem portWriteTx_page {p : Port} {s : State} {n off : Nat} (v : Word) (h : PortOpen p s) (hn : n < 8)
    (hoff : off < 0x40) (hl : pageListed off = true) (hp : s.pwr.state ≠ .run ∨ portOf s p n = true) :
    portWriteTx p (pageAddr n off) [v] .whole s =
      if s.pwr.state = .run then tenantPageWrite n off v.toNat s else s := by
  have ha : off % 4 = 0 := by
    simp only [pageListed, Bool.and_eq_true, beq_iff_eq] at hl
    exact hl.1.1
  rw [portWriteTx_word h (by simp only [pageAddr]; omega) (by simp only [pageAddr]; omega)
    (by simp only [pageAddr]; omega) (accessKind_page _ hn hoff hl hp), writeWord_page p _ hn hoff]

section Page

variable {p : Port} {s : State} {n : Nat} (v : Word) (h : PortOpen p s) (hn : n < 8)
include h hn

/-- Before step 11 of start-up, and in recovery service, a tenant page takes nothing (R87). -/
theorem exec_ringWrites_idle (hs : s.pwr.state ≠ .run) :
    exec (.cmdProdWrite p n v) s = .next s ∧ exec (.rplConsWrite p n v) s = .next s ∧
      exec (.evtConsWrite p n v) s = .next s := by
  have hpage : ∀ off, off < 0x40 → pageListed off = true → portWriteTx p (pageAddr n off) [v] .whole s = s :=
    fun off hoff hl => (portWriteTx_page v h hn hoff hl (.inl hs)).trans (if_neg hs)
  exact ⟨congrArg _ (hpage 0 (by decide) rfl), congrArg _ (hpage 0xC (by decide) rfl),
    congrArg _ (hpage 0x14 (by decide) rfl)⟩

variable (hs : s.pwr.state = .run) (hp : portOf s p n = true)
include hs hp

theorem portWriteTx_page_run {off : Nat} (hoff : off < 0x40) (hl : pageListed off = true) :
    portWriteTx p (pageAddr n off) [v] .whole s = tenantPageWrite n off v.toNat s :=
  (portWriteTx_page v h hn hoff hl (.inr hp)).trans (if_pos hs)

theorem exec_cmdProdWrite : exec (.cmdProdWrite p n v) s = .next (cmdProdSet n v.toNat s) :=
  congrArg _ (portWriteTx_page_run v h hn hs hp (by decide) rfl)

theorem exec_rplConsWrite : exec (.rplConsWrite p n v) s = .next (rplConsSet n v.toNat s) :=
  congrArg _ (portWriteTx_page_run v h hn hs hp (by decide) rfl)

theorem exec_evtConsWrite : exec (.evtConsWrite p n v) s = .next (evtConsSet n v.toNat s) :=
  congrArg _ (portWriteTx_page_run v h hn hs hp (by decide) rfl)

end Page

/-- CMD_PROD of a disabled or resetting tenant stays as it is (R234). -/
theorem cmdProdSet_of_closed {s : State} {n : Nat} (v : Nat)
    (h : (tenant s n).resetting = true ∨ enabled s n = false) : cmdProdSet n v s = s := by
  rcases h with h | h <;> simp [cmdProdSet, h]

/-- A change of a tenant is told by what it makes of that tenant. -/
theorem onTenant_congr {n : Nat} {f g : Tenant → Tenant} {s : State} (h : f (tenant s n) = g (tenant s n)) :
    onTenant n f s = onTenant n g s := by
  have hlist : modAt s.tenants n f = modAt s.tenants n g := by
    refine List.ext_getElem? fun i => ?_
    simp only [modAt, List.getElem?_modify]
    by_cases hi : n = i
    · subst hi
      cases ht : s.tenants[n]? with
      | none => rfl
      | some t =>
        have htenant : tenant s n = t := by simp [tenant, nth, List.getD, ht]
        simpa [htenant] using h
    · simp [hi]
  simp only [onTenant, State.onTenants, hlist]

/-- A producer index is taken over where it lies in range, and ignored where not (R201). -/
theorem cmdProdSet_of_open {s : State} {n : Nat} (v : Nat) (he : enabled s n = true)
    (hr : (tenant s n).resetting = false) :
    cmdProdSet n v s =
      let g := (tenant s n).place
      let i := v % 2 ^ 16
      onTenant n (fun t =>
        if 2 * g.cmdN ≤ i ∨ g.cmdN < ringUsed i t.cmdCons g.cmdN then { t with idxErr := true }
        else { t with cmdProd := i, idxErr := false }) s := by
  simp only [cmdProdSet, he, hr, Bool.not_true, Bool.or_self, Bool.false_eq_true, if_false, Bool.or_eq_true,
    decide_eq_true_eq]
  split
  next h => exact onTenant_congr (if_pos h).symm
  next h => exact onTenant_congr (if_neg h).symm

theorem rplConsSet_eq (n v : Nat) (s : State) :
    rplConsSet n v s =
      let t := tenant s n
      let i := v % 2 ^ 16
      if 2 * t.place.rplN ≤ i ∨ t.place.rplN < ringUsed t.rplProd i t.place.rplN then
        onTenant n (fun t => { t with idxErr := true }) s
      else resetAgain (drainTenant n (onTenant n (fun t => { t with rplCons := i, idxErr := false }) s)) := by
  simp only [rplConsSet, Bool.or_eq_true, decide_eq_true_eq]

theorem evtConsSet_eq (n v : Nat) (s : State) :
    evtConsSet n v s =
      let t := tenant s n
      let i := v % 2 ^ 16
      if 2 * t.place.evtN ≤ i ∨ t.place.evtN < ringUsed t.evtProd i t.place.evtN then
        onTenant n (fun t => { t with idxErr := true }) s
      else clearMarks n (onTenant n (fun t => { t with evtCons := i, idxErr := false }) s) := by
  simp only [evtConsSet, Bool.or_eq_true, decide_eq_true_eq]

theorem drainTenant_of_not_resetting {s : State} {n : Nat} (h : (tenant s n).resetting = false) :
    drainTenant n s = s := by
  simp [drainTenant, h]

theorem resetAgain_of_not_waiting {s : State} (h : ∀ e, s.houseLane.exec = some e → e.phase ≠ .resetWait) :
    resetAgain s = s := by
  unfold resetAgain
  split
  next e he => exact if_neg fun hc => h e he hc.1
  next => rfl

/-- A ring of indices from 0 to 2·N − 1 is empty where they are equal and full where they differ by N (R200). -/
theorem ringUsed_spec {p c n : Nat} (hp : p < 2 * n) (hc : c < 2 * n) :
    (ringUsed p c n = 0 ↔ p = c) ∧ (ringUsed p c n = n ↔ p = c + n ∨ c = p + n) := by
  rcases Nat.lt_or_ge p c with h | h
  · rw [ringUsed, Nat.mod_eq_of_lt (by omega : p + 2 * n - c < 2 * n)]
    omega
  · rw [ringUsed, show p + 2 * n - c = p - c + 2 * n by omega, Nat.add_mod_right,
      Nat.mod_eq_of_lt (by omega : p - c < 2 * n)]
    omega

/-- The index after the last is 0 (R200). -/
theorem ringNext_spec {p n : Nat} (hn : 0 < n) (hp : p < 2 * n) :
    (p + 1) % (2 * n) < 2 * n ∧ ((p + 1) % (2 * n) = 0 ↔ p = 2 * n - 1) := by
  refine ⟨Nat.mod_lt _ (by omega), ?_⟩
  rcases Nat.lt_or_eq_of_le (by omega : p + 1 ≤ 2 * n) with h | h
  · rw [Nat.mod_eq_of_lt h]
    omega
  · rw [h, Nat.mod_self]
    omega

/-- Settles O9: the tenant page before step 11, its three indices in service, and the arithmetic of a ring. -/
theorem ringIndexWrite : Obligations.RingIndexWrite := by
  unfold Obligations.RingIndexWrite
  refine ⟨fun p n v s h hn hs => exec_ringWrites_idle v h hn hs, fun p n v s h hs hn hp => ?_,
    fun p c n hn hp hc => ?_⟩
  · obtain ⟨hopen, -⟩ := h
    rw [exec_cmdProdWrite v hopen hn hs hp, exec_rplConsWrite v hopen hn hs hp, exec_evtConsWrite v hopen hn hs hp]
    refine ⟨fun h => by rw [cmdProdSet_of_closed _ h], fun he hr => by rw [cmdProdSet_of_open _ he hr], fun hi => ?_,
      fun hi => ?_, drainTenant_of_not_resetting, resetAgain_of_not_waiting, by rw [evtConsSet_eq]⟩
    · rw [rplConsSet_eq]
      exact congrArg _ (if_neg hi)
    · rw [rplConsSet_eq]
      exact congrArg _ (if_pos hi)
  · obtain ⟨hempty, hfull⟩ := ringUsed_spec hp hc
    obtain ⟨hlt, hwrap⟩ := ringNext_spec hn hp
    exact ⟨hempty, hfull, hlt, hwrap⟩

end Sys2Proof.Machine

namespace Sys2Proof.Machine

open Sys2Proof

/-! ## The global registers (R190–R197) -/

/-- A global register that is listed passes its check, but for PA_CFG from port B and PORT_RESET from a port that is not
the Keeper's. -/
theorem accessKind_global {s : State} {p : Port} {off : Nat} (write : Bool) (v : Nat) (h : s.pwr.state ≠ .recovery)
    (hl : globalListed off = true) (hoff : off < 0x1000) :
    accessKind s p write (0x400000 + off) v =
      if write && (off == 0x20 && p == .b || off == 0x40 && !portOf s p 0) then some 2 else none := by
  have hpage : inTenantPages (0x400000 + off) = false := by
    rw [inTenantPages, Bool.and_eq_false_iff, decide_eq_false_iff_not]
    exact .inl (by omega)
  have hrange : ¬ 0x400000 + off < 0x400000 ∧ 0x400000 + off < 0x401000 := by omega
  simp [accessKind, hpage, h, hrange, hl]

/-- The words of the global registers have no effect before chip select rises. -/
theorem writeWord_global {s : State} {off : Nat} (p : Port) (v : Nat) (h : s.pwr.state ≠ .recovery)
    (hoff : off < 0x1000) : writeWord p (0x400000 + off) v s = s := by
  have hrange : ¬ 0x400000 + off < 0x400000 ∧ 0x400000 + off < 0x401000 := by omega
  simp [writeWord, h, hrange]

theorem mustStall_global {s : State} {off : Nat} (p : Port) (hoff : off < 0x1000) :
    mustStall s p (0x400000 + off) = false := by
  have hrng : ¬ 0x400000 + off = 0x402000 := by omega
  have hsync : ¬ 0x400000 + off = icBase + 8 := by simp only [icBase]; omega
  simp [mustStall, hrng, hsync]

section Global

variable {p : Port} {s : State} (h : PortReady p s)
include h

/-- A read of a listed global register. -/
theorem portReadTx_global {off : Nat} (hl : globalListed off = true) (hoff : off < 0x1000) (ha : off % 4 = 0) :
    portReadTx p (0x400000 + off) 1 .whole false s = drive p [(globalRead p off s).1] (globalRead p off s).2 := by
  obtain ⟨hopen, hserv⟩ := h
  have hr := state_ne_recovery_of_inService hserv
  have hword : readWord p (0x400000 + off) false s = globalRead p off s := by
    have hrange : ¬ 0x400000 + off < 0x400000 ∧ 0x400000 + off < 0x401000 := by omega
    simp [readWord, hr, hrange]
  rw [portReadTx_pass false hopen (by omega) ((accessKind_global false 0 hr hl hoff).trans (by simp))
    (mustStall_global p hoff), hword]

theorem exec_timeLoRead : exec (.timeLoRead p) s = .next (onPort p (fun x =>
    { x with timeHi := BitVec.ofNat 32 (s.time / 2 ^ 32), rdata := le 4 (s.time % 2 ^ 32) }) s) := by
  refine congrArg _ ((portReadTx_global h (off := 0x18) rfl (by decide) rfl).trans ?_)
  cases p <;> rfl

/-- The error register that is read is cleared and armed again. -/
theorem exec_portErrRead (q : Port) : exec (.portErrRead p q) s =
    .next (drive p [(portSt s q).err.toNat] (onPort q (fun x => { x with err := 0, armed := true }) s)) := by
  cases q
  · exact congrArg _ (portReadTx_global h (off := 0x24) rfl (by decide) rfl)
  · exact congrArg _ (portReadTx_global h (off := 0x30) rfl (by decide) rfl)

end Global

theorem exec_paCfgWrite_a {s : State} (v : Word) (h : PortReady .a s) :
    exec (.paCfgWrite .a v) s = .next (paCfgSet v.toNat s) := by
  obtain ⟨hopen, hserv⟩ := h
  have hr := state_ne_recovery_of_inService hserv
  have hk : accessKind s .a true 0x400020 v.toNat = none := accessKind_global (off := 0x20) true _ hr rfl (by decide)
  refine congrArg _ ((portWriteTx_pass hopen rfl hk).trans ?_)
  rw [writeWord_global (off := 0x20) .a _ hr (by decide)]
  simp [chipSelectEffect, hr]

theorem exec_paCfgWrite_b {s : State} (v : Word) (h : PortReady .b s) :
    exec (.paCfgWrite .b v) s = .next (accessFault .b true 2 0x400020 s) := by
  obtain ⟨hopen, hserv⟩ := h
  have hr := state_ne_recovery_of_inService hserv
  exact congrArg _ (portWriteTx_fail hopen rfl (accessKind_global (off := 0x20) true _ hr rfl (by decide)))

/-- Settles O17: PA_CFG from each port, TIME_LO, and the error registers. -/
theorem globalRegisters : Obligations.GlobalRegisters := by
  unfold Obligations.GlobalRegisters
  refine ⟨fun v s h => exec_paCfgWrite_b v h, fun p q v s => ⟨fun h => exec_paCfgWrite_a v h,
    fun h => exec_timeLoRead h, fun h => ⟨_, exec_portErrRead h q, ?_⟩⟩⟩
  cases p <;> cases q <;> simp [drive, onPort, portSt, State.onPortA, State.onPortB]

/-! ## Port errors and port resets (R161, R163, R188, R196, R198, R205–R211) -/

section Errors

variable {p : Port} {s : State} (h : PortOpen p s)
include h

theorem beginError_of_open (code : Nat) : beginError p code s = portError p code 0 s := beginTx_of_open h _

theorem exec_portBadCommand_unknown {cmd : List Byte} (part : Bool) (hlen : 1 + b2n (hasExtension s p) ≤ cmd.length)
    (hc : portCommand (hasExtension s p) (cmd.take (1 + b2n (hasExtension s p))) = none) :
    exec (.portBadCommand p cmd part) s = .next (portError p 3 0 s) := by
  have hne : cmd ≠ [] := fun he => by simp [he] at hlen
  change execPortBadCommand p s cmd part = _
  simp [execPortBadCommand, hne, hc, Nat.min_eq_left hlen, beginError_of_open h]

theorem exec_portBadCommand_cut {cmd : List Byte} {part : Bool} (hlen : cmd.length < 1 + b2n (hasExtension s p))
    (hbits : cmd ≠ [] ∨ part = true) : exec (.portBadCommand p cmd part) s = .next (portError p 2 0 s) := by
  have hsome : ¬ (cmd = [] ∧ part = false) := fun he => by simp [he] at hbits
  change execPortBadCommand p s cmd part = _
  simp [execPortBadCommand, hsome, hlen, beginError_of_open h]

theorem exec_portResetSequence_cut {n : Nat} (hpos : 0 < n) (hn : n < 16) :
    exec (.portResetSequence p n) s = .next (portError p 2 0 s) := by
  change execPortResetSequence p n s = _
  rw [execPortResetSequence, if_neg hpos.ne', if_neg (Nat.not_le.2 hn), beginError_of_open h]

theorem exec_portResetSequence {n : Nat} (hn : 16 ≤ n) :
    exec (.portResetSequence p n) s = .next (resetPort p s) := by
  change execPortResetSequence p n s = _
  rw [execPortResetSequence, if_neg (by omega), if_pos hn, beginTx_of_open h]

theorem exec_reservedWrite {addr : Nat} (ha : addr % 4 = 0) (hk : accessKind s p true addr 0 = some 0) :
    exec (.reservedAccess p addr true) s = .next (accessFault p true 0 addr s) := by
  change execReservedAccess p addr true s = _
  rw [execReservedAccess, if_pos hk, if_pos rfl, portWriteTx_fail (w := 0) h ha hk]

theorem exec_reservedRead {addr : Nat} (ha : addr % 4 = 0) (hk : accessKind s p false addr 0 = some 0) :
    exec (.reservedAccess p addr false) s = .next (drive p [0] (accessFault p false 0 addr s)) := by
  change execReservedAccess p addr false s = _
  rw [execReservedAccess, if_pos hk, if_neg Bool.false_ne_true, portReadTx_fail false h ha hk]

end Errors

/-- PORT_RESET with its KEY resets port A before port B; with another KEY it changes nothing (R198). -/
theorem portResetReg_eq (v : Nat) (s : State) :
    portResetReg v s =
      if bits v 15 8 = 0xA5 then
        (if bit v 1 then resetPort .b else id) ((if bit v 0 then resetPort .a else id) s)
      else s := by
  rw [portResetReg]
  by_cases hkey : bits v 15 8 = 0xA5
  · rw [if_neg (not_not.2 hkey), if_pos hkey]
    cases bit v 0 <;> cases bit v 1 <;> rfl
  · rw [if_pos hkey, if_neg hkey]

/-- From a port of the Keeper. -/
theorem exec_portReset {p : Port} {s : State} (v : Word) (h : PortReady p s) (hp : portOf s p 0 = true) :
    exec (.portReset p v) s = .next (portResetReg v.toNat s) := by
  obtain ⟨hopen, hserv⟩ := h
  have hr := state_ne_recovery_of_inService hserv
  have hk : accessKind s p true 0x400040 v.toNat = none :=
    (accessKind_global (off := 0x40) true _ hr rfl (by decide)).trans (by simp [hp])
  refine congrArg _ ((portWriteTx_pass hopen rfl hk).trans ?_)
  rw [writeWord_global (off := 0x40) p _ hr (by decide)]
  simp [chipSelectEffect, hr]

/-- Settles O18: what is wrong with a command, a reset sequence or an address, and then PORT_RESET. -/
theorem portErrorsAndResets : Obligations.PortErrorsAndResets := by
  unfold Obligations.PortErrorsAndResets
  refine ⟨fun p cmd part addr n s h => ⟨⟨exec_portBadCommand_unknown h part, exec_portBadCommand_cut h, ?_⟩,
    exec_portResetSequence_cut h, exec_portResetSequence h, exec_reservedWrite h, exec_reservedRead h⟩,
    fun p v s h => ⟨fun hp hkey => ?_, fun hp hkey => ?_⟩⟩
  · rintro rfl rfl
    rfl
  · rw [exec_portReset v h hp, portResetReg_eq, if_pos hkey]
  · rw [exec_portReset v h hp, portResetReg_eq, if_neg hkey]

/-! ## Stalls of port A and the RNG registers (R168, R171, R182, R352, R703) -/

/-- A stalled read of an RNG word that ends without one reads 0 with TIMEOUT (R703). -/
theorem stallTimeout_rng {st : Stall} (s : State) (h : st.addr = 0x402000) :
    stallTimeout st s = endStall st 0 (s.onPortA fun q => { q with rngTimeout := true }) := if_pos h

theorem stallTimeout_sync {st : Stall} (s : State) (h : st.addr ≠ 0x402000) :
    stallTimeout st s = endStall st 1 (deliverAhead st s) := if_neg h

section Stalled

variable {st : Stall} {s : State} (h : s.portA.stall = some st)
include h

theorem exec_portReadDataReady_rng {w : Word} {u : State} (ha : st.addr = 0x402000) (hf : fenced s 4 = false)
    (hw : rngTakeWord s = some (w, u)) : exec .portReadDataReady s = .next (endStall st w.toNat u) := by
  change execPortReadDataReady s = _
  simp [execPortReadDataReady, h, ha, hf, hw]

theorem exec_portReadDataReady_fenced (hf : fenced s 4 = true) (ha : st.addr = 0x402000) :
    exec .portReadDataReady s = .next (endStall st 0 (s.onPortA fun q => { q with rngTimeout := true })) := by
  rw [← stallTimeout_rng s ha]
  change execPortReadDataReady s = _
  simp [execPortReadDataReady, h, ha, hf]

theorem exec_portReadDataReady_sync (ha : st.addr ≠ 0x402000) (hd : st.ahead = 0 ∨ s.ic.flight = []) :
    exec .portReadDataReady s = .next (endStall st 1 s) := by
  change execPortReadDataReady s = _
  simp [execPortReadDataReady, h, ha, hd]

theorem exec_portStallLimit_sync (ha : st.addr ≠ 0x402000) (ht : st.since + 1 ≤ s.time) :
    exec .portStallLimit s = .next (endStall st 1 (deliverAhead st s)) := by
  rw [← stallTimeout_sync s ha]
  change execPortStallLimit s = _
  simp [execPortStallLimit, h, stallLimit, ha, ht]

theorem exec_portStallLimit_rng (ha : st.addr = 0x402000) (ht : st.since + cfg s 0x602 ≤ s.time) :
    exec .portStallLimit s = .next (endStall st 0 (s.onPortA fun q => { q with rngTimeout := true })) ∧
      exec .rngWaitTimeout s = .next (endStall st 0 (s.onPortA fun q => { q with rngTimeout := true })) := by
  rw [← stallTimeout_rng s ha]
  constructor
  · change execPortStallLimit s = _
    simp [execPortStallLimit, h, stallLimit, ha, ht]
  · change execRngWaitTimeout s = _
    simp [execRngWaitTimeout, h, ha, ht]

end Stalled

/-! ### A new transaction ends a stalled read (R168, R196, R210) -/

@[simp] theorem rngReseed_portA (s : State) : (rngReseed s).portA = s.portA := by
  simp only [rngReseed]
  split <;> simp

@[simp] theorem rngBefore_portA (pr : Bool) (s : State) : (rngBefore pr s).portA = s.portA := by
  unfold rngBefore
  (repeat' split) <;> simp

@[simp] theorem rngWait_portA (s : State) : (rngWait s).portA = s.portA := by
  unfold rngWait
  split <;> simp

theorem rngGenerate_portA {pr : Bool} {n : Nat} {ws : List Half} {s t : State}
    (h : rngGenerate pr n s = some (ws, t)) : t.portA = s.portA := by
  unfold rngGenerate at h
  split at h
  · obtain ⟨-, rfl⟩ := Prod.mk.inj (Option.some.inj h)
    simp
  · cases h

@[simp] theorem rngRefillPort_portA (s : State) : (rngRefillPort s).portA = s.portA := by
  fun_cases rngRefillPort
  case case1 => simp
  case case2 h => simp [rngGenerate_portA h]
  case case3 => rfl

theorem rngTakeWord_portA {w : Word} {s t : State} (h : rngTakeWord s = some (w, t)) : t.portA = s.portA := by
  unfold rngTakeWord at h
  dsimp only at h
  (repeat' split at h)
  · cases h
  · cases h
  · obtain ⟨-, rfl⟩ := Prod.mk.inj (Option.some.inj h)
    simp

@[simp] theorem discardDraw_portA (p : Port) (addr : Nat) (s : State) : (discardDraw p addr s).portA = s.portA := by
  fun_cases discardDraw
  case case1 h => exact rngTakeWord_portA h
  all_goals rfl

/-- An ABANDON leaves what its port has in progress. -/
theorem portError_abandon_inProgress (addr : Nat) (s : State) :
    (portError .a 4 addr s).portA.burst = s.portA.burst ∧ (portError .a 4 addr s).portA.stall = s.portA.stall := by
  simp [portError, portErrEvent, portErrFlag, onPort, State.onPortA]

/-- Once a transaction has begun, with nothing open before it, nothing is in progress that another could end. -/
theorem portBegin_idem {s : State} (hb : s.portA.burst = none) : portBegin .a (portBegin .a s) = portBegin .a s := by
  have hnone : ∀ t : State, t.portA.burst = none → t.portA.stall = none → portBegin .a t = t := fun t h1 h2 => by
    simp [portBegin, portSt, h1, h2]
  cases hst : s.portA.stall with
  | none => rw [hnone s hb hst, hnone s hb hst]
  | some st =>
    have hbegin : portBegin .a s =
        portError .a 4 st.addr (discardDraw .a st.addr (s.onPortA fun q => { q with stall := none })) := by
      simp [portBegin, portSt, hb, hst]
    obtain ⟨hburst, hstall⟩ :=
      portError_abandon_inProgress st.addr (discardDraw .a st.addr (s.onPortA fun q => { q with stall := none }))
    rw [hbegin]
    exact hnone _ (hburst.trans (by simp [hb])) (hstall.trans (by simp))

end Sys2Proof.Machine

namespace Sys2Proof.Machine

open Sys2Proof

section StallEnded

variable {s : State} (hup : portUp s .a = true) (hb : s.portA.burst = none)
include hup hb

/-- A transaction that comes while one is stalled acts on the state that the ABANDON of the stalled one leaves. -/
theorem portReadTx_portBegin (addr n : Nat) (fin : TxEnd) (fast : Bool) :
    portReadTx .a addr n fin fast s = portReadTx .a addr n fin fast (portBegin .a s) := by
  have hidem := portBegin_idem hb
  cases hup' : portUp (portBegin .a s) .a <;> simp [portReadTx, hup, hup', hidem]

theorem portWriteTx_portBegin (addr : Nat) (ws : List Word) (fin : TxEnd) :
    portWriteTx .a addr ws fin s = portWriteTx .a addr ws fin (portBegin .a s) := by
  have hidem := portBegin_idem hb
  cases hup' : portUp (portBegin .a s) .a <;> simp [portWriteTx, hup, hup', hidem]

end StallEnded

theorem portBegin_of_stall {st : Stall} {s : State} (hb : s.portA.burst = none) (hst : s.portA.stall = some st) :
    portBegin .a s =
      portError .a 4 st.addr (discardDraw .a st.addr (s.onPortA fun q => { q with stall := none })) := by
  simp [portBegin, portSt, hb, hst]

theorem portBegin_burst_of_stall {st : Stall} {s : State} (hb : s.portA.burst = none) (hst : s.portA.stall = some st) :
    (portBegin .a s).portA.burst = none := by
  obtain ⟨hburst, -⟩ :=
    portError_abandon_inProgress st.addr (discardDraw .a st.addr (s.onPortA fun q => { q with stall := none }))
  rw [portBegin_of_stall hb hst, hburst]
  simp [hb]

/-- A new transaction abandons the stalled read and then goes on as it would have without it. -/
theorem exec_newTx_of_stall {st : Stall} {s : State} (hst : s.portA.stall = some st) (hup : portUp s .a = true)
    (hb : s.portA.burst = none) (ab db : List Byte) (n : Nat) (fin : TxEnd) (hab : ab.length = 4) :
    let t := portError .a 4 st.addr (discardDraw .a st.addr (s.onPortA fun q => { q with stall := none }))
    exec (.portRead .a ab [] n fin false) s = exec (.portRead .a ab [] n fin false) t ∧
      exec (.portWrite .a ab db [] false) s = exec (.portWrite .a ab db [] false) t := by
  have hbs : (portSt s .a).burst = none := hb
  have hbt : (portSt (portBegin .a s) .a).burst = none := portBegin_burst_of_stall hb hst
  dsimp only
  rw [← portBegin_of_stall hb hst, exec_portRead_of_none n fin false hbs hab, exec_portRead_of_none n fin false hbt hab,
    exec_portWrite_of_none db false hbs hab, exec_portWrite_of_none db false hbt hab, portReadTx_portBegin hup hb,
    portWriteTx_portBegin hup hb]
  exact ⟨rfl, rfl⟩

/-! ### The RNG words (R168, R182, R703) -/

/-- The words of the RNG page are listed to both ports. -/
theorem accessKind_rng {s : State} {off : Nat} (p : Port) (h : s.pwr.state ≠ .recovery) (hoff : off < 0x10) :
    accessKind s p false (0x402000 + off) 0 = none := by
  have hrange : ¬ 0x402000 + off < 0x401000 ∧ ¬ 0x402000 + off < 0x402000 ∧ 0x402000 + off < 0x403000 ∧
      ¬ 0x10 ≤ 0x402000 + off - 0x402000 ∧ ¬ 0x402000 + off < 0x400000 := by omega
  simp [accessKind, h, hrange, hoff]

section RngWords

variable {p : Port} {s : State} (h : PortReady p s)
include h

theorem readWord_rngData : readWord p 0x402000 false s = rngDataWord p s := by
  simp [readWord, state_ne_recovery_of_inService h.2]

theorem readWord_rngStat : readWord p 0x402004 false s = rngStat p s := by
  simp [readWord, state_ne_recovery_of_inService h.2]

/-- RNG_DATA makes port A wait while the RNG is not fenced and has no word. -/
theorem mustStall_rngData (hf : fenced s 4 = false) :
    mustStall s p 0x402000 = (p == .a && (rngTakeWord s).isNone) := by
  have hk := accessKind_rng (off := 0) p (state_ne_recovery_of_inService h.2) (by decide)
  simp [mustStall, hk, hf, icBase]

theorem exec_rngDataRead_ready (hs : mustStall s p 0x402000 = false) :
    exec (.rngDataRead p) s = .next (drive p [(rngDataWord p s).1] (rngDataWord p s).2) := by
  have hk := accessKind_rng (off := 0) p (state_ne_recovery_of_inService h.2) (by decide)
  rw [← readWord_rngData h]
  exact congrArg _ (portReadTx_pass false h.1 rfl hk hs)

theorem exec_rngDataRead_word {w : Word} {u : State} (hf : fenced s 4 = false) (hw : rngTakeWord s = some (w, u)) :
    exec (.rngDataRead p) s = .next (drive p [w.toNat] u) := by
  have hs : mustStall s p 0x402000 = false := by simp [mustStall_rngData h hf, hw]
  have hword : rngDataWord p s = (w.toNat, u) := by rw [rngDataWord, hw]
  rw [exec_rngDataRead_ready h hs, hword]

theorem exec_rngStatRead (hf : fenced s 4 = false) : exec (.rngStatRead p) s = .next (drive p
    [b2n (portSt s p).rngTimeout + 4 * b2n s.rng.waiting + 8 * b2n s.rng.stretched]
    (onPort p (fun q => { q with rngTimeout := false }) s)) := by
  have hk := accessKind_rng (off := 4) p (state_ne_recovery_of_inService h.2) (by decide)
  have hs : mustStall s p 0x402004 = false := by simp [mustStall, icBase]
  refine congrArg _ ((portReadTx_pass false h.1 rfl hk hs).trans ?_)
  rw [readWord_rngStat h]
  simp [rngStat, hf, b2n]

end RngWords

/-- Without a word port A stalls. -/
theorem exec_rngDataRead_stall {s : State} (h : PortReady .a s) (hf : fenced s 4 = false) (hw : rngTakeWord s = none) :
    exec (.rngDataRead .a) s = .next ((rngWait s).onPortA fun q =>
      { q with rdata := [], stall := some ⟨0x402000, 1, .whole, s.time, s.ic.flight.length⟩ }) := by
  have hs : mustStall s .a 0x402000 = true := by simp [mustStall_rngData h hf, hw]
  refine congrArg _ ((portReadTx_of_open h.1 1 .whole false rfl).trans ?_)
  rw [readRun, if_pos ⟨rfl, one_ne_zero, hs⟩]

/-- Without a word port B reads 0, LATE. -/
theorem exec_rngDataRead_late {s : State} (h : PortReady .b s) (hf : fenced s 4 = false) (hw : rngTakeWord s = none) :
    exec (.rngDataRead .b) s = .next (drive .b [0]
      (portError .b 5 0x402000 ((rngWait s).onPortB fun q => { q with rngTimeout := true }))) := by
  have hs : mustStall s .b 0x402000 = false := by simp [mustStall_rngData h hf]
  have hword : rngDataWord .b s = rngLate .b (rngWait s) := by rw [rngDataWord, hw]
  rw [exec_rngDataRead_ready h hs, hword]
  rfl

/-- Settles O19: a stall that ends with its data, at its limit, by the fence or by a new transaction, and the RNG words.
Which sources a read of IC_SYNC waits for is log 15's choice, the address of a LATE or ABANDON that of logs 182 and
14. -/
theorem portStallsAndRngReads : Obligations.PortStallsAndRngReads := by
  unfold Obligations.PortStallsAndRngReads
  refine ⟨fun st w s u h => ⟨exec_portReadDataReady_rng h, exec_portReadDataReady_sync h, exec_portStallLimit_sync h,
    exec_portStallLimit_rng h, exec_portReadDataReady_fenced h, exec_newTx_of_stall h⟩,
    fun p w s u h hf => ⟨exec_rngDataRead_word h hf, ?_, ?_, exec_rngStatRead h hf⟩⟩
  · rintro rfl hw
    exact exec_rngDataRead_stall h hf hw
  · rintro rfl hw
    exact exec_rngDataRead_late h hf hw

end Sys2Proof.Machine

/-! # Transactions as they are transferred

The bits of an address, command codes, and transactions that are held open or cut short. -/

namespace Sys2Proof.Machine

open Sys2Proof

/-! ## An address, most significant byte first (R164) -/

theorem foldl_byteBits (x : Nat) (b : Byte) :
    (byteBits b).foldl (fun a b => 2 * a + b2n b) x = 256 * x + b.toNat := by
  have hbits : ∀ b : Byte, 128 * b2n (b.getLsbD 7) + 64 * b2n (b.getLsbD 6) + 32 * b2n (b.getLsbD 5) +
      16 * b2n (b.getLsbD 4) + 8 * b2n (b.getLsbD 3) + 4 * b2n (b.getLsbD 2) + 2 * b2n (b.getLsbD 1) +
      b2n (b.getLsbD 0) = b.toNat := by decide
  have hlist : byteBits b = [b.getLsbD 7, b.getLsbD 6, b.getLsbD 5, b.getLsbD 4, b.getLsbD 3, b.getLsbD 2,
      b.getLsbD 1, b.getLsbD 0] := rfl
  rw [hlist, ← hbits b]
  simp only [List.foldl_cons, List.foldl_nil]
  omega

theorem addrOf_four (a b c d : Byte) :
    addrOf [a, b, c, d] [] = ((a.toNat * 256 + b.toNat) * 256 + c.toNat) * 256 + d.toNat := by
  have htake : (([a, b, c, d].map byteBits).flatten ++ [] ++ List.replicate 32 false).take 32 =
      byteBits a ++ byteBits b ++ byteBits c ++ byteBits d := by
    rw [List.take_left' (by rfl)]
    simp
  rw [addrOf, htake]
  simp only [List.foldl_append, foldl_byteBits]
  omega

theorem addrOf_lt {ab : List Byte} (h : ab.length = 4) : addrOf ab [] < 2 ^ 32 := by
  obtain ⟨a, b, c, d, rfl⟩ := List.length_eq_four.1 h
  rw [addrOf_four]
  have ha := a.isLt
  have hb := b.isLt
  have hc := c.isLt
  have hd := d.isLt
  omega

/-- A word, least significant byte first. -/
theorem wordsOf_bytes (a b c d : Byte) : wordsOf [a, b, c, d] =
    [BitVec.ofNat 32 (a.toNat + 256 * b.toNat + 65536 * c.toNat + 16777216 * d.toNat)] := by
  have hle : leNat [a, b, c, d] = a.toNat + 256 * b.toNat + 65536 * c.toNat + 16777216 * d.toNat := by
    simp only [leNat]
    omega
  rw [wordsOf_four rfl, hle]

/-! ## Transactions held open or cut short (R165, R187, R196, R212) -/

theorem endWords_cut {o : OpenTx} (p : Port) (n : Nat) (s : State) (he : o.err = false) (hr : o.reset = 0)
    (hc : o.paCfg = none) : endWords p o n .cut s = portError p 2 ((o.addr + 4 * n) % 2 ^ 32) s := by
  simp [endWords, txError, he, lateWords_of_none _ hr hc]

theorem resetWord_eq_zero {addr : Nat} {ws : List Word} (s : State) (p : Port) (h : addr + 4 * ws.length ≤ 0x400040) :
    resetWord s p addr ws = 0 := by
  rw [resetWord, lateWord_eq_none s p (.inr h), Option.getD_none]

/-- Of an open transaction is kept where it goes on, whether a word of it failed, and what waits for chip select. -/
def openAfter (p : Port) (addr : Nat) (ws : List Word) (s : State) : OpenTx :=
  { addr := (addr + 4 * ws.length) % 2 ^ 32, write := true, failed := (burstWrite p addr ws false s).1
    reset := resetWord s p addr ws, paCfg := lateWord s p 0x400020 addr ws, fresh := false
    doors := doorsRung s (burstWrite p addr ws false s).2 }

theorem writeRun_held (p : Port) (addr : Nat) (ws : List Word) (s : State) :
    writeRun p { addr := addr, write := true } ws .held s =
      onPort p (fun q => { q with burst := some (openAfter p addr ws s) }) (burstWrite p addr ws false s).2 := by
  simp [writeRun, endWords, openAfter]

theorem writeRun_cut {p : Port} {addr : Nat} {ws : List Word} {s : State} (hr : resetWord s p addr ws = 0)
    (hc : lateWord s p 0x400020 addr ws = none) :
    writeRun p { addr := addr, write := true } ws .cut s =
      portError p 2 ((addr + 4 * ws.length) % 2 ^ 32) (burstWrite p addr ws false s).2 :=
  endWords_cut p ws.length _ rfl (by simp [hr]) (by simp [hc])

/-- The last words of a write of which none waits for chip select. -/
theorem writeRun_whole {p : Port} {o : OpenTx} {ws : List Word} (s : State) (hw : o.write = true) (hr : o.reset = 0)
    (hc : o.paCfg = none) (hb : o.addr + 4 * ws.length ≤ 0x400020) :
    writeRun p o ws .whole s = (burstWrite p o.addr ws o.failed s).2 := by
  have hreset : resetWord s p o.addr ws = 0 := resetWord_eq_zero s p (by omega)
  have hcfg : lateWord s p 0x400020 o.addr ws = none := lateWord_eq_none s p (.inr hb)
  exact endWords_whole p _ (.inl hw) (by simp [hr, hreset]) (by simp [hc, hcfg])

/-- A read that ends before its first word (R196). -/
theorem readRun_abandon {p : Port} {addr : Nat} (s : State) (h : addr < 2 ^ 32) :
    readRun p { addr := addr, write := false } 0 .whole false s =
      portError p 4 addr (discardDraw p addr (drive p [] s)) := by
  have hnext : (addr + 4 * 0) % 2 ^ 32 = addr := Nat.mod_eq_of_lt h
  have hlate : lateRead s p addr 0 = false := by
    rw [lateRead]
    rcases Nat.lt_or_ge 0x402000 addr with hgt | hle
    · simp [Nat.not_le.2 hgt]
    · simp [Nat.not_lt.2 hle]
  simp only [readRun, burstRead, endWords, hnext, hlate, txError]
  simp

/-- The next words of an open write (R165, R187). -/
theorem exec_portWrite_continued {p : Port} {o : OpenTx} {db : List Byte} {s : State} (hup : portUp s p = true)
    (ho : (portSt s p).burst = some o) (hw : o.write = true) (hk : o.kind = .live) (hdb : db.length % 4 = 0) :
    exec (.portWrite p [] db [] false) s =
      .next (writeRun p o (wordsOf db) .whole (onPort p (fun q => { q with burst := none }) s)) := by
  have hopen : openTx s p true [] = some o := by simp [openTx, ho, hw]
  rw [exec_portWrite_eq, execPortWrite, hopen, writeEnd_whole hdb]
  simp [writeOn, hup, hk, closeBurst]

/-- Settles O16. That an address goes on modulo 2^32 is log 183's choice, and which address an ABANDON captures log
14's. -/
theorem transfersAndBursts : Obligations.TransfersAndBursts := by
  unfold Obligations.TransfersAndBursts
  refine ⟨fun a b c d => ⟨addrOf_four a b c d, wordsOf_bytes a b c d⟩, by decide, fun s => ⟨rfl, Bool.true_and _⟩,
    fun p ab db tail fin n s h => ⟨fun hab => ⟨exec_portWrite_cut h db tail false hab,
      exec_portRead_cut h tail n fin false hab⟩, fun hab ha => ⟨fun hdb => ?_, fun hdb hr hc => ?_,
        resetWord_eq_zero s p, fun hb => lateWord_eq_none s p (.inr hb), ?_⟩, fun hab ha hdb => ?_⟩,
    fun p o db s hup ho hw hk hr hc hdb hb => ?_⟩
  · rw [exec_portWrite_of_none db true h.2.2 hab, writeEnd_held hdb, portWriteTx_of_open _ _ h ha, writeRun_held]
    rfl
  · rw [exec_portWrite_of_none db false h.2.2 hab, writeEnd_cut hdb, portWriteTx_of_open _ _ h ha, writeRun_cut hr hc]
  · rw [exec_portRead_of_none 0 .whole false h.2.2 hab, portReadTx_of_open h 0 .whole false ha,
      readRun_abandon s (addrOf_lt hab)]
  · rw [exec_portWrite_of_none db true h.2.2 hab, writeEnd_held hdb, portWriteTx_misaligned h _ _ ha]
    rfl
  · rw [exec_portWrite_continued hup ho hw hk hdb, writeRun_whole _ hw hr hc hb]

end Sys2Proof.Machine

/-! # Every step keeps the pounds apart and the Keeper reachable

The active table changes in three ways: a reset brings R227's values, a lock cycle activates a staging copy that has
passed the checks, and nothing else reaches it. A rule `_pt` says of an operation that it leaves the protection table as
it is, a rule `_active` that it leaves the active copy, a rule `_table` that it leaves that or resets it, and a rule
`_tableNext` that a row does, all in the order of the model. A rule that holds by definition is proved by `(rfl)`, in
parentheses, so that `simp` can use it everywhere. -/

namespace Sys2Proof.Machine

open Sys2Proof

/-- The active table stays as it is, or holds what every reset gives it (R227). -/
@[simp] def KeptOrReset (s t : State) : Prop := t.pt.active = s.pt.active ∨ t.pt.active = ptReset

/-- The staging copy has passed the checks of a lock cycle, and the cycle has made it active (R228, R231). -/
def ActivatesStaging (s t : State) : Prop :=
  ∃ check expected, lockCheck s check expected = none ∧ t.pt.active = activated s.pt.staging

/-- Where the outcome is a next state, the active table is kept or reset. -/
def TableNext (s : State) (o : Host.Outcome State Fault Refusal) : Prop := ∀ t, o = .next t → KeptOrReset s t

theorem KeptOrReset.trans {s t u : State} (h : KeptOrReset s t) (hu : KeptOrReset t u) : KeptOrReset s u := by
  obtain hu | hu := hu
  · exact h.imp hu.trans hu.trans
  · exact .inr hu

@[simp] theorem tableNext_next {s t : State} : TableNext s (.next t) ↔ KeptOrReset s t := by simp [TableNext]

@[simp] theorem pt_ite (p : Prop) [Decidable p] (s t : State) :
    (if p then s else t).pt = if p then s.pt else t.pt := apply_ite State.pt p s t

@[simp] theorem active_ite (p : Prop) [Decidable p] (a b : Pt) :
    (if p then a else b).active = if p then a.active else b.active := apply_ite Pt.active p a b

@[simp] theorem foldl_pt {α : Type} {f : State → α → State} (h : ∀ s x, (f s x).pt = s.pt) (l : List α)
    (s : State) : (l.foldl f s).pt = s.pt := foldl_keeps State.pt h l s

/-! ## Doorbells and replies -/

@[simp] theorem State.useFree_pt (s : State) : (State.useFree s).pt = s.pt := (rfl)

@[simp] theorem replyWith_pt (p : Packet) (start : Nat) (tow susp : Bool) (clamps : List Clamp)
    (status0 : Nat) (body : List Byte) (own : Option Nat) (s : State) :
    (replyWith p start tow susp clamps status0 body own s).pt = s.pt := by
  simp only [replyWith]
  (repeat' split) <;> simp

@[simp] theorem answer_pt (p : Packet) (status : Nat) (s : State) : (answer p status s).pt = s.pt := by simp [answer]

@[simp] theorem replyExec_pt (e : Exec) (status : Nat) (body : List Byte) (own : Option Nat) (s : State) :
    (replyExec e status body own s).pt = s.pt := by simp [replyExec]

/-! ## Port errors -/

@[simp] theorem portErrFlag_pt (p : Port) (code addr : Nat) (s : State) :
    (portErrFlag p code addr s).pt = s.pt := by simp [portErrFlag]

@[simp] theorem portErrEvent_pt (p : Port) (code addr : Nat) (s : State) :
    (portErrEvent p code addr s).pt = s.pt := by simp [portErrEvent]

/-! ## Field, carrier and power budget -/

@[simp] theorem setHfGrant_pt (mw : Nat) (s : State) : (setHfGrant mw s).pt = s.pt := (rfl)
@[simp] theorem setUhfGrant_pt (mw : Nat) (s : State) : (setUhfGrant mw s).pt = s.pt := (rfl)
@[simp] theorem askHfGrant_pt (mw : Nat) (s : State) : (askHfGrant mw s).pt = s.pt := (rfl)
@[simp] theorem askUhfGrant_pt (mw : Nat) (s : State) : (askUhfGrant mw s).pt = s.pt := (rfl)
@[simp] theorem setField_pt (id : Nat) (v : Int) (s : State) : (setField id v s).pt = s.pt := (rfl)
@[simp] theorem hfIdle_pt (s : State) : (hfIdle s).pt = s.pt := by simp [hfIdle]
@[simp] theorem emuOff_pt (cause : Nat) (s : State) : (emuOff cause s).pt = s.pt := by simp [emuOff]
@[simp] theorem peerOff_pt (s : State) : (peerOff s).pt = s.pt := by simp [peerOff]

@[simp] theorem peerLeave_pt (s : State) : (peerLeave s).pt = s.pt := by
  unfold peerLeave
  split <;> simp

@[simp] theorem addDue_pt (c : Chain) (ks : List StepKind) (s : State) : (addDue c ks s).pt = s.pt := (rfl)
@[simp] theorem setCodes_pt (cs cp : Nat) (s : State) : (setCodes cs cp s).pt = s.pt := by simp [setCodes]
@[simp] theorem putCodes_pt (cs cp : Nat) (s : State) : (putCodes cs cp s).pt = s.pt := by simp [putCodes]

@[simp] theorem undoTuner_pt (s : State) : (undoTuner s).pt = s.pt := by
  unfold undoTuner
  split <;> simp

@[simp] theorem towStop_pt (c : Chain) (s : State) : (towStop c s).pt = s.pt := by simp [towStop]

@[simp] theorem abandonRetune_pt (s : State) : (abandonRetune s).pt = s.pt := by
  unfold abandonRetune
  split <;> simp

@[simp] theorem cutCapture_pt (c : Chain) (s : State) : (cutCapture c s).pt = s.pt := by
  unfold cutCapture
  split <;> simp

@[simp] theorem hfFall_pt (cause : Nat) (s : State) : (hfFall cause s).pt = s.pt := by simp [hfFall]
@[simp] theorem hfApplyStep_pt (k : Nat) (s : State) : (hfApplyStep k s).pt = s.pt := (rfl)
@[simp] theorem lpcdFromBank_pt (c : HfCal) (s : State) : (lpcdFromBank c s).pt = s.pt := (rfl)
@[simp] theorem dropVerdicts_pt (c : Chain) (s : State) : (dropVerdicts c s).pt = s.pt := (rfl)

@[simp] theorem hfTakeValues_pt (s : State) : (hfTakeValues s).pt = s.pt := by
  simp only [hfTakeValues]
  (repeat' split) <;> simp

@[simp] theorem hfBoundary_pt (s : State) : (hfBoundary s).pt = s.pt := by fun_cases hfBoundary <;> simp +zetaDelta

@[simp] theorem hfFieldOut_pt (s : State) : (hfFieldOut s).pt = s.pt := by simp [hfFieldOut]
@[simp] theorem hfFieldGone_pt (cause : Nat) (s : State) : (hfFieldGone cause s).pt = s.pt := by simp [hfFieldGone]
@[simp] theorem hfDriverCut_pt (s : State) : (hfDriverCut s).pt = s.pt := by simp [hfDriverCut]
@[simp] theorem giveUpRise_pt (s : State) : (giveUpRise s).pt = s.pt := (rfl)

@[simp] theorem uhfFall_pt (why : FallFor) (s : State) : (uhfFall why s).pt = s.pt := by
  unfold uhfFall
  split <;> simp

@[simp] theorem endVisit_pt (s : State) : (endVisit s).pt = s.pt := by
  unfold endVisit
  split <;> simp

@[simp] theorem uhfTakeValues_pt (s : State) : (uhfTakeValues s).pt = s.pt := by
  fun_cases uhfTakeValues <;> simp +zetaDelta

@[simp] theorem uhfCarrierGone_pt (s : State) : (uhfCarrierGone s).pt = s.pt := by simp [uhfCarrierGone]
@[simp] theorem uhfApplyPower_pt (p : Nat) (s : State) : (uhfApplyPower p s).pt = s.pt := (rfl)

@[simp] theorem uhfBoundary_pt (s : State) : (uhfBoundary s).pt = s.pt := by
  simp only [uhfBoundary]
  split <;> simp

@[simp] theorem onLights_pt (c : Chain) (f : Exec → Exec) (s : State) : (onLights c f s).pt = s.pt := by simp [onLights]

@[simp] theorem riseClamp_pt (want applied : Nat) (s : State) : (riseClamp want applied s).pt = s.pt := by
  simp [riseClamp]

@[simp] theorem lightFails_pt (c : Chain) (want : Nat) (s : State) : (lightFails c want s).pt = s.pt := by
  simp [lightFails]

@[simp] theorem lowerHf_pt (k : Nat) (s : State) : (lowerHf k s).pt = s.pt := by simp [lowerHf]
@[simp] theorem reduceHf_pt (s : State) : (reduceHf s).pt = s.pt := by simp [reduceHf]
@[simp] theorem lowerUhf_pt (p : Nat) (s : State) : (lowerUhf p s).pt = s.pt := by simp [lowerUhf]
@[simp] theorem reduceUhf_pt (s : State) : (reduceUhf s).pt = s.pt := by simp [reduceUhf]
@[simp] theorem refit_pt (s : State) : (refit s).pt = s.pt := by fun_cases refit <;> simp
@[simp] theorem uhfYields_pt (s : State) : (uhfYields s).pt = s.pt := by simp [uhfYields]

/-! ## What ends a lease or a packet -/

@[simp] theorem chainUsersOff_pt (c : Chain) (s : State) : (chainUsersOff c s).pt = s.pt := by
  unfold chainUsersOff
  split <;> simp

@[simp] theorem startHandover_pt (c : Chain) (afterReset : Bool) (s : State) :
    (startHandover c afterReset s).pt = s.pt := by
  unfold startHandover
  split <;> simp

@[simp] theorem revokeLease_pt (c : Chain) (reason : Nat) (s : State) : (revokeLease c reason s).pt = s.pt := by
  unfold revokeLease
  split <;> simp

@[simp] theorem preemptDone_pt (c : Chain) (s : State) : (preemptDone c s).pt = s.pt := by
  unfold preemptDone
  split <;> simp

@[simp] theorem leaseAtPacketEnd_pt (c : Chain) (s : State) : (leaseAtPacketEnd c s).pt = s.pt := by
  fun_cases leaseAtPacketEnd <;> simp

@[simp] theorem finish_pt (l : LaneId) (status : Nat) (body : List Byte) (own : Option Nat) (s : State) :
    (finish l status body own s).pt = s.pt := by
  unfold finish
  split <;> simp

theorem withWaiting_pt {f : State → State} (h : ∀ s, (f s).pt = s.pt) (l : LaneId) (who : Exec → Bool)
    (s : State) : (withWaiting l who f s).pt = s.pt := by
  unfold withWaiting
  (repeat' split) <;> simp [h]

theorem tableNext_withWaiting {f : State → State} {l : LaneId} {who : Exec → Bool} {s : State}
    (h : ∀ s, (f s).pt = s.pt) : TableNext s (.next (withWaiting l who f s)) := by simp [withWaiting_pt h]

@[simp] theorem leaveLane_pt (l : LaneId) (s : State) : (leaveLane l s).pt = s.pt := by simp [leaveLane]

/-! ## Fence entry -/

@[simp] theorem stopOnUnit_pt (u status : Nat) (s : State) : (stopOnUnit u status s).pt = s.pt := (rfl)
@[simp] theorem samDown_pt (n : Nat) (s : State) : (samDown n s).pt = s.pt := by simp [samDown]

@[simp] theorem samOff_pt (n : Nat) (s : State) : (samOff n s).pt = s.pt := by
  unfold samOff
  split <;> simp

@[simp] theorem makeSafe_pt (u : Nat) (s : State) : (makeSafe u s).pt = s.pt := by
  unfold makeSafe
  split <;> simp

@[simp] theorem testHit_pt (u : Nat) (s : State) : (testHit u s).pt = s.pt := by simp [testHit]

@[simp] theorem fenceUnit_pt (u cause detail : Nat) (s : State) : (fenceUnit u cause detail s).pt = s.pt := by
  simp [fenceUnit]

/-! ## The expander -/

@[simp] theorem nextBlock_pt (noise : Bool) (delay : Nat) (s : State) : (nextBlock noise delay s).pt = s.pt := (rfl)

@[simp] theorem rngInstantiate_pt (s : State) : (rngInstantiate s).pt = s.pt := (rfl)
@[simp] theorem rngReseed_pt (s : State) : (rngReseed s).pt = s.pt := by simp [rngReseed]
@[simp] theorem rngBefore_pt (pr : Bool) (s : State) : (rngBefore pr s).pt = s.pt := by simp [rngBefore]

theorem rngGenerate_pt {pr : Bool} {n : Nat} {ws : List Half} {s t : State} (h : rngGenerate pr n s = some (ws, t)) :
    t.pt = s.pt := by
  unfold rngGenerate at h
  split at h
  · obtain ⟨-, rfl⟩ := Prod.mk.inj (Option.some.inj h)
    simp
  · cases h

@[simp] theorem rngWait_pt (s : State) : (rngWait s).pt = s.pt := by simp [rngWait]

@[simp] theorem rngRefillReserve_pt (s : State) : (rngRefillReserve s).pt = s.pt := by
  fun_cases rngRefillReserve
  case case1 => rfl
  case case2 => simp
  case case3 h => simp [rngGenerate_pt h]

theorem rngDraw1_pt {n : Nat} {ws : List Half} {s t : State} (h : rngDraw1 n s = some (ws, t)) : t.pt = s.pt := by
  unfold rngDraw1 at h
  obtain ⟨-, h⟩ := Option.ite_none_left_eq_some.1 h
  obtain ⟨-, rfl⟩ := Prod.mk.inj (Option.some.inj h)
  simp

@[simp] theorem rngRefillPort_pt (s : State) : (rngRefillPort s).pt = s.pt := by
  fun_cases rngRefillPort
  case case1 => simp
  case case2 h => simp [rngGenerate_pt h]
  case case3 => rfl

theorem rngTakeWord_pt {w : Word} {s t : State} (h : rngTakeWord s = some (w, t)) : t.pt = s.pt := by
  unfold rngTakeWord at h
  dsimp only at h
  split at h
  · cases h
  · split at h
    · cases h
    · obtain ⟨-, rfl⟩ := Prod.mk.inj (Option.some.inj h)
      simp

@[simp] theorem rngStat_pt (p : Port) (s : State) : (rngStat p s).2.pt = s.pt := by simp [rngStat]

/-! ## Discards and tenant resets -/

@[simp] theorem advanceCons_pt (n : Nat) (s : State) : (advanceCons n s).pt = s.pt := (rfl)

@[simp] theorem discardQueued_pt (n status : Nat) (s : State) :
    (discardQueued n status s).pt = s.pt := by simp [discardQueued]

@[simp] theorem discardRing_pt (n status k : Nat) (s : State) : (discardRing n status k s).pt = s.pt := by
  fun_induction discardRing <;> simp [*]

@[simp] theorem resetDone_pt (n : Nat) (s : State) : (resetDone n s).pt = s.pt := by simp [resetDone]

@[simp] theorem resetAgain_pt (s : State) : (resetAgain s).pt = s.pt := by
  unfold resetAgain
  split <;> simp

@[simp] theorem drainTenant_pt (n : Nat) (s : State) : (drainTenant n s).pt = s.pt := by simp [drainTenant]
@[simp] theorem detachJobs_pt (l : LaneId) (s : State) : (detachJobs l s).pt = s.pt := (rfl)
@[simp] theorem stopSense_pt (s : State) : (stopSense s).pt = s.pt := by simp [stopSense]

@[simp] theorem abortHeld_pt (l : LaneId) (e : Exec) (s : State) : (abortHeld l e s).pt = s.pt := by
  unfold abortHeld
  split <;> simp

@[simp] theorem abortEffect_pt (l : LaneId) (e : Exec) (s : State) : (abortEffect l e s).pt = s.pt := by
  fun_cases abortEffect <;> simp +zetaDelta

@[simp] theorem abortLane_pt (l : LaneId) (who : Exec → Bool) (status : Nat) (s : State) :
    (abortLane l who status s).pt = s.pt := by simp [abortLane]

@[simp] theorem chainFree_pt (c : Chain) (s : State) : (chainFree c s).pt = s.pt := by
  unfold chainFree
  split <;> simp

@[simp] theorem dropWaiters_pt (who : Waiter → Bool) (c : Chain) (s : State) :
    (dropWaiters who c s).pt = s.pt := by simp [dropWaiters]

@[simp] theorem withdrawWaits_pt (c : Chain) (n status : Nat) (s : State) :
    (withdrawWaits c n status s).pt = s.pt := by simp [withdrawWaits]

@[simp] theorem releaseSams_pt (n : Nat) (s : State) : (releaseSams n s).pt = s.pt := by simp [releaseSams]

@[simp] theorem dropLockWaits_pt (n status : Nat) (s : State) :
    (dropLockWaits n status s).pt = s.pt := by simp [dropLockWaits]

@[simp] theorem tenantReset_pt (n : Nat) (who : Exec → Bool) (s : State) : (tenantReset n who s).pt = s.pt := by
  simp only [tenantReset]
  (repeat' split) <;> simp

/-! ## Rows of opcodes -/

@[simp] theorem onFresh_pt {f : Exec → State → State} (h : ∀ e s, (f e s).pt = s.pt) (l : LaneId)
    (op : Nat) (s : State) : (onFresh l op f s).pt = s.pt := by
  fun_cases onFresh <;> simp [h]

@[simp] theorem setPhase_pt (l : LaneId) (ph : Phase) (s : State) : (setPhase l ph s).pt = s.pt := by simp [setPhase]

@[simp] theorem onLeased_pt {f : Exec → State → State} (h : ∀ e s, (f e s).pt = s.pt) (c : Chain)
    (op : Nat) (s : State) : (onLeased c op f s).pt = s.pt := by
  simp [onLeased, h]

/-! ## Configuration values -/

@[simp] theorem dropEstimates_pt (c : Chain) (s : State) : (dropEstimates c s).pt = s.pt := (rfl)

@[simp] theorem newGain_pt (c : Chain) (k : Nat) (s : State) : (newGain c k s).pt = s.pt := by
  unfold newGain
  split <;> simp

@[simp] theorem manualGain_pt (s : State) : (manualGain s).pt = s.pt := by simp [manualGain]
@[simp] theorem hfNewStep_pt (k : Nat) (s : State) : (hfNewStep k s).pt = s.pt := by simp [hfNewStep]
@[simp] theorem uhfNewPower_pt (p : Nat) (s : State) : (uhfNewPower p s).pt = s.pt := by simp [uhfNewPower]
@[simp] theorem uhfNewOutput_pt (s : State) : (uhfNewOutput s).pt = s.pt := by simp [uhfNewOutput]
@[simp] theorem fieldEffect_pt (id : Nat) (s : State) : (fieldEffect id s).pt = s.pt := by simp [fieldEffect]
@[simp] theorem pinOwner_pt (id : Nat) (v : Int) (s : State) : (pinOwner id v s).pt = s.pt := by simp [pinOwner]
@[simp] theorem applyField_pt (id : Nat) (v : Int) (s : State) : (applyField id v s).pt = s.pt := by simp [applyField]
@[simp] theorem recheckBlf_pt (id : Nat) (s : State) : (recheckBlf id s).1.pt = s.pt := by fun_cases recheckBlf <;> simp

@[simp] theorem applyEntry_pt (n : Nat) (a : Applied) (x : Nat × Nat) : (applyEntry n a x).s.pt = a.s.pt := by
  fun_cases applyEntry <;> simp +zetaDelta

@[simp] theorem applyEntries_pt (n : Nat) (es : List (Nat × Nat)) (s : State) :
    (applyEntries n es s).s.pt = s.pt := foldl_keeps (fun a : Applied => a.s.pt) (applyEntry_pt n) es _

/-! ## Fetch, admission and deadlines -/

@[simp] theorem fetchFrom_pt (n : Nat) (s : State) : (fetchFrom n s).pt = s.pt := by
  fun_cases fetchFrom <;> simp +zetaDelta

@[simp] theorem execPacketFetch_tableNext (s : State) : TableNext s (execPacketFetch s) := by
  unfold execPacketFetch
  (repeat' split) <;> simp

@[simp] theorem takeCredit_pt (l : LaneId) (n : Nat) (s : State) : (takeCredit l n s).pt = s.pt := by simp [takeCredit]

@[simp] theorem admitFrom_pt (l : LaneId) (n : Nat) (s : State) : (admitFrom l n s).pt = s.pt := by
  unfold admitFrom
  split <;> simp

@[simp] theorem execSliceExpiry_tableNext (l : LaneId) (s : State) : TableNext s (execSliceExpiry l s) := by
  unfold execSliceExpiry
  split <;> simp

@[simp] theorem expireWaits_pt (c : Chain) (s : State) : (expireWaits c s).pt = s.pt := by
  refine (foldl_pt (fun s w => ?_) _ _).trans (by simp)
  split <;> simp

/-! ## Frames on the air -/

@[simp] theorem keepVerdict_pt (c : Chain) (code : Nat) (s : State) : (keepVerdict c code s).pt = s.pt := (rfl)
@[simp] theorem requestCheck_pt (c : Chain) (s : State) : (requestCheck c s).pt = s.pt := by simp [requestCheck]

@[simp] theorem stopLane_pt (l : LaneId) (status : Nat) (s : State) : (stopLane l status s).pt = s.pt := by
  simp [stopLane]

@[simp] theorem notSooner_pt (c : Chain) (s : State) : (notSooner c s).pt = s.pt := by
  unfold notSooner
  split <;> simp

@[simp] theorem countRefused_pt (c : Chain) (s : State) : (countRefused c s).pt = s.pt := by simp [countRefused]

@[simp] theorem hfStart_pt (s : State) : (hfStart s).pt = s.pt := by
  unfold hfStart
  split <;> simp

@[simp] theorem stepYields_pt (c : Chain) (s : State) : (stepYields c s).pt = s.pt := by
  unfold stepYields
  split <;> simp

@[simp] theorem hfRelease_pt (s0 : State) : (hfRelease s0).pt = s0.pt := by simp [hfRelease]

@[simp] theorem hfSendAt_pt (f : HfFrame) (win at_ : Nat) (s : State) : (hfSendAt f win at_ s).pt = s.pt := by
  simp [hfSendAt]

@[simp] theorem hfSend_pt (f : HfFrame) (win : Nat) (s : State) : (hfSend f win s).pt = s.pt := by simp [hfSend]
@[simp] theorem setBandwidth_pt (s : State) : (setBandwidth s).pt = s.pt := by simp [setBandwidth]

@[simp] theorem queryLink_pt (f : UhfFrame) (s : State) : (queryLink f s).2.pt = s.pt := by
  unfold queryLink
  split <;> simp

@[simp] theorem uhfStart_pt (s : State) : (uhfStart s).pt = s.pt := by
  unfold uhfStart
  split <;> simp

@[simp] theorem uhfRelease_pt (s0 : State) : (uhfRelease s0).pt = s0.pt := by simp [uhfRelease]
@[simp] theorem uhfSend_pt (f : UhfFrame) (win : Nat) (s : State) : (uhfSend f win s).pt = s.pt := by simp [uhfSend]

/-! ## The HF reader -/

@[simp] theorem onCards_pt (f : List Card → List Card) (s : State) : (onCards f s).pt = s.pt := (rfl)
@[simp] theorem onCard_pt (h : Nat) (f : Card → Card) (s : State) : (onCard h f s).pt = s.pt := (rfl)
@[simp] theorem dropCard_pt (h : Nat) (s : State) : (dropCard h s).pt = s.pt := (rfl)
@[simp] theorem recordCard_pt (c : Card) (s : State) : (recordCard c s).pt = s.pt := by fun_cases recordCard <;> simp

@[simp] theorem pollFinish_pt (op : PollOp) (s : State) : (pollFinish op s).pt = s.pt := by
  unfold pollFinish
  split <;> simp

@[simp] theorem pollSendAt_pt (op : PollOp) (f : HfFrame) (at_ : Nat) (s : State) :
    (pollSendAt op f at_ s).pt = s.pt := by simp [pollSendAt]

@[simp] theorem pollSend_pt (op : PollOp) (f : HfFrame) (s : State) : (pollSend op f s).pt = s.pt := by simp [pollSend]

@[simp] theorem startTech_pt (op : PollOp) (t at_ : Nat) (s : State) : (startTech op t at_ s).pt = s.pt := by
  simp [startTech]

@[simp] theorem nextTech_pt (op : PollOp) (s : State) : (nextTech op s).pt = s.pt := by fun_cases nextTech <;> simp

@[simp] theorem foundMore_pt (op : PollOp) (s : State) : (foundMore op s).pt = s.pt := by simp [foundMore]
@[simp] theorem againA_pt (op : PollOp) (s : State) : (againA op s).pt = s.pt := by simp [againA]

@[simp] theorem pollA_pt (op : PollOp) (res : FrameResult) (ans : Option HfAnswer) (lq evm : Nat) (s : State) :
    (pollA op res ans lq evm s).pt = s.pt := by
  fun_cases pollA <;> simp

@[simp] theorem afterSlotB_pt (op : PollOp) (s : State) : (afterSlotB op s).pt = s.pt := by simp [afterSlotB]

@[simp] theorem pollB_pt (op : PollOp) (res : FrameResult) (ans : Option HfAnswer) (lq evm : Nat) (s : State) :
    (pollB op res ans lq evm s).pt = s.pt := by
  fun_cases pollB <;> simp

@[simp] theorem afterSlotV_pt (op : PollOp) (s : State) : (afterSlotV op s).pt = s.pt := by
  fun_cases afterSlotV <;> simp

@[simp] theorem pollV_pt (op : PollOp) (res : FrameResult) (ans : Option HfAnswer) (lq evm : Nat) (s : State) :
    (pollV op res ans lq evm s).pt = s.pt := by
  fun_cases pollV <;> simp

@[simp] theorem pollNext_pt (op : PollOp) (res : FrameResult) (ans : Option HfAnswer) (lq evm : Nat)
    (s : State) :
    (pollNext op res ans lq evm s).pt = s.pt := by simp [pollNext]

@[simp] theorem pollStart_pt (e : Exec) (s : State) : (pollStart e s).pt = s.pt := by simp [pollStart]

@[simp] theorem activateFail_pt (op : ActivateOp) (status : Nat) (s : State) :
    (activateFail op status s).pt = s.pt := by simp [activateFail]

@[simp] theorem activateDone_pt (op : ActivateOp) (state : Nat) (selected : Bool) (s : State) :
    (activateDone op state selected s).pt = s.pt := by
  fun_cases activateDone <;> simp +zetaDelta

@[simp] theorem actSend_pt (op : ActivateOp) (f : HfFrame) (s : State) : (actSend op f s).pt = s.pt := by simp [actSend]
@[simp] theorem actHigh_pt (op : ActivateOp) (s : State) : (actHigh op s).pt = s.pt := by simp [actHigh]

@[simp] theorem actParams_pt (op : ActivateOp) (fsci fwi sfgi : Nat) (s : State) :
    (actParams op fsci fwi sfgi s).pt = s.pt := (rfl)

@[simp] theorem attribSend_pt (op : ActivateOp) (c : Card) (prot : List Byte) (s : State) :
    (attribSend op c prot s).pt = s.pt := by simp [attribSend]

@[simp] theorem activateNext_pt (op0 : ActivateOp) (res : FrameResult) (ans : Option HfAnswer) (lq evm : Nat)
    (s : State) :
    (activateNext op0 res ans lq evm s).pt = s.pt := by
  fun_cases activateNext <;> simp +zetaDelta

@[simp] theorem activateStart_pt (e : Exec) (s : State) : (activateStart e s).pt = s.pt := by
  fun_cases activateStart <;> simp +zetaDelta

@[simp] theorem rawDone_pt (op : RawOp) (res : FrameResult) (ans : Option HfAnswer) (lq evm : Nat) (s : State) :
    (rawDone op res ans lq evm s).pt = s.pt := by
  unfold rawDone
  split <;> simp

@[simp] theorem transceiveStart_pt (e : Exec) (s : State) : (transceiveStart e s).pt = s.pt := by simp [transceiveStart]
@[simp] theorem exchange15Start_pt (e : Exec) (s : State) : (exchange15Start e s).pt = s.pt := by simp [exchange15Start]

@[simp] theorem isoSend_pt (op : IsoOp) (f : HfFrame) (win : Nat) (s : State) :
    (isoSend op f win s).pt = s.pt := by simp [isoSend]

@[simp] theorem isoNextBlock_pt (op : IsoOp) (c : Card) (s : State) : (isoNextBlock op c s).pt = s.pt := by
  simp [isoNextBlock]

@[simp] theorem isoEnd_pt (op : IsoOp) (status : Nat) (f : State → State) (s : State) (h : ∀ s,
    (f s).pt = s.pt) :
    (isoEnd op status f s).pt = s.pt := by
  fun_cases isoEnd <;> simp [*]

@[simp] theorem isoFinish_pt (op : IsoOp) (s : State) : (isoFinish op s).pt = s.pt := by simp [isoFinish]

@[simp] theorem isoError_pt (op : IsoOp) (c : Card) (status : Nat) (s : State) :
    (isoError op c status s).pt = s.pt := by simp [isoError]

@[simp] theorem isoResend_pt (op : IsoOp) (c : Card) (s : State) : (isoResend op c s).pt = s.pt := by simp [isoResend]

@[simp] theorem isoStore_pt (op : IsoOp) (tenant : Nat) (inf : List Byte) (s : State) :
    (isoStore op tenant inf s).2.pt = s.pt := (rfl)

@[simp] theorem isoNext_pt (op0 : IsoOp) (res : FrameResult) (ans : Option HfAnswer) (lq evm : Nat) (s : State) :
    (isoNext op0 res ans lq evm s).pt = s.pt := by
  fun_cases isoNext <;> simp +zetaDelta

@[simp] theorem isoStart_pt (e : Exec) (s : State) : (isoStart e s).pt = s.pt := by fun_cases isoStart <;> simp
@[simp] theorem passLive_pt (c : Chain) (s : State) : (passLive c s).pt = s.pt := by simp [passLive]

@[simp] theorem deselectGo_pt (l : LaneId) (op : DeselectOp) (s : State) : (deselectGo l op s).pt = s.pt := by
  fun_cases deselectGo <;> simp

@[simp] theorem deselectNext_pt (l : LaneId) (op : DeselectOp) (res : FrameResult) (ans : Option HfAnswer)
    (s : State) :
    (deselectNext l op res ans s).pt = s.pt := by
  fun_cases deselectNext <;> simp

@[simp] theorem deselectStart_pt (e : Exec) (s : State) : (deselectStart e s).pt = s.pt := by simp [deselectStart]

@[simp] theorem hfContinue_pt (res : FrameResult) (ans : Option HfAnswer) (lq evm : Nat) (s : State) :
    (hfContinue res ans lq evm s).pt = s.pt := by
  fun_cases hfContinue <;> simp

@[simp] theorem countHf_pt (res : FrameResult) (s : State) : (countHf res s).pt = s.pt := by simp [countHf]
@[simp] theorem clipEvents_pt (clipped : Bool) (s : State) : (clipEvents clipped s).pt = s.pt := by simp [clipEvents]

@[simp] theorem gatherHf_pt (res : FrameResult) (lq : Nat) (carrier : Int) (s : State) :
    (gatherHf res lq carrier s).pt = s.pt := by simp [gatherHf]

@[simp] theorem cardHeard_pt (lq evm : Nat) (s : State) : (cardHeard lq evm s).pt = s.pt := by
  unfold cardHeard
  split <;> simp

@[simp] theorem hfRx_pt (res0 : FrameResult) (ans : HfAnswer) (m : RxMeas) (clipped : Bool) (s : State) :
    (hfRx res0 ans m clipped s).pt = s.pt := by simp [hfRx]

/-! ## Leases of the chains -/

@[simp] theorem setDivider_pt (s : State) : (setDivider s).pt = s.pt := by
  unfold setDivider
  split <;> simp

@[simp] theorem setPll_pt (c : Chain) (p : Pll) (s : State) : (setPll c p s).pt = s.pt := by
  unfold setPll
  split <;> simp

@[simp] theorem armClocks_pt (c : Chain) (s : State) : (armClocks c s).pt = s.pt := by simp [armClocks]

@[simp] theorem settleRadio_pt (c : Chain) (s0 : State) : (settleRadio c s0).pt = s0.pt := by
  unfold settleRadio
  split <;> simp

@[simp] theorem grantTo_pt (c : Chain) (w : Waiter) (s : State) : (grantTo c w s).pt = s.pt := by
  fun_cases grantTo <;> simp +zetaDelta

@[simp] theorem startGrant_pt (c : Chain) (w : Waiter) (s : State) : (startGrant c w s).pt = s.pt := by
  simp [startGrant]

@[simp] theorem grantLocked_pt (c : Chain) (s : State) : (grantLocked c s).pt = s.pt := by
  fun_cases grantLocked <;> simp +zetaDelta

@[simp] theorem freeLease_pt (c : Chain) (s : State) : (freeLease c s).pt = s.pt := by simp [freeLease]

@[simp] theorem grantStep_pt (c : Chain) (s0 : State) : (grantStep c s0).pt = s0.pt := by
  fun_cases grantStep <;> simp +zetaDelta

@[simp] theorem takePlace_pt (c : Chain) (e : Exec) (s : State) : (takePlace c e s).pt = s.pt := by simp [takePlace]
@[simp] theorem acquire_pt (e : Exec) (s : State) : (acquire e s).pt = s.pt := by fun_cases acquire <;> simp
@[simp] theorem releaseNow_pt (c : Chain) (s : State) : (releaseNow c s).pt = s.pt := by simp [releaseNow]

@[simp] theorem releaseKeep_pt (c : Chain) (s : State) : (releaseKeep c s).pt = s.pt := by
  unfold releaseKeep
  split <;> simp

@[simp] theorem release_pt (e : Exec) (s : State) : (release e s).pt = s.pt := by simp [release]
@[simp] theorem keeperFirst_pt (c : Chain) (s : State) : (keeperFirst c s).pt = s.pt := by simp [keeperFirst]

@[simp] theorem grantIfFree_pt (c : Chain) (s : State) : (grantIfFree c s).pt = s.pt := by
  unfold grantIfFree
  split <;> simp

@[simp] theorem preempt_pt (e : Exec) (s : State) : (preempt e s).pt = s.pt := by fun_cases preempt <;> simp +zetaDelta

/-! ## The HF chain -/

@[simp] theorem powerApply_pt (l : LaneId) (id v : Nat) (c : Checked) (s : State) :
    (powerApply l id v c s).pt = s.pt := by simp [powerApply]

@[simp] theorem hfRise_pt (k wait : Nat) (s : State) : (hfRise k wait s).pt = s.pt := by simp [hfRise]
@[simp] theorem hfLight_pt (e : Exec) (s : State) : (hfLight e s).pt = s.pt := by simp [hfLight]
@[simp] theorem hfChange_pt (iAnt : Nat) (e : Exec) (s : State) : (hfChange iAnt e s).pt = s.pt := by simp [hfChange]
@[simp] theorem hfOff_pt (e : Exec) (s : State) : (hfOff e s).pt = s.pt := by simp [hfOff]
@[simp] theorem hfField_pt (iAnt : Nat) (e : Exec) (s : State) : (hfField iAnt e s).pt = s.pt := by simp [hfField]
@[simp] theorem loopSettled_pt (iAnt drive : Nat) (s : State) : (loopSettled iAnt drive s).pt = s.pt := (rfl)
@[simp] theorem autoRetune_pt (s : State) : (autoRetune s).pt = s.pt := by simp [autoRetune]

@[simp] theorem mismatchMeasured_pt (phi : Int) (m : Nat) (s : State) :
    (mismatchMeasured phi m s).pt = s.pt := by simp [mismatchMeasured]

@[simp] theorem tuneApply_pt (e : Exec) (body : List Byte) (s : State) : (tuneApply e body s).pt = s.pt := by
  simp [tuneApply]

@[simp] theorem tuneLight_pt (body : List Byte) (s : State) : (tuneLight body s).pt = s.pt := by simp [tuneLight]
@[simp] theorem tuneSet_pt (e : Exec) (body : List Byte) (s : State) : (tuneSet e body s).pt = s.pt := by simp [tuneSet]

@[simp] theorem hfTune_pt (ms : List (Int × Nat)) (iAnt : Nat) (e : Exec) (s : State) :
    (hfTune ms iAnt e s).pt = s.pt := by simp [hfTune]

@[simp] theorem lpcdStore_pt (p : Packet) (s : State) : (lpcdStore p s).pt = s.pt := (rfl)
@[simp] theorem lpcdArm_pt (e : Exec) (s : State) : (lpcdArm e s).pt = s.pt := by simp [lpcdArm]

@[simp] theorem lpcdHit_pt (a n : Nat) (byA byN : Bool) (s : State) : (lpcdHit a n byA byN s).pt = s.pt := by
  simp [lpcdHit]

@[simp] theorem lpcdNext_pt (us : Nat) (s : State) : (lpcdNext us s).pt = s.pt := (rfl)
@[simp] theorem lpcdCompare_pt (a n : Nat) (s : State) : (lpcdCompare a n s).pt = s.pt := by simp [lpcdCompare]

@[simp] theorem lpcdRebase_pt (left aSum nSum a n : Nat) (s : State) :
    (lpcdRebase left aSum nSum a n s).pt = s.pt := by simp [lpcdRebase]

@[simp] theorem lpcdCal_pt (left aSum nSum a n : Nat) (s : State) :
    (lpcdCal left aSum nSum a n s).pt = s.pt := by simp [lpcdCal]

@[simp] theorem lpcdMeasured_pt (a n : Nat) (s : State) : (lpcdMeasured a n s).pt = s.pt := by
  unfold lpcdMeasured
  split <;> simp

@[simp] theorem setQuiet_pt (c : Chain) (q : Nat) (s : State) : (setQuiet c q s).pt = s.pt := by
  unfold setQuiet
  split <;> simp

@[simp] theorem gainStep_pt (c : Chain) (k : Nat) (clip : Bool) (s : State) : (gainStep c k clip s).pt = s.pt := by
  unfold gainStep
  split <;> simp

@[simp] theorem sofSeen_pt (c : Chain) (s : State) : (sofSeen c s).pt = s.pt := by
  unfold sofSeen
  split <;> simp

@[simp] theorem agcWindow_pt (c : Chain) (peak : Nat) (clip : Bool) (s : State) :
    (agcWindow c peak clip s).pt = s.pt := by simp [agcWindow]

/-! ## The UHF chain -/

@[simp] theorem newPerm_pt (s : State) : (newPerm s).pt = s.pt := (rfl)

@[simp] theorem pickNextFrom_pt (avoid : Option Nat) (s : State) : (pickNextFrom avoid s).2.pt = s.pt := by
  fun_cases pickNextFrom <;> simp +zetaDelta

@[simp] theorem pickNext_pt (s : State) : (pickNext s).2.pt = s.pt := by simp [pickNext]

theorem pickNext_eq_pt {s t : State} {o : Option Nat} (h : pickNext s = (o, t)) : t.pt = s.pt := by
  rw [← pickNext_pt s, h]

@[simp] theorem pickFirst_pt (s : State) : (pickFirst s).2.pt = s.pt := by simp [pickFirst]

theorem pickFirst_eq_pt {s t : State} {o : Option Nat} (h : pickFirst s = (o, t)) : t.pt = s.pt := by
  rw [← pickFirst_pt s, h]

@[simp] theorem setIndex_pt (c : Nat) (s : State) : (setIndex c s).pt = s.pt := by simp [setIndex]
@[simp] theorem waitRise_pt (w : RiseWait) (s : State) : (waitRise w s).pt = s.pt := (rfl)
@[simp] theorem uhfReturn_pt (s : State) : (uhfReturn s).pt = s.pt := by simp [uhfReturn]
@[simp] theorem uhfRise_pt (s : State) : (uhfRise s).pt = s.pt := by simp [uhfRise]
@[simp] theorem uhfCheckRise_pt (s : State) : (uhfCheckRise s).pt = s.pt := by simp [uhfCheckRise]
@[simp] theorem uhfSense_pt (s : State) : (uhfSense s).pt = s.pt := by fun_cases uhfSense <;> simp

@[simp] theorem synthRecal_pt (ch band : Nat) (s : State) : (synthRecal ch band s).pt = s.pt := by simp [synthRecal]
@[simp] theorem hopRecal_pt (ch : Nat) (s : State) : (hopRecal ch s).pt = s.pt := by simp [hopRecal]
@[simp] theorem changeChannel_pt (c : Nat) (s : State) : (changeChannel c s).pt = s.pt := by simp [changeChannel]
@[simp] theorem hopKnown_pt (c : Nat) (s : State) : (hopKnown c s).pt = s.pt := by simp [hopKnown]
@[simp] theorem restFrom_pt (s : State) : (restFrom s).pt = s.pt := by simp [restFrom]

@[simp] theorem uhfTryRise_pt (s : State) : (uhfTryRise s).pt = s.pt := by
  fun_cases uhfTryRise
  case case6 h => simp [pickNext_eq_pt h]
  case case7 h => simp [pickNext_eq_pt h]
  all_goals simp +zetaDelta

@[simp] theorem uhfLight_pt (e : Exec) (s : State) : (uhfLight e s).pt = s.pt := by simp [uhfLight]
@[simp] theorem uhfChange_pt (e : Exec) (s : State) : (uhfChange e s).pt = s.pt := by simp [uhfChange]
@[simp] theorem uhfOff_pt (e : Exec) (s : State) : (uhfOff e s).pt = s.pt := by simp [uhfOff]
@[simp] theorem uhfCarrier_pt (e : Exec) (s : State) : (uhfCarrier e s).pt = s.pt := by simp [uhfCarrier]

@[simp] theorem applyChannel_pt (mode index : Nat) (s : State) : (applyChannel mode index s).pt = s.pt := by
  fun_cases applyChannel
  case case1 => simp +zetaDelta
  case case2 h => simp +zetaDelta [pickFirst_eq_pt h]
  case case3 h => simp +zetaDelta [pickFirst_eq_pt h]

@[simp] theorem uhfSetChannel_pt (e : Exec) (s : State) : (uhfSetChannel e s).pt = s.pt := by simp [uhfSetChannel]
@[simp] theorem recalTick_pt (s : State) : (recalTick s).pt = s.pt := (rfl)

@[simp] theorem moveOn_pt (loud : Bool) (s : State) : (moveOn loud s).pt = s.pt := by
  fun_cases moveOn
  case case1 => simp +zetaDelta
  case case2 h => simp +zetaDelta [pickNext_eq_pt h]
  case case3 h => simp +zetaDelta [pickNext_eq_pt h]

@[simp] theorem dwellLimit_pt (s : State) : (dwellLimit s).pt = s.pt := by simp [dwellLimit]

@[simp] theorem execLbtSenseDone_tableNext (level : Int) (s : State) : TableNext s (execLbtSenseDone level s) := by
  unfold execLbtSenseDone
  split
  next => simp
  next =>
    have hnext : ∀ o t, pickNext s = (o, t) → t.pt = s.pt := fun o t => pickNext_eq_pt
    (repeat' split) <;> simp [*]

@[simp] theorem channelAtFall_pt (s : State) : (channelAtFall s).pt = s.pt := by
  unfold channelAtFall
  split <;> simp

@[simp] theorem afterMove_pt (why : FallFor) (s : State) : (afterMove why s).pt = s.pt := by
  unfold afterMove
  split <;> simp

@[simp] theorem reflectedAction_pt (s : State) : (reflectedAction s).pt = s.pt := by
  unfold reflectedAction
  split
  · simp only [pt_ite, clampEvent_pt, uhfNewOutput_pt, setField_pt, ite_self]
  · simp only [pt_ite, uhfBoundary_pt, State.onUhf_pt, ite_self]
  · rfl

@[simp] theorem rlMeasured_pt (rl : Nat) (s : State) : (rlMeasured rl s).pt = s.pt := by simp [rlMeasured]

/-! ## The UHF reader -/

@[simp] theorem selectGo_pt (left : List Nat) (s : State) : (selectGo left s).pt = s.pt := by
  fun_cases selectGo <;> simp

@[simp] theorem uhfSelect_pt (e : Exec) (s : State) : (uhfSelect e s).pt = s.pt := by simp [uhfSelect]

@[simp] theorem invFinish_pt (op : InvOp) (cause : Nat) (s : State) :
    (invFinish op cause s).pt = s.pt := by simp [invFinish]

@[simp] theorem setInv_pt (op : InvOp) (s : State) : (setInv op s).pt = s.pt := (rfl)
@[simp] theorem invSend_pt (op : InvOp) (f : UhfFrame) (s : State) : (invSend op f s).pt = s.pt := by simp [invSend]

@[simp] theorem invOpen_pt (op : InvOp) (x : List Nat) (s : State) : (invOpen op x s).pt = s.pt := by
  fun_cases invOpen <;> simp

@[simp] theorem beginRound_pt (op : InvOp) (s : State) : (beginRound op s).pt = s.pt := by simp [beginRound]
@[simp] theorem roundEvent_pt (op : InvOp) (s : State) : (roundEvent op s).pt = s.pt := by simp [roundEvent]
@[simp] theorem endRound_pt (op : InvOp) (s : State) : (endRound op s).pt = s.pt := by simp [endRound]
@[simp] theorem slotRep_pt (op : InvOp) (s : State) : (slotRep op s).pt = s.pt := by simp [slotRep]
@[simp] theorem slotDecide_pt (op : InvOp) (u : Nat) (s : State) : (slotDecide op u s).pt = s.pt := by simp [slotDecide]

@[simp] theorem slotDraw_pt (op : InvOp) (s : State) : (slotDraw op s).pt = s.pt := by
  unfold slotDraw
  split
  next h => simp [rngDraw1_pt h]
  next => simp

@[simp] theorem afterSlot_pt (op : InvOp) (input : Nat) (s : State) :
    (afterSlot op input s).pt = s.pt := by simp [afterSlot]

@[simp] theorem recordTag_pt (op : InvOp) (pc : Half) (epc : List Byte) (lq evm tenant : Nat) (s : State) :
    (recordTag op pc epc lq evm tenant s).2.pt = s.pt := by
  fun_cases recordTag <;> simp +zetaDelta

@[simp] theorem invNext_pt (op : InvOp) (tenant : Nat) (res : FrameResult) (ans : Option UhfAnswer)
    (lq evm : Nat) (s : State) :
    (invNext op tenant res ans lq evm s).pt = s.pt := by
  fun_cases invNext <;> simp +zetaDelta

@[simp] theorem inventory_pt (e : Exec) (s : State) : (inventory e s).pt = s.pt := by simp [inventory]
@[simp] theorem limitTick_pt (s : State) : (limitTick s).pt = s.pt := by fun_cases limitTick <;> simp

@[simp] theorem accessSend_pt (op : AccessOp) (f : UhfFrame) (win : Nat) (s : State) :
    (accessSend op f win s).pt = s.pt := by simp [accessSend]

@[simp] theorem accessAttempt_pt (op : AccessOp) (s : State) : (accessAttempt op s).pt = s.pt := by simp [accessAttempt]
@[simp] theorem accessRetry_pt (op : AccessOp) (s : State) : (accessRetry op s).pt = s.pt := by simp [accessRetry]

@[simp] theorem accessResult_pt (op : AccessOp) (tenant status code words : Nat) (s : State) :
    (accessResult op tenant status code words s).pt = s.pt := (rfl)

@[simp] theorem accessOp_pt (op : AccessOp) (s : State) : (accessOp op s).pt = s.pt := by fun_cases accessOp <;> simp

@[simp] theorem accessFail_pt (op : AccessOp) (tenant status code words : Nat) (s : State) :
    (accessFail op tenant status code words s).pt = s.pt := by simp [accessFail]

@[simp] theorem accessDone_pt (op : AccessOp) (tenant words : Nat) (s : State) :
    (accessDone op tenant words s).pt = s.pt := by simp [accessDone]

@[simp] theorem accessWrite_pt (op : AccessOp) (a : AccessEntry) (tenant w : Nat) (rn : Half) (s : State) :
    (accessWrite op a tenant w rn s).pt = s.pt := by simp [accessWrite]

@[simp] theorem opNext_pt (op : AccessOp) (a : AccessEntry) (tenant w : Nat) (cover : Bool)
    (res : FrameResult) (ans : Option UhfAnswer) (s : State) :
    (opNext op a tenant w cover res ans s).pt = s.pt := by
  unfold opNext
  cases res
  case ok =>
    rcases ans with _ | ans
    · simp
    · cases ans <;> simp
  all_goals simp

@[simp] theorem accessNext_pt (op0 : AccessOp) (tenant : Nat) (res : FrameResult) (ans : Option UhfAnswer)
    (lq evm : Nat) (s : State) :
    (accessNext op0 tenant res ans lq evm s).pt = s.pt := by
  fun_cases accessNext <;> simp

@[simp] theorem access_pt (e : Exec) (s : State) : (access e s).pt = s.pt := by simp [access]

@[simp] theorem uhfContinue_pt (res : FrameResult) (ans : Option UhfAnswer) (lq evm : Nat) (s : State) :
    (uhfContinue res ans lq evm s).pt = s.pt := by
  fun_cases uhfContinue <;> simp

@[simp] theorem countUhf_pt (res : FrameResult) (s : State) : (countUhf res s).pt = s.pt := by simp [countUhf]

@[simp] theorem gatherUhf_pt (res : FrameResult) (lq : Nat) (s : State) : (gatherUhf res lq s).pt = s.pt := by
  simp [gatherUhf]

@[simp] theorem uhfRx_pt (res : FrameResult) (ans : UhfAnswer) (m : RxMeas) (s : State) :
    (uhfRx res ans m s).pt = s.pt := by simp [uhfRx]

@[simp] theorem breakRound_pt (s : State) : (breakRound s).pt = s.pt := by
  refine withWaiting_pt (fun s => ?_) _ _ _
  (repeat' split) <;> simp

/-! ## The spectrum monitor and captures -/

@[simp] theorem refuseOn_pt (l : LaneId) (s : State) : (refuseOn l s).pt = s.pt := by
  unfold refuseOn
  split <;> simp

@[simp] theorem onPeerRun_pt (f : PeerRun → PeerRun) (s : State) : (onPeerRun f s).pt = s.pt := (rfl)
@[simp] theorem peerQuit_pt (s : State) : (peerQuit s).pt = s.pt := by simp [peerQuit]
@[simp] theorem peerAlone_pt (s : State) : (peerAlone s).pt = s.pt := (rfl)
@[simp] theorem peerRefused_pt (s : State) : (peerRefused s).pt = s.pt := by simp [peerRefused]

@[simp] theorem maskFail_pt (c : Chain) (reason : Nat) (margin : Int) (s : State) :
    (maskFail c reason margin s).pt = s.pt := by
  fun_cases maskFail <;> simp +zetaDelta

@[simp] theorem maskPass_pt (c : Chain) (s : State) : (maskPass c s).pt = s.pt := by
  unfold maskPass
  split <;> simp

@[simp] theorem spectrumDone_pt (l : LaneId) (bins : List (Int × Int)) (s : State) :
    (spectrumDone l bins s).pt = s.pt := by
  unfold spectrumDone
  split <;> simp

@[simp] theorem specTurns_pt (k : Nat) (s : State) : (specTurns k s).pt = s.pt := by
  induction k generalizing s with
  | zero => rfl
  | succ k ih =>
    unfold specTurns
    split
    · rw [ih, withWaiting_pt]
      · simp
      · intro s
        split <;> simp
    · rfl

@[simp] theorem checkEnds_pt {go : State → State} (h : ∀ s, (go s).pt = s.pt) (c : Chain) (s : State) :
    (checkEnds c go s).pt = s.pt := by
  fun_cases checkEnds <;> exact withWaiting_pt h _ _ _

@[simp] theorem execMaskCheckDone_tableNext (bins : List (Int × Int)) (s : State) :
    TableNext s (execMaskCheckDone bins s) := by
  unfold execMaskCheckDone
  split
  · dsimp only
    rw [tableNext_next, KeptOrReset, specTurns_pt, checkEnds_pt]
    · simp
    · intro s
      split <;> simp
  · simp

@[simp] theorem spectrumCheck_pt (l : LaneId) (bins : List (Int × Int)) (e : Exec) (s : State) :
    (spectrumCheck l bins e s).pt = s.pt := by simp [spectrumCheck]

@[simp] theorem captureStart_pt (c : Chain) (s0 : State) : (captureStart c s0).pt = s0.pt := by simp [captureStart]

@[simp] theorem captureSamples_pt (l : LaneId) (e : Exec) (s : State) :
    (captureSamples l e s).pt = s.pt := by simp [captureSamples]

@[simp] theorem captureEnd_pt (c : Chain) (k : Capture) (samples : List (Int × Int)) (state : Nat)
    (clipped : Bool) (s : State) :
    (captureEnd c k samples state clipped s).pt = s.pt := by simp [captureEnd]

@[simp] theorem captureSof_pt (c : Chain) (s : State) : (captureSof c s).pt = s.pt := by
  unfold captureSof
  split <;> simp

@[simp] theorem captureFrameEnd_pt (c : Chain) (s : State) : (captureFrameEnd c s).pt = s.pt := by
  unfold captureFrameEnd
  split <;> simp

@[simp] theorem execCaptureDone_tableNext (c : Chain) (samples : List (Int × Int)) (clipped : Bool) (s : State) :
    TableNext s (execCaptureDone c samples clipped s) := by
  unfold execCaptureDone
  split <;> simp

@[simp] theorem execCaptureTimeout_tableNext (c : Chain) (s : State) : TableNext s (execCaptureTimeout c s) := by
  unfold execCaptureTimeout
  split <;> simp

/-! ## The NV queue -/

@[simp] theorem jobBegin_pt (j : NvJob) (s : State) : (jobBegin j s).pt = s.pt := (rfl)

@[simp] theorem takeJob_pt (j : NvJob) (s : State) : (takeJob j s).pt = s.pt := by
  unfold takeJob
  split <;> simp

theorem nvSubmit_pt {j : NvJob} {s t : State} (h : nvSubmit j s = some t) : t.pt = s.pt := by
  unfold nvSubmit at h
  split at h
  · obtain rfl := Option.some.inj h
    simp
  · split at h
    · obtain rfl := Option.some.inj h
      simp
    · split at h
      · obtain rfl := Option.some.inj h
        simp
      · cases h

theorem nvSubmitAll_pt {js : List NvJob} {s t : State} (h : nvSubmitAll js s = some t) : t.pt = s.pt := by
  cases js with
  | nil => rw [Option.some.inj h]
  | cons j rest =>
    obtain ⟨u, hu, rfl⟩ := Option.map_eq_some_iff.1 h
    simp [nvSubmit_pt hu]

@[simp] theorem nvAhead_pt (j : NvJob) (s : State) : (nvAhead j s).pt = s.pt := (rfl)
@[simp] theorem onBank_pt (b : Bool) (f : FwBank → FwBank) (s : State) : (onBank b f s).pt = s.pt := (rfl)
@[simp] theorem dropAwaited_pt (b : Bool) (k : Nat) (s : State) : (dropAwaited b k s).pt = s.pt := (rfl)
@[simp] theorem nvBadChunk_pt (a : Nat) (s : State) : (nvBadChunk a s).pt = s.pt := by simp [nvBadChunk]
@[simp] theorem eccRead_pt (lo hi : Nat) (r : EccRead) (s : State) : (eccRead lo hi r s).pt = s.pt := by simp [eccRead]

/-! ## System opcodes -/

@[simp] theorem setConfigEnd_pt (e : Exec) (a : Applied) : (setConfigEnd e a).pt = a.s.pt := by
  fun_cases setConfigEnd
  case case2 h => simp +zetaDelta [nvSubmit_pt h]
  all_goals simp +zetaDelta

@[simp] theorem setConfig_pt (e : Exec) (s : State) : (setConfig e s).pt = s.pt := by
  fun_cases setConfig
  · simp
  · simp only [setConfigEnd_pt]
    split <;> simp +zetaDelta

@[simp] theorem getConfig_pt (ecc : EccRead) (e : Exec) (s0 : State) :
    (getConfig ecc e s0).pt = s0.pt := by simp [getConfig]

@[simp] theorem setWeights_pt (e : Exec) (s : State) : (setWeights e s).pt = s.pt := by simp [setWeights]
@[simp] theorem ctrReset_pt (id : Nat) (s : State) : (ctrReset id s).pt = s.pt := by simp [ctrReset]

@[simp] theorem readOne_pt (n : Nat) (clear : Bool) (id : Nat) (s : State) : (readOne n clear id s).2.pt = s.pt := by
  unfold readOne
  split <;> simp

@[simp] theorem readMany_pt (n : Nat) (clear : Bool) (k id : Nat) (s : State) :
    (readMany n clear k id s).2.pt = s.pt := by
  induction k generalizing id s with
  | zero => rfl
  | succ k ih => simp [readMany, ih]

@[simp] theorem readCounters_pt (e : Exec) (s : State) : (readCounters e s).pt = s.pt := by simp [readCounters]

@[simp] theorem logEnds_pt (s : State) : (logEnds s).2.2.pt = s.pt := by
  unfold logEnds
  split <;> simp

@[simp] theorem getLog_pt (ecc : EccRead) (e : Exec) (s0 : State) : (getLog ecc e s0).pt = s0.pt := by simp [getLog]

/-- The image goes into the staging copy. -/
@[simp] theorem stageProtection_active (e : Exec) (s : State) :
    (stageProtection e s).pt.active = s.pt.active := by
  simp [stageProtection, apply_ite Pt.active]

/-! ## The charter -/

@[simp] theorem recheckField_pt (id : Nat) (s : State) : (recheckField id s).pt = s.pt := by
  unfold recheckField
  split <;> simp

@[simp] theorem resetChannel_pt (s : State) : (resetChannel s).pt = s.pt := by
  fun_cases resetChannel
  case case3 h => simp +zetaDelta [pickFirst_eq_pt h]
  case case4 h => simp +zetaDelta [pickFirst_eq_pt h]
  all_goals simp +zetaDelta

@[simp] theorem setCharter_pt (c : Option Charter) (isSealed : Bool) (s : State) :
    (setCharter c isSealed s).pt = s.pt := by simp [setCharter]

@[simp] theorem dropAllVerdicts_pt (s : State) : (dropAllVerdicts s).pt = s.pt := (rfl)

@[simp] theorem peerFieldLost_pt (s : State) : (peerFieldLost s).pt = s.pt := by
  unfold peerFieldLost
  split <;> simp

@[simp] theorem stopTransmission_pt (s : State) : (stopTransmission s).pt = s.pt := by simp [stopTransmission]
@[simp] theorem resumeTransmission_pt (s : State) : (resumeTransmission s).pt = s.pt := (rfl)

@[simp] theorem charterRead_pt (ecc : EccRead) (e : Exec) (s0 : State) :
    (charterRead ecc e s0).pt = s0.pt := by simp [charterRead]

@[simp] theorem charterWrite_pt (e : Exec) (s : State) : (charterWrite e s).pt = s.pt := by
  fun_cases charterWrite
  case case5 h => simp +zetaDelta [nvSubmit_pt h]
  all_goals simp

@[simp] theorem charterErased_pt (s : State) : (charterErased s).pt = s.pt := (rfl)

@[simp] theorem charterCommitted_pt (c : Charter) (s : State) : (charterCommitted c s).pt = s.pt := by
  simp [charterCommitted]

@[simp] theorem charterLost_pt (torn : Bool) (s : State) : (charterLost torn s).pt = s.pt := (rfl)

@[simp] theorem charterSeal_pt (e : Exec) (s : State) : (charterSeal e s).pt = s.pt := by
  fun_cases charterSeal
  case case5 h => simp +zetaDelta [nvSubmit_pt h]
  all_goals simp

@[simp] theorem sealCommitted_pt (gen : Nat) (s : State) : (sealCommitted gen s).pt = s.pt := (rfl)

@[simp] theorem charterBreak_pt (e : Exec) (s : State) : (charterBreak e s).pt = s.pt := by
  fun_cases charterBreak
  case case3 h => simp +zetaDelta [nvSubmit_pt h]
  all_goals simp

@[simp] theorem erasePoolSector_pt (k : Nat) (s : State) : (erasePoolSector k s).pt = s.pt := (rfl)
@[simp] theorem breakErased_pt (left : Nat) (s : State) : (breakErased left s).pt = s.pt := by simp [breakErased]

/-! ## Calibration banks -/

@[simp] theorem calStoreGo_pt (s : State) : (calStoreGo s).pt = s.pt := by
  fun_cases calStoreGo
  case case2 h => simp +zetaDelta [nvSubmit_pt h]
  all_goals simp

@[simp] theorem calStore_pt (e : Exec) (s : State) : (calStore e s).pt = s.pt := by simp [calStore]
@[simp] theorem discardGather_pt (c : Chain) (s : State) : (discardGather c s).pt = s.pt := (rfl)
@[simp] theorem loadHf_pt (d : CalData) (bank : Nat) (s : State) : (loadHf d bank s).pt = s.pt := by simp [loadHf]
@[simp] theorem loadUhf_pt (d : CalData) (bank : Nat) (s : State) : (loadUhf d bank s).pt = s.pt := by simp [loadUhf]
@[simp] theorem loadCommon_pt (d : CalData) (bank : Nat) (s : State) : (loadCommon d bank s).pt = s.pt := (rfl)

@[simp] theorem calLoadGo_pt (e : Exec) (s : State) : (calLoadGo e s).pt = s.pt := by
  fun_cases calLoadGo <;> simp +zetaDelta

@[simp] theorem calLoad_pt (ecc : EccRead) (e : Exec) (s0 : State) : (calLoad ecc e s0).pt = s0.pt := by simp [calLoad]
@[simp] theorem towWaiter_pt (s : State) : (towWaiter s).pt = s.pt := by fun_cases towWaiter <;> simp

@[simp] theorem towConfig_pt (e : Exec) (s : State) : (towConfig e s).pt = s.pt := by
  fun_cases towConfig
  case case2 => simp [foldl_pt fun s i => ctrClear_pt i s]
  all_goals simp

/-! ## The towpath -/

@[simp] theorem tunerMove_pt (s : State) : (tunerMove s).pt = s.pt := by
  unfold tunerMove
  split <;> simp

@[simp] theorem tunerStep_pt (phi : Int) (m iAnt : Nat) (s : State) : (tunerStep phi m iAnt s).pt = s.pt := by
  unfold tunerStep
  split <;> simp

@[simp] theorem hfStepEffect_pt (k : StepKind) (x y : Int) (iAnt : Nat) (s : State) :
    (hfStepEffect k x y iAnt s).pt = s.pt := by
  unfold hfStepEffect
  split <;> simp

@[simp] theorem uhfStepEffect_pt (k : StepKind) (x y : Int) (s : State) : (uhfStepEffect k x y s).pt = s.pt := by
  unfold uhfStepEffect
  split <;> simp

@[simp] theorem stepEffect_pt (c : Chain) (k : StepKind) (x y : Int) (iAnt : Nat) (s : State) :
    (stepEffect c k x y iAnt s).pt = s.pt := by
  unfold stepEffect
  split <;> simp

@[simp] theorem startStep_pt (c : Chain) (k : StepKind) (s : State) : (startStep c k s).pt = s.pt := by simp [startStep]

@[simp] theorem execTowpathStepStart_tableNext (c : Chain) (s : State) : TableNext s (execTowpathStepStart c s) := by
  unfold execTowpathStepStart
  split <;> simp

@[simp] theorem chargeDelay_pt (c : Chain) (l : LaneId) (id ns : Nat) (s : State) :
    (chargeDelay c l id ns s).pt = s.pt := by simp [chargeDelay]

@[simp] theorem imposeDelay_pt (c : Chain) (s : State) : (imposeDelay c s).pt = s.pt := by
  fun_cases imposeDelay <;> simp

@[simp] theorem startHeld_pt (c : Chain) (s : State) : (startHeld c s).pt = s.pt := by
  unfold startHeld
  split <;> simp

@[simp] theorem stepEnd_pt (c : Chain) (k : StepKind) (x y : Int) (iAnt : Nat) (s : State) :
    (stepEnd c k x y iAnt s).pt = s.pt := by
  fun_cases stepEnd <;> simp +zetaDelta

@[simp] theorem execTowpathStepEnd_tableNext (c : Chain) (x y : Int) (iAnt : Nat) (s : State) :
    TableNext s (execTowpathStepEnd c x y iAnt s) := by
  unfold execTowpathStepEnd
  split <;> simp

@[simp] theorem execTowpathStepOverrun_tableNext (c : Chain) (s : State) :
    TableNext s (execTowpathStepOverrun c s) := by
  unfold execTowpathStepOverrun
  split <;> simp

/-! ## CAL_RUN -/

@[simp] theorem hfReceiver_pt (rs : List Int) (s : State) : (hfReceiver rs s).2.pt = s.pt := (rfl)
@[simp] theorem hfAntenna_pt (rs : List Int) (s : State) : (hfAntenna rs s).2.pt = s.pt := (rfl)
@[simp] theorem uhfReceiver_pt (rs : List Int) (s : State) : (uhfReceiver rs s).2.pt = s.pt := (rfl)
@[simp] theorem uhfTable_pt (rs : List Int) (s : State) : (uhfTable rs s).2.pt = s.pt := (rfl)
@[simp] theorem uhfLeak_pt (rs : List Int) (s : State) : (uhfLeak rs s).2.pt = s.pt := by simp [uhfLeak]

@[simp] theorem runOf_pt (p : Packet) (rs : List Int) (s : State) : (runOf p rs s).2.pt = s.pt := by
  fun_cases runOf <;> simp

@[simp] theorem runNow_pt (l : LaneId) (e : Exec) (rs : List Int) (s : State) :
    (runNow l e rs s).pt = s.pt := by simp [runNow]

@[simp] theorem hfRunLight_pt (e : Exec) (rs : List Int) (s : State) :
    (hfRunLight e rs s).pt = s.pt := by simp [hfRunLight]

@[simp] theorem calHf_pt (rs : List Int) (e : Exec) (s : State) : (calHf rs e s).pt = s.pt := by simp [calHf]

@[simp] theorem uhfRunLight_pt (e : Exec) (rs : List Int) (s : State) : (uhfRunLight e rs s).pt = s.pt := by
  unfold uhfRunLight
  split <;> simp

@[simp] theorem calLeak_pt (e : Exec) (rs : List Int) (s : State) : (calLeak e rs s).pt = s.pt := by simp [calLeak]

@[simp] theorem startHold_pt (e : Exec) (point : Nat) (s : State) : (startHold e point s).pt = s.pt := by
  unfold startHold
  split <;> simp

@[simp] theorem solve_pt (e : Exec) (s : State) : (solve e s).pt = s.pt := by
  unfold solve
  split <;> simp

@[simp] theorem calUhf_pt (rs : List Int) (e : Exec) (s : State) : (calUhf rs e s).pt = s.pt := by simp [calUhf]

@[simp] theorem holdDone_pt (point : Nat) (own : Bool) (fwd rev : Int) (s : State) :
    (holdDone point own fwd rev s).pt = s.pt := by simp [holdDone]

@[simp] theorem execCalHoldEnd_tableNext (fwd rev : Int) (s : State) :
    TableNext s (execCalHoldEnd fwd rev s) := tableNext_withWaiting fun s => by
  split <;> simp

@[simp] theorem calOsc_pt (e : Exec) (s : State) : (calOsc e s).pt = s.pt := by simp [calOsc]

@[simp] theorem oscEnd_pt (status result : Nat) (o : OscRun) (s : State) :
    (oscEnd status result o s).pt = s.pt := by simp [oscEnd]

@[simp] theorem gateEnd_pt (error : Int) (o : OscRun) (s : State) : (gateEnd error o s).pt = s.pt := by simp [gateEnd]

@[simp] theorem execCalGateEnd_tableNext (error : Int) (s : State) :
    TableNext s (execCalGateEnd error s) := tableNext_withWaiting fun s => by
  split <;> simp

@[simp] theorem execXoTrimStep_tableNext (s : State) :
    TableNext s (execXoTrimStep s) := tableNext_withWaiting fun s => by
  split <;> simp

@[simp] theorem execCalRefinTimeout_tableNext (s : State) :
    TableNext s (execCalRefinTimeout s) := tableNext_withWaiting fun s => by
  split <;> simp

@[simp] theorem execCalRun_tableNext (results : List Int) (s : State) : TableNext s (execCalRun results s) := by
  unfold execCalRun
  split <;> simp

/-! ## The key store and the cipher unit -/

@[simp] theorem setUsed_pt (k v : Nat) (s : State) : (setUsed k v s).pt = s.pt := (rfl)
@[simp] theorem onSlot_pt (k : Nat) (f : KeySlot → KeySlot) (s : State) : (onSlot k f s).pt = s.pt := (rfl)
@[simp] theorem countUse_pt (k : Nat) (s : State) : (countUse k s).pt = s.pt := by simp [countUse]

theorem entriesSubmit_pt {n : Nat} {js : List NvJob} {s t : State} (h : entriesSubmit n js s = some t) :
    t.pt = s.pt := by
  unfold entriesSubmit at h
  split at h
  · obtain ⟨j, -, hj⟩ := Option.bind_eq_some_iff.1 h
    exact nvSubmitAll_pt hj
  · exact nvSubmitAll_pt h

@[simp] theorem entriesRefused_pt (n : Nat) (s : State) : (entriesRefused n s).pt = s.pt := by simp [entriesRefused]

theorem entrySubmit_pt {k : JobKind} {lane : Option LaneId} {s t : State} (h : entrySubmit k lane s = some t) :
    t.pt = s.pt := entriesSubmit_pt h

@[simp] theorem execKeyLogRollover_tableNext (s : State) : TableNext s (execKeyLogRollover s) := by
  unfold execKeyLogRollover
  split
  · cases h : (rollJob s).bind fun j => nvSubmit j s with
    | none => simp
    | some t =>
      obtain ⟨j, -, hj⟩ := Option.bind_eq_some_iff.1 h
      simp [nvSubmit_pt hj]
  · simp

theorem useSubmit_pt {k : Nat} {s t : State} (h : useSubmit k s = some t) : t.pt = s.pt := entrySubmit_pt h

@[simp] theorem keyIncomplete_pt (slot cause owner : Nat) (s : State) :
    (keyIncomplete slot cause owner s).pt = s.pt := by simp [keyIncomplete]

@[simp] theorem dropGone_pt (k : Nat) (s : State) : (dropGone k s).pt = s.pt := by simp [dropGone]
@[simp] theorem keyRead_pt (ecc : EccRead) (k : Nat) (s : State) : (keyRead ecc k s).pt = s.pt := by simp [keyRead]
@[simp] theorem wipeKey_pt (p : Packet) (s : State) : (wipeKey p s).pt = s.pt := by simp [wipeKey]

@[simp] theorem stageGo_pt (e : Exec) (s : State) : (stageGo e s).pt = s.pt := by
  fun_cases stageGo
  case case3 h => simp +zetaDelta [entriesSubmit_pt h]
  all_goals simp

@[simp] theorem stageUse_pt (e : Exec) (s : State) : (stageUse e s).pt = s.pt := by
  fun_cases stageUse
  case case2 h => simp +zetaDelta [useSubmit_pt h]
  all_goals simp

@[simp] theorem keyStage_pt (e : Exec) (s : State) : (keyStage e s).pt = s.pt := by fun_cases keyStage <;> simp

@[simp] theorem keyEntry_pt (k : JobKind) (body : List Byte) (s : State) : (keyEntry k body s).pt = s.pt := by
  unfold keyEntry
  split
  next => simp
  next h => simp [entrySubmit_pt h]

@[simp] theorem keyCommit_pt (e : Exec) (s : State) : (keyCommit e s).pt = s.pt := by fun_cases keyCommit <;> simp

@[simp] theorem keyQuery_pt (e : Exec) (s : State) : (keyQuery e s).pt = s.pt := by simp [keyQuery]
@[simp] theorem keyDestroy_pt (e : Exec) (s : State) : (keyDestroy e s).pt = s.pt := by simp [keyDestroy]
@[simp] theorem killPoolPage_pt (p : Nat) (s : State) : (killPoolPage p s).pt = s.pt := (rfl)

@[simp] theorem killShadow_pt (slot : Nat) (s : State) : (killShadow slot s).pt = s.pt := by
  unfold killShadow
  split <;> simp

@[simp] theorem recordCommitted_pt (slot : Nat) (sh : Shadow) (s : State) :
    (recordCommitted slot sh s).pt = s.pt := by simp [recordCommitted]

@[simp] theorem recordFailed_pt (slot : Nat) (s : State) : (recordFailed slot s).pt = s.pt := by
  unfold recordFailed
  split <;> simp

@[simp] theorem copyDone_pt (slot src dst : Nat) (live : Bool) (s : State) :
    (copyDone slot src dst live s).pt = s.pt := by simp [copyDone]

@[simp] theorem moveDone_pt (slot src dst : Nat) (s : State) : (moveDone slot src dst s).pt = s.pt := (rfl)
@[simp] theorem killPage_pt (slot : Nat) (s : State) : (killPage slot s).pt = s.pt := by simp [killPage]

@[simp] theorem flipLost_pt (slot : Nat) (sh : Shadow) (s : State) : (flipLost slot sh s).pt = s.pt := by
  simp [flipLost]

@[simp] theorem keyFlip_pt (slot : Nat) (h : Shadow) (s : State) : (keyFlip slot h s).pt = s.pt := by simp [keyFlip]
@[simp] theorem keyGone_pt (slot : Nat) (s : State) : (keyGone slot s).pt = s.pt := by simp [keyGone]
@[simp] theorem keyRolled_pt (s : State) : (keyRolled s).pt = s.pt := (rfl)
@[simp] theorem rollDone_pt (i : Nat) (s : State) : (rollDone i s).pt = s.pt := by fun_cases rollDone <;> simp

@[simp] theorem cipherRun_pt (e : Exec) (key : List Byte) (s : State) :
    (cipherRun e key s).pt = s.pt := by simp [cipherRun]

@[simp] theorem cipherDraw_pt (e : Exec) (key : List Byte) (since : Nat) (s : State) :
    (cipherDraw e key since s).pt = s.pt := by
  unfold cipherDraw
  split
  next h => simp [rngGenerate_pt h]
  next => simp

@[simp] theorem cipherGo_pt (e : Exec) (key : List Byte) (s : State) : (cipherGo e key s).pt = s.pt := by
  simp [cipherGo]

@[simp] theorem cipherStart_pt (u : Nat) (ecc : EccRead) (e : Exec) (s : State) :
    (cipherStart u ecc e s).pt = s.pt := by
  fun_cases cipherStart
  case case3 h => simp +zetaDelta [useSubmit_pt h]
  all_goals simp +zetaDelta

@[simp] theorem cipherAes_pt (ecc : EccRead) (e : Exec) (s : State) : (cipherAes ecc e s).pt = s.pt := by
  simp [cipherAes]

@[simp] theorem cipherCmac_pt (ecc : EccRead) (e : Exec) (s : State) :
    (cipherCmac ecc e s).pt = s.pt := by simp [cipherCmac]

/-! ## The interrupt controller -/

@[simp] theorem setPend_pt (n : Nat) (b : Bool) (s : State) : (setPend n b s).pt = s.pt := (rfl)
@[simp] theorem setMask_pt (n : Nat) (b : Bool) (s : State) : (setMask n b s).pt = s.pt := (rfl)
@[simp] theorem drive_pt (p : Port) (ws : List Nat) (s : State) : (drive p ws s).pt = s.pt := by simp [drive]
@[simp] theorem writeRecord_pt (d : Doorbell) (s : State) : (writeRecord d s).pt = s.pt := by simp [writeRecord]
@[simp] theorem coalesce_pt (n : Nat) (s : State) : (coalesce n s).pt = s.pt := by simp [coalesce]
@[simp] theorem arrive_pt (d : Doorbell) (s : State) : (arrive d s).pt = s.pt := by simp [arrive]

theorem takeDoorbell_pt {d : Doorbell} {s t : State} (h : takeDoorbell s = some (d, t)) : t.pt = s.pt := by
  unfold takeDoorbell at h
  split at h
  · obtain ⟨-, rfl⟩ := Prod.mk.inj (Option.some.inj h)
    simp
  · split at h
    · cases h
    · split at h
      · cases h
      · obtain ⟨-, rfl⟩ := Prod.mk.inj (Option.some.inj h)
        simp

@[simp] theorem execDoorbellArrived_tableNext (s : State) : TableNext s (execDoorbellArrived s) := by
  unfold execDoorbellArrived
  (repeat' split)
  next => simp
  next => simp
  next h => simp [takeDoorbell_pt h]

@[simp] theorem arbitrate_pt (s : State) : (arbitrate s).pt = s.pt := by fun_cases arbitrate <;> simp

@[simp] theorem deliver_pt (x : Nat × Nat × Nat × Bool) (s : State) : (deliver x s).pt = s.pt := by simp [deliver]
@[simp] theorem stallNearer_pt (s : State) : (stallNearer s).pt = s.pt := (rfl)

@[simp] theorem deliverOldest_pt (s : State) : (deliverOldest s).pt = s.pt := by
  unfold deliverOldest
  split <;> simp

@[simp] theorem deliverAll_pt (s : State) : (deliverAll s).pt = s.pt := by simp [deliverAll]
@[simp] theorem icDoorbell_pt (p : Port) (v : Nat) (s : State) : (icDoorbell p v s).pt = s.pt := (rfl)

@[simp] theorem icSetclr_pt (onMask set : Bool) (v : Nat) (s : State) :
    (icSetclr onMask set v s).pt = s.pt := by simp [icSetclr]

@[simp] theorem icPendSet_pt (p : Port) (i v : Nat) (s : State) : (icPendSet p i v s).pt = s.pt := by simp [icPendSet]
@[simp] theorem icMaskSet_pt (p : Port) (i v : Nat) (s : State) : (icMaskSet p i v s).pt = s.pt := (rfl)
@[simp] theorem newProfile_pt (n : Nat) (s : State) : (newProfile n s).pt = s.pt := by simp [newProfile]
@[simp] theorem icSrcSet_pt (n v : Nat) (s : State) : (icSrcSet n v s).pt = s.pt := by simp [icSrcSet]
@[simp] theorem icEoi_pt (t v : Nat) (s : State) : (icEoi t v s).pt = s.pt := by simp [icEoi]
@[simp] theorem icCurpriSet_pt (t v : Nat) (s : State) : (icCurpriSet t v s).pt = s.pt := (rfl)
@[simp] theorem icTcfgSet_pt (t v : Nat) (s : State) : (icTcfgSet t v s).pt = s.pt := (rfl)
@[simp] theorem icWrite_pt (p : Port) (off v : Nat) (s : State) : (icWrite p off v s).pt = s.pt := by simp [icWrite]

@[simp] theorem icClaim_pt (p : Port) (t : Nat) (s : State) : (icClaim p t s).2.pt = s.pt := by
  fun_cases icClaim <;> simp

@[simp] theorem icTstat_pt (p : Port) (t : Nat) (s : State) : (icTstat p t s).2.pt = s.pt := by
  unfold icTstat
  split <;> simp

@[simp] theorem icSync_pt (p : Port) (fast : Bool) (s : State) : (icSync p fast s).2.pt = s.pt := by
  unfold icSync
  split <;> simp

@[simp] theorem icStatus_pt (s : State) : (icStatus s).2.pt = s.pt := (rfl)
@[simp] theorem icEvtdrop_pt (n : Nat) (s : State) : (icEvtdrop n s).2.pt = s.pt := (rfl)

@[simp] theorem icRead_pt (p : Port) (off : Nat) (fast : Bool) (s : State) : (icRead p off fast s).2.pt = s.pt := by
  fun_cases icRead <;> simp

/-! ## The host ports -/

@[simp] theorem portStorm_pt (p : Port) (s : State) : (portStorm p s).pt = s.pt := by simp [portStorm]

@[simp] theorem portError_pt (p : Port) (code addr : Nat) (s : State) :
    (portError p code addr s).pt = s.pt := by simp [portError]

@[simp] theorem laterError_pt (p : Port) (code addr : Nat) (s : State) :
    (laterError p code addr s).pt = s.pt := by simp [laterError]

@[simp] theorem discardDraw_pt (p : Port) (addr : Nat) (s : State) : (discardDraw p addr s).pt = s.pt := by
  fun_cases discardDraw
  case case1 h => simp +zetaDelta [rngTakeWord_pt h]
  all_goals simp

@[simp] theorem resetPort_pt (p : Port) (s : State) : (resetPort p s).pt = s.pt := by
  unfold resetPort
  split <;> simp

@[simp] theorem portResetReg_pt (v : Nat) (s : State) : (portResetReg v s).pt = s.pt := by simp [portResetReg]
@[simp] theorem cmdProdSet_pt (n v : Nat) (s : State) : (cmdProdSet n v s).pt = s.pt := by simp [cmdProdSet]
@[simp] theorem rplConsSet_pt (n v : Nat) (s : State) : (rplConsSet n v s).pt = s.pt := by simp [rplConsSet]
@[simp] theorem clearMarks_pt (n : Nat) (s : State) : (clearMarks n s).pt = s.pt := (rfl)
@[simp] theorem evtConsSet_pt (n v : Nat) (s : State) : (evtConsSet n v s).pt = s.pt := by simp [evtConsSet]

@[simp] theorem tenantPageWrite_pt (n off v : Nat) (s : State) :
    (tenantPageWrite n off v s).pt = s.pt := by simp [tenantPageWrite]

@[simp] theorem paCfgSet_pt (v : Nat) (s : State) : (paCfgSet v s).pt = s.pt := (rfl)

@[simp] theorem setRec_pt (busy : Bool) (verdict status : Nat) (s : State) :
    (setRec busy verdict status s).pt = s.pt := (rfl)

@[simp] theorem recCommand_pt (v : Nat) (s : State) : (recCommand v s).pt = s.pt := by
  fun_cases recCommand
  case case4 h => simp +zetaDelta [nvSubmit_pt h]
  case case9 h => simp +zetaDelta [nvSubmit_pt h]
  all_goals simp +zetaDelta

@[simp] theorem recWriteWord_pt (addr v : Nat) (s : State) : (recWriteWord addr v s).pt = s.pt := by simp [recWriteWord]

/-- A word of the protection table goes into the staging copy. -/
@[simp] theorem writeWord_active (p : Port) (addr v : Nat) (s : State) :
    (writeWord p addr v s).pt.active = s.pt.active := by
  simp [writeWord, apply_ite Pt.active]

@[simp] theorem errRead_pt (q : Port) (s : State) : (errRead q s).2.pt = s.pt := by simp [errRead]

@[simp] theorem globalRead_pt (p : Port) (off : Nat) (s : State) : (globalRead p off s).2.pt = s.pt := by
  unfold globalRead
  split <;> simp

@[simp] theorem rngLate_pt (p : Port) (s : State) : (rngLate p s).2.pt = s.pt := by
  unfold rngLate
  split <;> simp

@[simp] theorem rngDataWord_pt (p : Port) (s : State) : (rngDataWord p s).2.pt = s.pt := by
  unfold rngDataWord
  split
  next h => simp [rngTakeWord_pt h]
  next => simp

@[simp] theorem readWord_pt (p : Port) (addr : Nat) (fast : Bool) (s : State) :
    (readWord p addr fast s).2.pt = s.pt := by
  fun_cases readWord <;> simp

@[simp] theorem burstWrite_active (p : Port) (addr : Nat) (ws : List Word) (failed : Bool) (s : State) :
    (burstWrite p addr ws failed s).2.pt.active = s.pt.active := by
  induction ws generalizing addr failed s with
  | nil => rfl
  | cons w ws ih =>
    unfold burstWrite
    split <;> simp [ih]

@[simp] theorem burstRead_pt (p : Port) (fast : Bool) (addr n : Nat) (failed : Bool) (s : State) :
    (burstRead p fast addr n failed s).2.2.pt = s.pt := by
  induction n generalizing addr failed s with
  | zero => rfl
  | succ n ih =>
    unfold burstRead
    split <;> simp [ih]

@[simp] theorem lateWords_pt (o : OpenTx) (s : State) : (lateWords o s).pt = s.pt := by
  cases h : o.paCfg <;> simp [lateWords, h]

@[simp] theorem txError_pt (p : Port) (o : OpenTx) (code addr : Nat) (s : State) :
    (txError p o code addr s).pt = s.pt := by simp [txError]

@[simp] theorem endWords_pt (p : Port) (o : OpenTx) (n : Nat) (fin : TxEnd) (s : State) :
    (endWords p o n fin s).pt = s.pt := by
  unfold endWords
  split <;> simp

@[simp] theorem closeTx_pt (p : Port) (o : OpenTx) (s : State) : (closeTx p o s).pt = s.pt := by
  unfold closeTx
  split <;> simp

@[simp] theorem portBegin_pt (p : Port) (s : State) : (portBegin p s).pt = s.pt := by
  simp only [portBegin]
  (repeat' split) <;> simp

@[simp] theorem keepTx_pt (p : Port) (o : OpenTx) (fin : TxEnd) (s : State) : (keepTx p o fin s).pt = s.pt := by
  unfold keepTx
  split <;> simp

@[simp] theorem silentTx_pt (p : Port) (write : Bool) (fin : TxEnd) (s : State) :
    (silentTx p write fin s).pt = s.pt := by simp [silentTx]

@[simp] theorem misaligned_pt (p : Port) (write : Bool) (addr n : Nat) (fin : TxEnd) (s : State) :
    (misaligned p write addr n fin s).pt = s.pt := by simp [misaligned]

@[simp] theorem writeRun_active (p : Port) (o : OpenTx) (ws : List Word) (fin : TxEnd) (s : State) :
    (writeRun p o ws fin s).pt.active = s.pt.active := by simp [writeRun]

@[simp] theorem portWriteTx_active (p : Port) (addr : Nat) (ws : List Word) (fin : TxEnd) (s : State) :
    (portWriteTx p addr ws fin s).pt.active = s.pt.active := by simp [portWriteTx]

@[simp] theorem zeroRead_pt (p : Port) (n : Nat) (s : State) : (zeroRead p n s).pt = s.pt := by simp [zeroRead]

@[simp] theorem readRun_pt (p : Port) (o : OpenTx) (n : Nat) (fin : TxEnd) (fast : Bool) (s : State) :
    (readRun p o n fin fast s).pt = s.pt := by simp [readRun]

@[simp] theorem portReadTx_pt (p : Port) (addr n : Nat) (fin : TxEnd) (fast : Bool) (s : State) :
    (portReadTx p addr n fin fast s).pt = s.pt := by simp [portReadTx]

@[simp] theorem endStall_pt (st : Stall) (first : Nat) (s : State) :
    (endStall st first s).pt = s.pt := by simp [endStall]

@[simp] theorem deliverAhead_pt (st : Stall) (s : State) : (deliverAhead st s).pt = s.pt := by simp [deliverAhead]
@[simp] theorem stallTimeout_pt (st : Stall) (s : State) : (stallTimeout st s).pt = s.pt := by simp [stallTimeout]

@[simp] theorem cutAddress_pt (p : Port) (addr : List Byte) (tail : List Bool) (s : State) :
    (cutAddress p addr tail s).pt = s.pt := by simp [cutAddress]

@[simp] theorem closeBurst_pt (p : Port) (s : State) : (closeBurst p s).pt = s.pt := by simp [closeBurst]

@[simp] theorem writeOn_active (p : Port) (o : OpenTx) (ws : List Word) (fin : TxEnd) (s : State) :
    (writeOn p o ws fin s).pt.active = s.pt.active := by
  fun_cases writeOn <;> simp

@[simp] theorem readOn_pt (p : Port) (o : OpenTx) (n : Nat) (fin : TxEnd) (fast : Bool) (s : State) :
    (readOn p o n fin fast s).pt = s.pt := by
  fun_cases readOn <;> simp +zetaDelta

@[simp] theorem stallOn_pt (n : Nat) (fin : TxEnd) (st : Stall) (s : State) :
    (stallOn n fin st s).pt = s.pt := by simp [stallOn]

@[simp] theorem execPortWrite_tableNext (p : Port) (addr data : List Byte) (tail : List Bool) (s : State)
    (held : Bool) :
    TableNext s (execPortWrite p addr data tail s held) := by
  unfold execPortWrite
  split <;> simp

@[simp] theorem execPortRead_tableNext (p : Port) (addr : List Byte) (tail : List Bool) (n : Nat) (s : State)
    (fin : TxEnd) (fast : Bool) :
    TableNext s (execPortRead p addr tail n s fin fast) := by
  unfold execPortRead
  split <;> simp

@[simp] theorem execPortReadDataReady_tableNext (s : State) : TableNext s (execPortReadDataReady s) := by
  unfold execPortReadDataReady
  (repeat' split)
  next => simp
  next => simp
  next h => simp [rngTakeWord_pt h]
  all_goals simp

@[simp] theorem execPortStallLimit_tableNext (s : State) : TableNext s (execPortStallLimit s) := by
  unfold execPortStallLimit
  split <;> simp

@[simp] theorem execRngWaitTimeout_tableNext (s : State) : TableNext s (execRngWaitTimeout s) := by
  unfold execRngWaitTimeout
  split <;> simp

@[simp] theorem beginTx_pt (p : Port) (f : State → State) (s : State) (h : ∀ s, (f s).pt = s.pt) :
    (beginTx p f s).pt = s.pt := by
  fun_cases beginTx <;> simp +zetaDelta [*]

@[simp] theorem beginError_pt (p : Port) (code : Nat) (s : State) : (beginError p code s).pt = s.pt := by
  simp [beginError]

@[simp] theorem execPortBadCommand_tableNext (p : Port) (s : State) (cmd : List Byte) (part : Bool) :
    TableNext s (execPortBadCommand p s cmd part) := by
  unfold execPortBadCommand
  dsimp only
  (repeat' split) <;> simp

/-! ## Ends of NV jobs, and firmware -/

@[simp] theorem preEraseFw_pt (b : Bool) (s : State) : (preEraseFw b s).pt = s.pt := by simp [preEraseFw]
@[simp] theorem preEraseCal_pt (b : Bool) (s : State) : (preEraseCal b s).pt = s.pt := by simp [preEraseCal]
@[simp] theorem queueDeadSectors_pt (s : State) : (queueDeadSectors s).pt = s.pt := (rfl)
@[simp] theorem queueLogErase_pt (s : State) : (queueLogErase s).pt = s.pt := by simp [queueLogErase]
@[simp] theorem advanceArc_pt (v : Nat) (s : State) : (advanceArc v s).pt = s.pt := by fun_cases advanceArc <;> simp

@[simp] theorem recordDone_pt (j : NvJob) (s : State) : (recordDone j s).pt = s.pt := by
  unfold recordDone
  split <;> simp

@[simp] theorem recordLost_pt (j : NvJob) (s : State) : (recordLost j s).pt = s.pt := by
  unfold recordLost
  split <;> simp

@[simp] theorem recDone_pt (status : Nat) (s : State) : (recDone status s).pt = s.pt := by simp [recDone]
@[simp] theorem dropJobs_pt (l : LaneId) (s : State) : (dropJobs l s).pt = s.pt := (rfl)

@[simp] theorem jobFail_pt (status : Nat) (j : NvJob) (s : State) : (jobFail status j s).pt = s.pt := by
  unfold jobFail
  split <;> simp

@[simp] theorem jobRefused_pt (j : NvJob) (s : State) : (jobRefused j s).pt = s.pt := by
  unfold jobRefused
  split <;> simp

@[simp] theorem nextJob_pt (k : Nat) (s : State) : (nextJob k s).pt = s.pt := by
  fun_induction nextJob <;> simp +zetaDelta [*]

@[simp] theorem clearJob_pt (s : State) : (clearJob s).pt = s.pt := (rfl)
@[simp] theorem advanceJobs_pt (s : State) : (advanceJobs s).pt = s.pt := by simp [advanceJobs]
@[simp] theorem afterUse_pt (j : NvJob) (s : State) : (afterUse j s).pt = s.pt := by fun_cases afterUse <;> simp

@[simp] theorem jobReply_pt (l : LaneId) (e : Exec) (own : Option Nat) (s : State) :
    (jobReply l e own s).pt = s.pt := by simp [jobReply]

@[simp] theorem jobDone_pt (j : NvJob) (s : State) : (jobDone j s).pt = s.pt := by
  simp only [jobDone]
  split <;> simp

@[simp] theorem jobMismatch_pt (j : NvJob) (s : State) : (jobMismatch j s).pt = s.pt := by
  simp only [jobMismatch]
  split <;> simp

@[simp] theorem stopJobs_pt (l : LaneId) (st : Nat) (s : State) : (stopJobs l st s).pt = s.pt := by
  fun_cases stopJobs <;> simp +zetaDelta

@[simp] theorem forsakeJobs_pt (id st : Nat) (s : State) : (forsakeJobs id st s).pt = s.pt := by simp [forsakeJobs]

@[simp] theorem stopNv_pt (l : LaneId) (st : Nat) (e : Exec) (s : State) : (stopNv l st e s).pt = s.pt := by
  simp [stopNv]

@[simp] theorem holdJobs_pt (l : LaneId) (id : Nat) (s : State) : (holdJobs l id s).pt = s.pt := (rfl)
@[simp] theorem wakeJobs_pt (s : State) : (wakeJobs s).pt = s.pt := by simp [wakeJobs]
@[simp] theorem resumeJobs_pt (id : Nat) (s : State) : (resumeJobs id s).pt = s.pt := by simp [resumeJobs]

@[simp] theorem suspendHere_pt (l : LaneId) (e : Exec) (s : State) : (suspendHere l e s).pt = s.pt := by
  simp [suspendHere]

@[simp] theorem jobYield_pt (j : NvJob) (s : State) : (jobYield j s).pt = s.pt := by fun_cases jobYield <;> simp

@[simp] theorem progPage_pt (b : Bool) (off i : Nat) (bytes : List Byte) (s : State) :
    (progPage b off i bytes s).pt = s.pt := (rfl)

@[simp] theorem programmed_pt (j : NvJob) (left : Nat) (s : State) : (programmed j left s).pt = s.pt := by
  unfold programmed
  split <;> simp

@[simp] theorem setStage_pt (g : JobStage) (s : State) : (setStage g s).pt = s.pt := (rfl)

@[simp] theorem readBack_pt (j : NvJob) (mismatch uncorrectable : Bool) (corrected : Nat) (s : State) :
    (readBack j mismatch uncorrectable corrected s).pt = s.pt := by simp [readBack]

@[simp] theorem nvProgramDone_pt (mismatch uncorrectable : Bool) (corrected : Nat) (j : NvJob) (s : State) :
    (nvProgramDone mismatch uncorrectable corrected j s).pt = s.pt := by
  unfold nvProgramDone
  split <;> simp

@[simp] theorem execNvProgramDone_tableNext (mismatch uncorrectable : Bool) (corrected : Nat) (s : State) :
    TableNext s (execNvProgramDone mismatch uncorrectable corrected s) := by
  unfold execNvProgramDone
  (repeat' split) <;> simp

@[simp] theorem jobErased_pt (j : NvJob) (left : Nat) (s : State) : (jobErased j left s).pt = s.pt := by
  unfold jobErased
  split <;> simp

@[simp] theorem startBody_pt (j : NvJob) (s : State) : (startBody j s).pt = s.pt := by simp [startBody]

@[simp] theorem eraseFinished_pt (j : NvJob) (s : State) : (eraseFinished j s).pt = s.pt := by
  unfold eraseFinished
  split <;> simp

@[simp] theorem jobEraseDone_pt (j : NvJob) (left : Nat) (s : State) :
    (jobEraseDone j left s).pt = s.pt := by simp [jobEraseDone]

@[simp] theorem keyEraseOver_pt (s : State) : (keyEraseOver s).pt = s.pt := by
  unfold keyEraseOver
  split <;> simp

@[simp] theorem bgStart_pt (s : State) : (bgStart s).pt = s.pt := by fun_cases bgStart <;> simp
@[simp] theorem bgErased_pt (s : State) : (bgErased s).pt = s.pt := by fun_cases bgErased <;> simp +zetaDelta

@[simp] theorem execNvEraseDone_tableNext (s : State) : TableNext s (execNvEraseDone s) := by
  unfold execNvEraseDone
  (repeat' split) <;> simp

@[simp] theorem fwStageBlock_pt (e : Exec) (s : State) : (fwStageBlock e s).pt = s.pt := by
  fun_cases fwStageBlock
  case case3 h => simp +zetaDelta [nvSubmit_pt h]
  all_goals simp

@[simp] theorem fwVerify_pt (ecc : EccRead) (e : Exec) (s0 : State) :
    (fwVerify ecc e s0).pt = s0.pt := by simp [fwVerify]

@[simp] theorem fwActivate_pt (e : Exec) (s : State) : (fwActivate e s).pt = s.pt := by
  fun_cases fwActivate
  case case4 h => simp +zetaDelta [nvSubmit_pt h]
  all_goals simp

@[simp] theorem confirmTry_pt (s : State) : (confirmTry s).pt = s.pt := by
  fun_cases confirmTry
  case case3 =>
    cases h : nvSubmit _ s with
    | none => simp
    | some t => simp [nvSubmit_pt h]
  all_goals simp

@[simp] theorem execFaultLogCommit_tableNext (s : State) : TableNext s (execFaultLogCommit s) := by
  unfold execFaultLogCommit
  (repeat' split)
  next => simp
  next => simp
  next r _ _ =>
    cases h : nvSubmit (nvJob (.log r) none (0xE90 + s.nv.logPos / 4) 0) s with
    | none => simp
    | some t => simp [nvSubmit_pt h]

/-! ## Card emulation -/

@[simp] theorem emuConfigure_pt (e : Exec) (s : State) : (emuConfigure e s).pt = s.pt := by simp [emuConfigure]

@[simp] theorem emuField_pt (s : State) : (emuField s).pt = s.pt := by
  fun_cases emuField
  case case5 h => simp +zetaDelta [rngDraw1_pt h]
  all_goals simp

@[simp] theorem emuListen_pt (uid : List Byte) (s : State) : (emuListen uid s).pt = s.pt := by simp [emuListen]

@[simp] theorem armDraw_pt (since : Nat) (s : State) : (armDraw since s).pt = s.pt := by
  unfold armDraw
  split
  next h => simp [rngDraw1_pt h]
  next => simp

@[simp] theorem emuArm_pt (e : Exec) (s : State) : (emuArm e s).pt = s.pt := by
  unfold emuArm
  split <;> simp

@[simp] theorem emuRespondLost_pt (s : State) : (emuRespondLost s).pt = s.pt := by
  unfold emuRespondLost
  split <;> simp

@[simp] theorem emuFieldLost_pt (s : State) : (emuFieldLost s).pt = s.pt := by simp [emuFieldLost]
@[simp] theorem emuSend_pt (f : HfFrame) (s : State) : (emuSend f s).pt = s.pt := (rfl)
@[simp] theorem emuError_pt (s : State) : (emuError s).pt = s.pt := (rfl)
@[simp] theorem emuSelected_pt (dsi dri : Nat) (s : State) : (emuSelected dsi dri s).pt = s.pt := by simp [emuSelected]

@[simp] theorem emuFirstBlock_pt (s : State) : (emuFirstBlock s).pt = s.pt := by
  unfold emuFirstBlock
  split <;> simp

@[simp] theorem emuNextBlock_pt (s : State) : (emuNextBlock s).pt = s.pt := (rfl)
@[simp] theorem emuCommand_pt (s : State) : (emuCommand s).pt = s.pt := by simp [emuCommand]

@[simp] theorem emuIBlockIn_pt (chain : Bool) (inf : List Byte) (s : State) :
    (emuIBlockIn chain inf s).pt = s.pt := by simp [emuIBlockIn]

@[simp] theorem emuRBlockIn_pt (nak n : Bool) (s : State) : (emuRBlockIn nak n s).pt = s.pt := by
  fun_cases emuRBlockIn <;> simp

@[simp] theorem emuProtocol_pt (f : EmuFrame) (s : State) : (emuProtocol f s).pt = s.pt := by
  fun_cases emuProtocol <;> simp +zetaDelta

@[simp] theorem emuLayer3_pt (f : EmuFrame) (s : State) : (emuLayer3 f s).pt = s.pt := by
  unfold emuLayer3
  split <;> simp

@[simp] theorem execEmuRxFrame_tableNext (f : EmuFrame) (s : State) (clipped : Bool) (res : FrameResult) :
    TableNext s (execEmuRxFrame f s clipped res) := tableNext_withWaiting fun s => by
  split <;> simp

@[simp] theorem emuAnswer_pt (bs : List Byte) (s : State) : (emuAnswer bs s).pt = s.pt := by simp [emuAnswer]
@[simp] theorem emuRespond_pt (e : Exec) (s : State) : (emuRespond e s).pt = s.pt := by simp [emuRespond]

@[simp] theorem emuBlockSent_pt (s : State) : (emuBlockSent s).pt = s.pt := by
  unfold emuBlockSent
  split <;> simp

/-! ## Peer mode -/

@[simp] theorem answerSense_pt (s : State) : (answerSense s).pt = s.pt := (rfl)

@[simp] theorem peerSend_pt (f : HfFrame) (s : State) : (peerSend f s).pt = s.pt := by
  unfold peerSend
  split <;> simp

@[simp] theorem peerSendData_pt (s : State) : (peerSendData s).pt = s.pt := by
  unfold peerSendData
  split <;> simp

@[simp] theorem sendSwap_pt (want : Bool) (s : State) : (sendSwap want s).pt = s.pt := by
  unfold sendSwap
  split <;> simp

@[simp] theorem peerBegin_pt (p : Packet) (ws : List Half) (s : State) :
    (peerBegin p ws s).pt = s.pt := by simp [peerBegin]

@[simp] theorem peerDraw_pt (since : Nat) (p : Packet) (s : State) : (peerDraw since p s).pt = s.pt := by
  unfold peerDraw
  split
  next h => simp [rngDraw1_pt h]
  next => simp

@[simp] theorem peerStart_pt (e : Exec) (s : State) : (peerStart e s).pt = s.pt := by simp [peerStart]

@[simp] theorem peerFieldUp_pt (s : State) : (peerFieldUp s).pt = s.pt := by
  unfold peerFieldUp
  split <;> simp

@[simp] theorem swapEvent_pt (swapped failed : Bool) (s : State) : (swapEvent swapped failed s).pt = s.pt := by
  unfold swapEvent
  split <;> simp

@[simp] theorem swapReply_pt (status : Nat) (swapped : Bool) (s : State) :
    (swapReply status swapped s).pt = s.pt := by simp [swapReply]

@[simp] theorem swapKept_pt (s : State) : (swapKept s).pt = s.pt := by simp [swapKept]
@[simp] theorem swapFailed_pt (s : State) : (swapFailed s).pt = s.pt := by simp [swapFailed]

@[simp] theorem swapRoles_pt (s : State) : (swapRoles s).pt = s.pt := by
  unfold swapRoles
  split <;> simp

@[simp] theorem swapWaits_pt (length : Bool) (s : State) : (swapWaits length s).pt = s.pt := by simp [swapWaits]

@[simp] theorem tieDraw_pt (s : State) : (tieDraw s).pt = s.pt := by
  unfold tieDraw
  split
  next h => simp [rngDraw1_pt h]
  next => simp

@[simp] theorem swapTie_pt (s : State) : (swapTie s).pt = s.pt := by fun_cases swapTie <;> simp +zetaDelta

@[simp] theorem swapCompare_pt (s : State) : (swapCompare s).pt = s.pt := by
  unfold swapCompare
  split <;> simp

@[simp] theorem keepGb_pt (gb : List Byte) (s : State) : (keepGb gb s).pt = s.pt := by
  unfold keepGb
  split <;> simp

@[simp] theorem gotAtrReq_pt (gb : List Byte) (s : State) : (gotAtrReq gb s).pt = s.pt := by
  unfold gotAtrReq
  split <;> simp

@[simp] theorem gotAtrRes_pt (nfcid gb : List Byte) (toc : Nat) (s : State) : (gotAtrRes nfcid gb toc s).pt = s.pt := by
  fun_cases gotAtrRes <;> simp +zetaDelta

@[simp] theorem storeData_pt (data : List Byte) (s : State) : (storeData data s).pt = s.pt := by
  unfold storeData
  split <;> simp

@[simp] theorem swapEnds_pt (status code : Nat) (s : State) : (swapEnds status code s).pt = s.pt := by simp [swapEnds]
@[simp] theorem swapLost_pt (code : Nat) (s : State) : (swapLost code s).pt = s.pt := by simp [swapLost]
@[simp] theorem peerBad_pt (s : State) : (peerBad s).pt = s.pt := by simp [peerBad]

@[simp] theorem initiatorData_pt (bs : List Byte) (s : State) : (initiatorData bs s).pt = s.pt := by
  simp [initiatorData]

@[simp] theorem swapDropped_pt (s : State) : (swapDropped s).pt = s.pt := by simp [swapDropped]

@[simp] theorem targetData_pt (bs : List Byte) (s0 : State) : (targetData bs s0).pt = s0.pt := by
  fun_cases targetData <;> simp +zetaDelta

@[simp] theorem gotDep_pt (more : Bool) (data : List Byte) (s : State) : (gotDep more data s).pt = s.pt := by
  unfold gotDep
  split <;> simp

@[simp] theorem gotRelease_pt (s : State) : (gotRelease s).pt = s.pt := by simp [gotRelease]
@[simp] theorem peerNext_pt (f : PeerFrame) (s : State) : (peerNext f s).pt = s.pt := by fun_cases peerNext <;> simp

@[simp] theorem peerRx_pt (f : PeerFrame) (m : RxMeas) (clipped : Bool) (res0 : FrameResult) (s : State) :
    (peerRx f m clipped res0 s).pt = s.pt := by simp [peerRx]

@[simp] theorem execPeerRxFrame_tableNext (f : PeerFrame) (m : RxMeas) (s : State) (clipped : Bool)
    (res : FrameResult) :
    TableNext s (execPeerRxFrame f m s clipped res) := tableNext_withWaiting fun s => by
  split <;> simp

@[simp] theorem peerExchange_pt (e : Exec) (s : State) : (peerExchange e s).pt = s.pt := by
  unfold peerExchange
  split <;> simp

@[simp] theorem execPeerRtox_tableNext (s : State) : TableNext s (execPeerRtox s) := by
  unfold execPeerRtox
  split <;> simp

@[simp] theorem swapRequest_pt (draw : Nat) (s : State) : (swapRequest draw s).pt = s.pt := by
  fun_cases swapRequest <;> simp +zetaDelta

@[simp] theorem swapDraw_pt (since : Nat) (s : State) : (swapDraw since s).pt = s.pt := by
  unfold swapDraw
  split
  next h => simp [rngDraw1_pt h]
  next => simp

@[simp] theorem peerRoleSwap_pt (e : Exec) (s : State) : (peerRoleSwap e s).pt = s.pt := by simp [peerRoleSwap]

@[simp] theorem backoffEnd_pt (draw : Nat) (s : State) : (backoffEnd draw s).pt = s.pt := by
  fun_cases backoffEnd <;> simp +zetaDelta

@[simp] theorem backoffDraw_pt (s : State) : (backoffDraw s).pt = s.pt := by
  unfold backoffDraw
  split
  next h => simp [rngDraw1_pt h]
  next => simp

@[simp] theorem execSwapBackoffEnd_tableNext (s : State) :
    TableNext s (execSwapBackoffEnd s) := tableNext_withWaiting fun s => by
  split <;> simp

@[simp] theorem peerFieldSeen_pt (s : State) : (peerFieldSeen s).pt = s.pt := by
  unfold peerFieldSeen
  split <;> simp

@[simp] theorem swapSense_pt (s : State) : (swapSense s).pt = s.pt := by
  unfold swapSense
  split
  next h => simp [rngDraw1_pt h]
  next => simp

@[simp] theorem swapDrawAgain_pt (s : State) : (swapDrawAgain s).pt = s.pt := by fun_cases swapDrawAgain <;> simp

@[simp] theorem execSwapGapEnd_tableNext (sensed : Bool) (s : State) :
    TableNext s (execSwapGapEnd sensed s) := tableNext_withWaiting fun s => by
  split <;> simp

@[simp] theorem execSwapReactivationTimeout_tableNext (s : State) :
    TableNext s (execSwapReactivationTimeout s) := tableNext_withWaiting fun s => by
  split <;> simp

@[simp] theorem peerEnd_pt (s : State) : (peerEnd s).pt = s.pt := by simp [peerEnd]

@[simp] theorem peerFrameEnd_pt (f : HfFrame) (s : State) : (peerFrameEnd f s).pt = s.pt := by
  fun_cases peerFrameEnd <;> simp +zetaDelta

@[simp] theorem peerSilent_pt (s : State) : (peerSilent s).pt = s.pt := by
  unfold peerSilent
  split <;> simp

@[simp] theorem peerFieldDown_pt (s : State) : (peerFieldDown s).pt = s.pt := by
  unfold peerFieldDown
  split <;> simp

@[simp] theorem execOtherFieldEnds_tableNext (s : State) :
    TableNext s (execOtherFieldEnds s) := tableNext_withWaiting fun s => by
  split <;> simp

@[simp] theorem peerStop_pt (e : Exec) (s : State) : (peerStop e s).pt = s.pt := by
  unfold peerStop
  split <;> simp

@[simp] theorem extWindow_pt (peak : Nat) (s : State) : (extWindow peak s).pt = s.pt := by simp [extWindow]

@[simp] theorem execExternalFieldDetected_tableNext (s : State) (peak : Nat) :
    TableNext s (execExternalFieldDetected s peak) := tableNext_withWaiting fun s => by
  simp

@[simp] theorem execExternalFieldGone_tableNext (s : State) :
    TableNext s (execExternalFieldGone s) := tableNext_withWaiting fun s => by
  split <;> simp

@[simp] theorem execAgcWindow_tableNext (c : Chain) (peak : Nat) (clip : Bool) (s : State) (sof : Bool) :
    TableNext s (execAgcWindow c peak clip s sof) := tableNext_withWaiting fun s => by
  (repeat' split) <;> simp

/-! ## Entropy and draws -/

@[simp] theorem setFails_pt (noise : Bool) (n : Nat) (s : State) : (setFails noise n s).pt = s.pt := (rfl)
@[simp] theorem stopSource_pt (noise : Bool) (s : State) : (stopSource noise s).pt = s.pt := (rfl)
@[simp] theorem rngFence_pt (noise : Bool) (s : State) : (rngFence noise s).pt = s.pt := by simp [rngFence]
@[simp] theorem setTest_pt (noise : Bool) (t : HealthTest) (s : State) : (setTest noise t s).pt = s.pt := (rfl)

@[simp] theorem blockPassed_pt (noise : Bool) (raw : List Byte) (s : State) :
    (blockPassed noise raw s).pt = s.pt := (rfl)

@[simp] theorem blockFailed_pt (noise : Bool) (test : Nat) (s : State) :
    (blockFailed noise test s).pt = s.pt := by simp [blockFailed]

@[simp] theorem readGo_pt (e : Exec) (k done since : Nat) (s : State) : (readGo e k done since s).pt = s.pt := by
  fun_induction readGo
  case case3 h ih => simp [ih, rngGenerate_pt h]
  all_goals simp

@[simp] theorem readFrom_pt (e : Exec) (done since : Nat) (s : State) :
    (readFrom e done since s).pt = s.pt := by simp [readFrom]

@[simp] theorem rngRead_pt (e : Exec) (s : State) : (rngRead e s).pt = s.pt := by simp [rngRead]

@[simp] theorem drawHf_pt (e : Exec) (since : Nat) (s : State) : (drawHf e since s).pt = s.pt := by
  unfold drawHf
  split <;> simp

@[simp] theorem drawAgain_pt (l : LaneId) (s : State) : (drawAgain l s).pt = s.pt := by fun_cases drawAgain <;> simp

@[simp] theorem serveCall_pt (s : State) (x : DrawCall) : (serveCall s x).pt = s.pt := by
  unfold serveCall
  split
  · exact withWaiting_pt swapDrawAgain_pt _ _ _
  · exact withWaiting_pt (drawAgain_pt _) _ _ _

@[simp] theorem serveDraws_pt (s : State) : (serveDraws s).pt = s.pt := by simp [serveDraws]

@[simp] theorem execDrawTimeout_tableNext (l : LaneId) (s : State) :
    TableNext s (execDrawTimeout l s) := tableNext_withWaiting fun s => by
  (repeat' split) <;> simp

@[simp] theorem katFences_pt (t : Nat) (s : State) : (katFences t s).pt = s.pt := by simp [katFences]
@[simp] theorem restartSources_pt (m : Nat) (s : State) : (restartSources m s).pt = s.pt := by simp [restartSources]

/-! ## The lock cycle and RESET_TENANT -/

@[simp] theorem swapTable_active (s : State) : (swapTable s).pt.active = activated s.pt.staging := (rfl)
@[simp] theorem recheck_pt (s : State) : (recheck s).2.pt = s.pt := by simp [recheck]

@[simp] theorem startWithdrawal_pt (old : List Word) (s : State) : (startWithdrawal old s).pt = s.pt := by
  simp [startWithdrawal, foldl_pt fun s n => onTenant_pt n _ s]

/-- A cycle leaves the active table, or all checks pass and it activates the staging copy. -/
theorem lockRun_active (p : Packet) (s : State) :
    (lockRun p s).2.2.pt.active = s.pt.active ∨ ActivatesStaging s (lockRun p s).2.2 := by
  unfold lockRun
  split
  next => exact .inl (by simp)
  next hpass => exact .inr ⟨_, _, hpass, by simp⟩

theorem lockCycle_active (e : Exec) (s : State) :
    (lockCycle e s).pt.active = s.pt.active ∨ ActivatesStaging s (lockCycle e s) := by
  unfold lockCycle
  split
  · exact .inl (by simp)
  · simpa [ActivatesStaging] using lockRun_active e.pkt s

@[simp] theorem withdraw_pt (w : Nat × Option Chain) (s : State) : (withdraw w s).pt = s.pt := by
  unfold withdraw
  split <;> simp

@[simp] theorem samWithdraw_pt (k : Nat) (s : State) : (samWithdraw k s).pt = s.pt := by
  unfold samWithdraw
  split <;> simp

@[simp] theorem resetTenant_pt (e : Exec) (s : State) : (resetTenant e s).pt = s.pt := by simp [resetTenant]

/-! ## Resets -/

@[simp] theorem reset_active : State.reset.pt.active = ptReset := (rfl)

@[simp] theorem surroundings_pt (s : State) : (surroundings s).pt = State.reset.pt := (rfl)
@[simp] theorem resetPowerOn_pt (s : State) : (resetPowerOn s).pt = State.reset.pt := (rfl)
@[simp] theorem resetWarm_pt (cause : Nat) (s : State) : (resetWarm cause s).pt = State.reset.pt := (rfl)

@[simp] theorem resetWatchdog_pt (origin reason : Nat) (s : State) :
    (resetWatchdog origin reason s).pt = State.reset.pt := (rfl)

@[simp] theorem powerOff_pt (s : State) : (powerOff s).pt = State.reset.pt := (rfl)

theorem tableNext_withinRating {vin : Nat} {s t : State} (ht : KeptOrReset s t) : TableNext s (withinRating vin t) := by
  unfold withinRating
  split
  · intro u hu
    cases hu
  · exact tableNext_next.2 ht

@[simp] theorem execPowerOnReset_tableNext (vin : Nat) (s : State) : TableNext s (execPowerOnReset vin s) :=
  tableNext_withinRating (by split <;> simp)

@[simp] theorem execFwActivationReset_tableNext (s : State) : TableNext s (execFwActivationReset s) := by
  unfold execFwActivationReset
  (repeat' split) <;> simp

@[simp] theorem coresStart_pt (s : State) : (coresStart s).pt = s.pt := (rfl)

/-! ## Start-up -/

@[simp] theorem abandonBank_pt (b : Bool) (s : State) : (abandonBank b s).pt = s.pt := by simp [abandonBank]
@[simp] theorem bootFrom_pt (b : Bool) (s : State) : (bootFrom b s).pt = s.pt := (rfl)
@[simp] theorem heldFences_pt (s : State) : (heldFences s).pt = s.pt := (rfl)
@[simp] theorem startClocks_pt (env : StartEnv) (s : State) : (startClocks env s).pt = s.pt := (rfl)
@[simp] theorem armComparator_pt (s : State) : (armComparator s).pt = s.pt := (rfl)

@[simp] theorem startFirmware_pt (env : StartEnv) (b : Bool) (s : State) :
    (startFirmware env b s).pt = s.pt := by simp [startFirmware]

@[simp] theorem startUp_pt (env : StartEnv) (s : State) : (startUp env s).pt = s.pt := by
  fun_cases startUp <;> simp +zetaDelta

@[simp] theorem execStartUp_tableNext (env : StartEnv) (s : State) :
    TableNext s (execStartUp env s) := tableNext_withinRating (by simp)

/-! ## UNFENCE and the scrubber -/

@[simp] theorem unfenceDone_pt (named : List Nat) (s : State) : (unfenceDone named s).pt = s.pt := by simp [unfenceDone]

@[simp] theorem testNext_pt (op : TestOp) (s : State) : (testNext op s).pt = s.pt := by
  unfold testNext
  split <;> simp

@[simp] theorem unfence_pt (failing : List Nat) (rl : Nat) (ecc : EccRead) (e : Exec) (s : State) :
    (unfence failing rl ecc e s).pt = s.pt := by simp [unfence]

@[simp] theorem wordLost_pt (a : Nat) (s : State) : (wordLost a s).pt = s.pt := (rfl)

theorem doubleError_table (a : Nat) (s : State) : KeptOrReset s (doubleError a s) := by
  simp only [doubleError]
  (repeat' split) <;> simp

/-! ## Pins -/

@[simp] theorem gpioSet_pt (e : Exec) (s : State) : (gpioSet e s).pt = s.pt := by simp [gpioSet]
@[simp] theorem setPinLevel_pt (n : Nat) (level : Bool) (s : State) : (setPinLevel n level s).pt = s.pt := (rfl)

/-! ## Ends of frames, rises and falls -/

@[simp] theorem hfWindow_pt (s : State) : (hfWindow s).pt = s.pt := (rfl)
@[simp] theorem hfSentFrame_pt (f : HfFrame) (s : State) : (hfSentFrame f s).pt = s.pt := by simp [hfSentFrame]

@[simp] theorem hfFrameEnd_pt (s : State) : (hfFrameEnd s).pt = s.pt := by
  unfold hfFrameEnd
  split <;> simp

@[simp] theorem uhfFrameEnd_pt (s : State) : (uhfFrameEnd s).pt = s.pt := by
  unfold uhfFrameEnd
  split <;> simp

@[simp] theorem execReaderFrameEnd_tableNext (c : Chain) (s : State) : TableNext s (execReaderFrameEnd c s) := by
  cases c
  · exact tableNext_withWaiting hfFrameEnd_pt
  · simp [execReaderFrameEnd]

@[simp] theorem hfSilence_pt (s : State) : (hfSilence s).pt = s.pt := by simp [hfSilence]
@[simp] theorem uhfSilence_pt (s : State) : (uhfSilence s).pt = s.pt := by simp [uhfSilence]

@[simp] theorem execReplyWindowTimeout_tableNext (c : Chain) (s : State) :
    TableNext s (execReplyWindowTimeout c s) := by
  unfold execReplyWindowTimeout
  cases c
  · dsimp only
    split
    · exact tableNext_withWaiting hfSilence_pt
    · simp
  · simp

@[simp] theorem hfMeasured_pt (e : Exec) (vals : List Int) (body : List Byte) (s : State) :
    (hfMeasured e vals body s).pt = s.pt := by simp [hfMeasured]

@[simp] theorem hfRisen_pt (s : State) : (hfRisen s).pt = s.pt := by
  unfold hfRisen
  split <;> simp

@[simp] theorem fieldUp_pt (iAnt drive : Nat) (s : State) : (fieldUp iAnt drive s).pt = s.pt := by simp [fieldUp]

@[simp] theorem fieldSettled_pt (iAnt drive : Nat) (s : State) :
    (fieldSettled iAnt drive s).pt = s.pt := by simp [fieldSettled]

@[simp] theorem execFieldRiseDone_tableNext (iAnt : Nat) (s : State) (drive : Nat) :
    TableNext s (execFieldRiseDone iAnt s drive) := tableNext_withWaiting fun s => by
  split <;> simp

@[simp] theorem hfFellPacket_pt (s : State) : (hfFellPacket s).pt = s.pt := by fun_cases hfFellPacket <;> simp
@[simp] theorem releaseFell_pt (c : Chain) (s : State) : (releaseFell c s).pt = s.pt := by simp [releaseFell]

@[simp] theorem deselectFell_pt (l : LaneId) (s : State) : (deselectFell l s).pt = s.pt := by
  refine withWaiting_pt (fun s => ?_) _ _ _
  (repeat' split) <;> simp

@[simp] theorem hfFell_pt (s : State) : (hfFell s).pt = s.pt := by simp [hfFell]

@[simp] theorem execHfFieldFallDone_tableNext (s : State) :
    TableNext s (execHfFieldFallDone s) := tableNext_withWaiting fun s => by
  split <;> simp

@[simp] theorem holdBegins_pt (e : Exec) (s : State) : (holdBegins e s).pt = s.pt := (rfl)

@[simp] theorem uhfRisen_pt (s : State) : (uhfRisen s).pt = s.pt := by
  unfold uhfRisen
  split <;> simp

@[simp] theorem carrierUp_pt (fwd : Int) (rl : Nat) (s : State) : (carrierUp fwd rl s).pt = s.pt := by simp [carrierUp]
@[simp] theorem carrierSettled_pt (fwd : Int) (s : State) : (carrierSettled fwd s).pt = s.pt := by simp [carrierSettled]

@[simp] theorem execCarrierRiseDone_tableNext (fwd : Int) (rl : Nat) (s : State) :
    TableNext s (execCarrierRiseDone fwd rl s) := tableNext_withWaiting fun s => by
  split <;> simp

@[simp] theorem uhfFellPacket_pt (s : State) : (uhfFellPacket s).pt = s.pt := by fun_cases uhfFellPacket <;> simp

@[simp] theorem uhfFell_pt (why : FallFor) (s : State) : (uhfFell why s).pt = s.pt := by
  unfold uhfFell
  split <;> simp

@[simp] theorem execCarrierFallDone_tableNext (s : State) :
    TableNext s (execCarrierFallDone s) := tableNext_withWaiting fun s => by
  split <;> simp

/-! ## Supply, temperature and clocks -/

@[simp] theorem execVinBelowThreshold_tableNext (vin : Nat) (s : State) :
    TableNext s (execVinBelowThreshold vin s) := tableNext_withinRating (by simp)

@[simp] theorem stopSam_pt (n st : Nat) (s : State) : (stopSam n st s).pt = s.pt := (rfl)

@[simp] theorem shedSam_pt (cls : List Nat) (st n : Nat) (s : State) : (shedSam cls st n s).pt = s.pt := by
  simp [shedSam]

@[simp] theorem shedLoad_pt (s : State) : (shedLoad s).pt = s.pt := by simp [shedLoad]

@[simp] theorem execVinEarlyWarn_tableNext (vin : Nat) (s : State) :
    TableNext s (execVinEarlyWarn vin s) := tableNext_withinRating (by simp)

@[simp] theorem execVinAboveHysteresis_tableNext (vin : Nat) (s : State) :
    TableNext s (execVinAboveHysteresis vin s) := tableNext_withinRating (by simp)

@[simp] theorem execVinRecovered_tableNext (vin : Nat) (s : State) :
    TableNext s (execVinRecovered vin s) := tableNext_withinRating (by
  split <;> simp)

@[simp] theorem vpaLost_pt (cause detail : Nat) (s : State) : (vpaLost cause detail s).pt = s.pt := by simp [vpaLost]
@[simp] theorem thermWarn_pt (t : Int) (s : State) : (thermWarn t s).pt = s.pt := by simp [thermWarn]
@[simp] theorem thermTrip_pt (t : Int) (s : State) : (thermTrip t s).pt = s.pt := by simp [thermTrip]
@[simp] theorem thermRecal_pt (s : State) : (thermRecal s).pt = s.pt := by simp [thermRecal]
@[simp] theorem thermRead_pt (t : Int) (s : State) : (thermRead t s).pt = s.pt := by simp [thermRead]
@[simp] theorem countWindow_pt (s : State) (x : Clock × Nat) : (countWindow s x).pt = s.pt := by simp [countWindow]
@[simp] theorem markLost_pt (ks : List Clock) (s : State) : (markLost ks s).pt = s.pt := by simp [markLost]

@[simp] theorem clockFault_pt (k : Clock) (outcome : Nat) (s : State) :
    (clockFault k outcome s).pt = s.pt := by simp [clockFault]

@[simp] theorem clockFresh_pt (k : Clock) (s : State) : (clockFresh k s).pt = s.pt := (rfl)

@[simp] theorem lossActs_pt (s : State) (k : Clock) : (lossActs s k).pt = s.pt := by
  unfold lossActs
  split <;> simp

@[simp] theorem clockReset_pt (ks : List Clock) (s : State) : (clockReset ks s).pt = State.reset.pt := (rfl)
theorem xoReset_table (s : State) : KeptOrReset s (xoReset s) := by
  unfold xoReset
  split <;> simp
theorem xoLoss_table (ks : List Clock) (s : State) : KeptOrReset s (xoLoss ks s) :=
  KeptOrReset.trans (by simp) (xoReset_table _)
theorem clockLosses_table (ks : List Clock) (s : State) : KeptOrReset s (clockLosses ks s) := by
  unfold clockLosses
  split
  · simp
  split
  · simp
  split
  · exact xoLoss_table ks s
  · simp

@[simp] theorem vioCut_pt (p : Port) (cut : Option Nat) (s : State) : (vioCut p cut s).pt = s.pt := by
  fun_cases vioCut <;> simp +zetaDelta

/-! ## The SAM interfaces -/

@[simp] theorem samPowerEnd_pt (op : SamPowerOp) (status : Nat) (s : State) :
    (samPowerEnd op status s).pt = s.pt := by simp [samPowerEnd]

@[simp] theorem samActivate_pt (op : SamPowerOp) (s : State) : (samActivate op s).pt = s.pt := by simp [samActivate]
@[simp] theorem samWarm_pt (op : SamPowerOp) (s : State) : (samWarm op s).pt = s.pt := by simp [samWarm]

@[simp] theorem samAtrFailed_pt (op : SamPowerOp) (status : Nat) (s : State) :
    (samAtrFailed op status s).pt = s.pt := by
  unfold samAtrFailed
  split <;> simp

@[simp] theorem samPower_pt (e : Exec) (s : State) : (samPower e s).pt = s.pt := by simp [samPower]

@[simp] theorem samInUse_pt (op : SamPowerOp) (tenant status : Nat) (s : State) :
    (samInUse op tenant status s).pt = s.pt := by simp [samInUse]

@[simp] theorem samIfsFor_pt (op : SamPowerOp) (times : Nat) (s : State) :
    (samIfsFor op times s).pt = s.pt := by simp [samIfsFor]

@[simp] theorem samIfsError_pt (op : SamPowerOp) (tenant status : Nat) (s : State) :
    (samIfsError op tenant status s).pt = s.pt := by simp [samIfsError]

@[simp] theorem samIfsNext_pt (op : SamPowerOp) (tenant : Nat) (rx : SamRx) (s : State) :
    (samIfsNext op tenant rx s).pt = s.pt := by
  unfold samIfsNext
  split <;> simp

@[simp] theorem samReady_pt (op : SamPowerOp) (tenant : Nat) (atr : List Byte) (i : AtrInfo)
    (proto fi di : Nat) (s : State) :
    (samReady op tenant atr i proto fi di s).pt = s.pt := by simp [samReady]

@[simp] theorem samAtr_pt (op : SamPowerOp) (tenant : Nat) (atr : List Byte) (ppsOk : Bool) (s : State) :
    (samAtr op tenant atr ppsOk s).pt = s.pt := by
  fun_cases samAtr <;> simp

@[simp] theorem execSamAtrReceived_tableNext (n : Nat) (atr : List Byte) (ppsOk : Bool) (s : State) :
    TableNext s (execSamAtrReceived n atr ppsOk s) := tableNext_withWaiting fun s => by
  (repeat' split) <;> simp

@[simp] theorem execSamAtrTimeout_tableNext (n : Nat) (s : State) :
    TableNext s (execSamAtrTimeout n s) := tableNext_withWaiting fun s => by
  (repeat' split) <;> simp

@[simp] theorem execSamClassRetry_tableNext (n : Nat) (s : State) :
    TableNext s (execSamClassRetry n s) := tableNext_withWaiting fun s => by
  (repeat' split) <;> simp

@[simp] theorem samWaitFor_pt (op : SamXchgOp) (times : Nat) (s : State) :
    (samWaitFor op times s).pt = s.pt := by simp [samWaitFor]

@[simp] theorem samXchgEnd_pt (op : SamXchgOp) (status : Nat) (sw : Option (Byte × Byte)) (s : State) :
    (samXchgEnd op status sw s).pt = s.pt := by
  unfold samXchgEnd
  split <;> simp

@[simp] theorem samXchgFail_pt (op : SamXchgOp) (status : Nat) (s : State) :
    (samXchgFail op status s).pt = s.pt := by simp [samXchgFail]

@[simp] theorem t0Send_pt (op : SamXchgOp) (cmd : List Byte) (s : State) : (t0Send op cmd s).pt = s.pt := by
  simp [t0Send]

@[simp] theorem t0Status_pt (op : SamXchgOp) (sw1 sw2 : Byte) (s : State) :
    (t0Status op sw1 sw2 s).pt = s.pt := by simp [t0Status]

@[simp] theorem t0Next_pt (op : SamXchgOp) (rx : SamRx) (s : State) : (t0Next op rx s).pt = s.pt := by
  unfold t0Next
  cases rx <;> simp

@[simp] theorem t1Send_pt (op : SamXchgOp) (s : State) : (t1Send op s).pt = s.pt := by simp [t1Send]

@[simp] theorem t1Error_pt (op : SamXchgOp) (status : Nat) (s : State) :
    (t1Error op status s).pt = s.pt := by simp [t1Error]

@[simp] theorem t1Next_pt (op : SamXchgOp) (rx : SamRx) (s : State) : (t1Next op rx s).pt = s.pt := by
  fun_cases t1Next <;> simp

@[simp] theorem samExchange_pt (e : Exec) (s : State) : (samExchange e s).pt = s.pt := by simp [samExchange]

@[simp] theorem samRx_pt (n : Nat) (rx : SamRx) (e : Exec) (s : State) : (samRx n rx e s).pt = s.pt := by
  fun_cases samRx <;> simp

@[simp] theorem execSamRxBlock_tableNext (n : Nat) (rx : SamRx) (s : State) (gap : Nat) :
    TableNext s (execSamRxBlock n rx s gap) := tableNext_withWaiting fun s => by
  split <;> simp

@[simp] theorem execSamWaitTimeout_tableNext (n : Nat) (s : State) :
    TableNext s (execSamWaitTimeout n s) := tableNext_withWaiting fun s => by
  (repeat' split) <;> simp

@[simp] theorem samLeaseGive_pt (n tenant : Nat) (s : State) : (samLeaseGive n tenant s).pt = s.pt := by
  simp [samLeaseGive]

@[simp] theorem samLeaseForce_pt (n : Nat) (e : Exec) (s : State) : (samLeaseForce n e s).pt = s.pt := by
  unfold samLeaseForce
  split <;> simp

@[simp] theorem samRelease_pt (n : Nat) (s : State) : (samRelease n s).pt = s.pt := by simp [samRelease]
@[simp] theorem samLease_pt (e : Exec) (s : State) : (samLease e s).pt = s.pt := by simp [samLease]
@[simp] theorem samEvent_pt (n kind : Nat) (s : State) : (samEvent n kind s).pt = s.pt := by simp [samEvent]
@[simp] theorem cardInserted_pt (n : Nat) (s : State) : (cardInserted n s).pt = s.pt := by simp [cardInserted]
@[simp] theorem cardRemoved_pt (n : Nat) (s : State) : (cardRemoved n s).pt = s.pt := by simp [cardRemoved]

@[simp] theorem execSamOvercurrent_tableNext (n : Nat) (s : State) : TableNext s (execSamOvercurrent n s) := by
  unfold execSamOvercurrent
  (repeat' split) <;> simp

/-! ## Yield points -/

@[simp] theorem dropRise_pt (s : State) : (dropRise s).pt = s.pt := by simp [dropRise]
@[simp] theorem dropHold_pt (s : State) : (dropHold s).pt = s.pt := by simp [dropHold]

@[simp] theorem stopEffect_pt (l : LaneId) (st : Nat) (e : Exec) (s : State) : (stopEffect l st e s).pt = s.pt := by
  unfold stopEffect
  split <;> simp

@[simp] theorem dropHeld_pt (l : LaneId) (s : State) : (dropHeld l s).pt = s.pt := by
  unfold dropHeld
  split <;> simp

@[simp] theorem stopHere_pt (l : LaneId) (st : Nat) (e : Exec) (s : State) :
    (stopHere l st e s).pt = s.pt := by simp [stopHere]

@[simp] theorem releaseAgain_pt (e : Exec) (s : State) : (releaseAgain e s).pt = s.pt := by simp [releaseAgain]
@[simp] theorem preemptAgain_pt (e : Exec) (s : State) : (preemptAgain e s).pt = s.pt := by simp [preemptAgain]

@[simp] theorem waitAgain_pt (l : LaneId) (e : Exec) (s : State) : (waitAgain l e s).pt = s.pt := by
  unfold waitAgain
  split <;> simp

@[simp] theorem yieldPoint_pt (l : LaneId) (e : Exec) (s : State) : (yieldPoint l e s).pt = s.pt := by
  fun_cases yieldPoint <;> simp

@[simp] theorem execYieldPoint_tableNext (l : LaneId) (s : State) : TableNext s (execYieldPoint l s) := by
  unfold execYieldPoint
  split <;> simp

@[simp] theorem releaseHeld_pt (l : LaneId) (s : State) : (releaseHeld l s).pt = s.pt := by
  unfold releaseHeld
  split <;> simp

@[simp] theorem resume_pt (l : LaneId) (s0 : State) : (resume l s0).pt = s0.pt := by
  fun_cases resume <;> simp +zetaDelta

@[simp] theorem execPacketAdmit_tableNext (l : LaneId) (s : State) : TableNext s (execPacketAdmit l s) := by
  unfold execPacketAdmit
  (repeat' split) <;> simp

/-! ## Low-power states and wakes -/

@[simp] theorem stopSuspended_pt (l : LaneId) (st : Nat) (s : State) :
    (stopSuspended l st s).pt = s.pt := by simp [stopSuspended]

@[simp] theorem stopChains_pt (s : State) : (stopChains s).pt = s.pt := by simp [stopChains]
@[simp] theorem setPower_pt (e : Exec) (s : State) : (setPower e s).pt = s.pt := by fun_cases setPower <;> simp
@[simp] theorem undoGrant_pt (c : Chain) (s : State) : (undoGrant c s).pt = s.pt := by simp [undoGrant]

@[simp] theorem chainsDown_pt (s : State) : (chainsDown s).pt = s.pt := by
  simp only [chainsDown]
  split <;> simp

@[simp] theorem abandonStall_pt (s : State) : (abandonStall s).pt = s.pt := by
  unfold abandonStall
  split <;> simp

@[simp] theorem wakeEvent_pt (w : WakeSrc) (s : State) : (wakeEvent w s).pt = s.pt := by
  unfold wakeEvent
  split <;> simp

@[simp] theorem towSleep_pt (s : State) : (towSleep s).pt = s.pt := (rfl)
@[simp] theorem banksOff_pt (s : State) : (banksOff s).pt = s.pt := (rfl)

theorem asleep_table (t : PowerState) (ms : Nat) (s : State) : KeptOrReset s (asleep t ms s) := by
  simp only [asleep]
  split <;> simp
@[simp] theorem wakeReset_pt (s : State) : (wakeReset s).pt = State.reset.pt := (rfl)
theorem lateWakes_table (ws : List WakeSrc) (s : State) : KeptOrReset s (lateWakes ws s) := by
  simp only [lateWakes]
  split <;> simp

theorem enterLowPower_table (t : PowerState) (ms : Nat) (s : State) : KeptOrReset s (enterLowPower t ms s) :=
  KeptOrReset.trans (KeptOrReset.trans (by simp) (asleep_table t ms _)) (lateWakes_table s.pwr.wakes _)

@[simp] theorem execLowPowerEntry_tableNext (s : State) : TableNext s (execLowPowerEntry s) := by
  unfold execLowPowerEntry
  (repeat' split)
  · simp
  · exact tableNext_next.2 (enterLowPower_table _ _ s)
  · simp

theorem wakeBy_table {w : WakeSrc} {awake : State → State} {s : State} (h : ∀ s, (awake s).pt = s.pt) :
    KeptOrReset s (wakeBy w awake s) := by
  fun_cases wakeBy <;> simp +zetaDelta [h]

theorem wakeLevel_table (high : Bool) (s : State) : KeptOrReset s (wakeLevel high s) := by
  simp only [wakeLevel]
  (repeat' split)
  · simp
  · exact KeptOrReset.trans (by simp) (wakeBy_table (by simp))
  · simp
@[simp] theorem rngWake_pt (s : State) : (rngWake s).pt = s.pt := (rfl)
@[simp] theorem chainWake_pt (c : Chain) (s : State) : (chainWake c s).pt = s.pt := by simp [chainWake]
@[simp] theorem wakeUp_pt (s : State) : (wakeUp s).pt = s.pt := by simp [wakeUp]

/-! ## The parts of one µs of service -/

@[simp] theorem powerCycle_pt (s : State) : (powerCycle s).pt = s.pt := (rfl)
@[simp] theorem fencedGrant_pt (c : Chain) (s : State) : (fencedGrant c s).pt = s.pt := by simp [fencedGrant]

@[simp] theorem fencedRead_pt (s : State) : (fencedRead s).pt = s.pt := by
  unfold fencedRead
  split <;> simp

@[simp] theorem loopTick_pt (s : State) : (loopTick s).pt = s.pt := by simp [loopTick]
@[simp] theorem hfOnTick_pt (s : State) : (hfOnTick s).pt = s.pt := by simp [hfOnTick]
@[simp] theorem uhfOnTick_pt (s : State) : (uhfOnTick s).pt = s.pt := by simp [uhfOnTick]
@[simp] theorem peerLight_pt (s : State) : (peerLight s).pt = s.pt := by simp [peerLight]

@[simp] theorem senseTick_pt (s : State) : (senseTick s).pt = s.pt := by
  fun_cases senseTick
  case case2 => exact withWaiting_pt (fun s => by simp [peerSensed]) _ _ _
  all_goals rfl

@[simp] theorem answerTick_pt (s : State) : (answerTick s).pt = s.pt := by
  fun_cases answerTick
  case case2 => exact withWaiting_pt (fun s => by simp [answerLight]) _ _ _
  all_goals rfl

@[simp] theorem senseEnd_pt (s : State) : (senseEnd s).pt = s.pt := by simp [senseEnd]
@[simp] theorem hfSenseTick_pt (s : State) : (hfSenseTick s).pt = s.pt := by fun_cases hfSenseTick <;> simp
@[simp] theorem tuneTick_pt (s : State) : (tuneTick s).pt = s.pt := by fun_cases tuneTick <;> simp
@[simp] theorem valuesTick_pt (s : State) : (valuesTick s).pt = s.pt := by simp [valuesTick]
@[simp] theorem calTick_pt (s : State) : (calTick s).pt = s.pt := by fun_cases calTick <;> simp
@[simp] theorem uhfChangeTick_pt (s : State) : (uhfChangeTick s).pt = s.pt := by simp [uhfChangeTick]

/-! ## What a unit finds again after its fence -/

@[simp] theorem slotFromLog_pt (s : State) (k : Nat) : (slotFromLog s k).pt = s.pt := by simp [slotFromLog]

@[simp] theorem scanSlot_pt (s : State) (k : Nat) : (scanSlot s k).pt = s.pt := by
  simp only [scanSlot]
  (repeat' split) <;> simp

@[simp] theorem scanKeys_pt (s : State) : (scanKeys s).pt = s.pt := by simp [scanKeys, resumeKeyErase]
@[simp] theorem rngStart_pt (s : State) : (rngStart s).pt = s.pt := by simp [rngStart]
@[simp] theorem chainBack_pt (c : Chain) (s : State) : (chainBack c s).pt = s.pt := by cases c <;> simp [chainBack]

@[simp] theorem unitBack_pt (u : Nat) (s : State) : (unitBack u s).pt = s.pt := by
  unfold unitBack
  split <;> simp [keysBack, icCleared]

@[simp] theorem unfenceUnit_pt (u : Nat) (s : State) : (unfenceUnit u s).pt = s.pt := by simp [unfenceUnit, unmark]

@[simp] theorem unfenceOne_pt (failing : List Nat) (rl : Nat) (u : Nat) (s : State) :
    (unfenceOne failing rl s u).pt = s.pt := by simp [unfenceOne, unfenceFailed]

@[simp] theorem testEnd_pt (op : TestOp) (s : State) : (testEnd op s).pt = s.pt := by
  unfold testEnd
  split <;> simp [testRead]

@[simp] theorem testTick_pt (s : State) : (testTick s).pt = s.pt := by
  unfold testTick
  split <;> simp

theorem runTick_table (s : State) : KeptOrReset s (runTick s) :=
  KeptOrReset.trans (KeptOrReset.trans (by simp) (xoReset_table (powerCycle (s.onTime (· + 1))))) (by simp [runTick])

/-! ## The steps of start-up -/

@[simp] theorem limitField_pt (id : Nat) (s : State) : (limitField id s).2.pt = s.pt := by
  unfold limitField
  (repeat' split) <;> simp

@[simp] theorem startCharter_pt (s : State) : (startCharter s).2.pt = s.pt := by
  unfold startCharter
  (repeat' split) <;> simp

@[simp] theorem bankFallback_pt (bank used : Nat) (s : State) : (bankFallback bank used s).pt = s.pt := by
  simp [bankFallback]

@[simp] theorem startCal_pt (s : State) : (startCal s).pt = s.pt := by
  simp only [startCal]
  (repeat' split) <;> simp

@[simp] theorem startKeys_pt (s : State) : (startKeys s).pt = s.pt := by simp [startKeys]
@[simp] theorem startRng_pt (env : StartEnv) (s : State) : (startRng env s).pt = s.pt := by simp [startRng]
@[simp] theorem stormFence_pt (s : State) : (stormFence s).pt = s.pt := by simp [stormFence]
@[simp] theorem selfTests_pt (env : StartEnv) (s : State) : (selfTests env s).pt = s.pt := by simp [selfTests, fenceNew]

@[simp] theorem startDefaults_pt (s : State) : (startDefaults s).2.pt = s.pt := by
  unfold startDefaults
  split <;> simp

@[simp] theorem bootStage_pt (b : BootRun) (s : State) : (bootStage b s).2.pt = s.pt := by
  unfold bootStage
  split <;> simp [seedHop, startUnits]

/-! ## BOOT_DONE -/

@[simp] theorem startRecord_pt (pay : Nat) (s : State) : (startRecord pay s).pt = s.pt := by simp [startRecord]
@[simp] theorem reportClocks_pt (s : State) : (reportClocks s).pt = s.pt := by simp [reportClocks]

@[simp] theorem reportWatchdog_pt (s : State) : (reportWatchdog s).pt = s.pt := by
  unfold reportWatchdog
  split <;> simp [reportFull]

@[simp] theorem reportHeld_pt (held : List Nat) (s : State) : (reportHeld held s).pt = s.pt := by simp [reportHeld]
@[simp] theorem clampEvents_pt (ids : List Nat) (s : State) : (clampEvents ids s).pt = s.pt := by simp [clampEvents]

@[simp] theorem bootDone_pt (held clamps : List Nat) (s : State) : (bootDone held clamps s).pt = s.pt := by
  simp [bootDone]

@[simp] theorem bootStep_pt (s : State) : (bootStep s).pt = s.pt := by fun_cases bootStep <;> simp +zetaDelta

/-! ## Every row -/

@[simp] theorem execPowerGoodLoss_tableNext (s : State) : TableNext s (execPowerGoodLoss s) := by
  simp only [execPowerGoodLoss, tableNext_next]
  split <;> simp

@[simp] theorem execPinReset_tableNext (lowNs : Nat) (s : State) : TableNext s (execPinReset lowNs s) := by
  simp only [execPinReset, tableNext_next]
  (repeat' split) <;> simp

@[simp] theorem execUvloFall_tableNext (s : State) : TableNext s (execUvloFall s) := by simp [execUvloFall]

@[simp] theorem execWatchdogReset_tableNext (origin reason : Nat) (s : State) :
    TableNext s (execWatchdogReset origin reason s) := by
  simp only [execWatchdogReset, tableNext_next]
  (repeat' split) <;> simp

@[simp] theorem execBasinScrub_tableNext (addr bits : Nat) (s : State) : TableNext s (execBasinScrub addr bits s) := by
  simp only [execBasinScrub, tableNext_next]
  (repeat' split)
  · simp
  · simp
  · exact doubleError_table _ s

@[simp] theorem execClockMonitorWindow_tableNext (counts : List (Clock × Nat)) (s : State) :
    TableNext s (execClockMonitorWindow counts s) := by
  simp only [execClockMonitorWindow, tableNext_next]
  split
  · simp
  · exact KeptOrReset.trans (by simp) (clockLosses_table _ _)

@[simp] theorem execWakeAsserted_tableNext (high : Bool) (s : State) : TableNext s (execWakeAsserted s high) :=
  tableNext_next.2 (wakeLevel_table high s)

@[simp] theorem execWakeReleased_tableNext (high : Bool) (s : State) : TableNext s (execWakeReleased s high) :=
  tableNext_next.2 (wakeLevel_table high s)

@[simp] theorem execFdetAsserted_tableNext (s : State) : TableNext s (execFdetAsserted s) := by
  simp only [execFdetAsserted, tableNext_next]
  split
  · simp
  · exact KeptOrReset.trans (by simp) (wakeBy_table (by simp))

@[simp] theorem execWakeTimerExpiry_tableNext (s : State) : TableNext s (execWakeTimerExpiry s) := by
  simp only [execWakeTimerExpiry, tableNext_next]
  split
  · exact KeptOrReset.trans (by simp) (wakeBy_table (by simp))
  · simp

@[simp] theorem execRetainPortWake_tableNext (s : State) : TableNext s (execRetainPortWake s) := by
  simp only [execRetainPortWake, tableNext_next]
  split
  · exact wakeBy_table (by simp)
  · simp

/-- A row that runs on a packet just admitted leaves the table wherever its body is not reached. -/
theorem onFresh_cases (l : LaneId) (op : Nat) (f : Exec → State → State) (s : State) :
    (onFresh l op f s).pt = s.pt ∨ ∃ e, onFresh l op f s = f e s := by
  unfold onFresh
  split
  · exact .inl rfl
  split
  · exact .inl (by simp)
  split
  · exact .inl (by simp)
  · exact .inr ⟨_, rfl⟩

@[simp] theorem execStageProtection_tableNext (s : State) : TableNext s (execStageProtection s) := by
  refine tableNext_next.2 ?_
  obtain hpt | ⟨e, he⟩ := onFresh_cases .house 0x0100 stageProtection s
  · exact .inl (by rw [hpt])
  · exact .inl (by rw [he, stageProtection_active])

theorem execLockCycle_table {s t : State} (h : execLockCycle s = .next t) :
    t.pt.active = s.pt.active ∨ ActivatesStaging s t := by
  obtain rfl : onFresh .house 0x0101 lockCycle s = t := Host.Outcome.next.inj h
  obtain hpt | ⟨e, he⟩ := onFresh_cases .house 0x0101 lockCycle s
  · exact .inl (by rw [hpt])
  · rw [he]
    exact lockCycle_active e s

/-- No check reads the state of the cycles themselves. -/
@[simp] theorem lockCheck_onLock (f : LockSt → LockSt) (s : State) (check : Bool) (expected : Nat) :
    lockCheck (s.onLock f) check expected = lockCheck s check expected := (rfl)

theorem execLockCycleDeferredStart_table {s t : State} (h : execLockCycleDeferredStart s = .next t) :
    t.pt.active = s.pt.active ∨ ActivatesStaging s t := by
  unfold execLockCycleDeferredStart at h
  obtain rfl := Host.Outcome.next.inj h
  split
  · exact .inl rfl
  next f fs _ =>
    (repeat' split)
    · exact .inl rfl
    · exact .inl (by simp)
    · simpa [ActivatesStaging] using lockRun_active f.pkt (s.onLock fun k => { k with waiting := fs })

/-- Every other row keeps the active table or resets it: a row with cases of its own by its rule above, and each of the
rest is one call of a shared operation. -/
theorem exec_tableNext {c : Instr} (hlock : c ≠ .lockCycle) (hdeferred : c ≠ .lockCycleDeferredStart) (s : State) :
    TableNext s (exec c s) := by
  unfold exec
  cases c
  case lockCycle => exact absurd rfl hlock
  case lockCycleDeferredStart => exact absurd rfl hdeferred
  all_goals simp [
    execHfPoll, execHfActivate, execHfTransceive, execHf15693Exchange, execHfIsodepExchange, execHfDeselect,
    execHfRxFrame, execLeaseGrant, execLeaseAcquire, execLeaseRelease, execPreemptLease, execLeaseHoldExpiry,
    execHfField, execHfPllLocked, execHfPllUnlock, execDriverCurrentLimit, execPowerLoopLimit,
    execMismatchMeasurement, execHfTune, execHfLpcdArm, execLpcdMeasurement, execUhfCarrier, execUhfSetChannel,
    execSynthUnlock, execSynthLocked, execSynthRecal, execDwellSoftPoint, execRestEnd, execChannelAvailable,
    execLbtBackoffEnd, execRlMeasurement, execHardReflection, execPaCurrentLimit, execUhfSelect, execUhfInventory,
    execUhfAccess, execUhfRxFrame, execHop, execDwellLimit, execSpectrumCheck, execCaptureSamples,
    execCaptureTriggered, execNop, execGetInfo, execGetStatus, execGetFences, execLeaseQuery, execSetConfig,
    execGetConfig, execSetWeights, execReadCounters, execGetLog, execCharterRead,
    execCharterWrite, execCharterSeal, execCharterBreak, execCalStore, execCalLoad, execCalStatus,
    execTowpathConfig, execKeyStage, execKeyCommit, execKeyQuery, execKeyDestroy, execCipherAes, execCipherCmac,
    execCoalesceTimeout, execArbitration, execDelivery, execReservedAccess, execPortResetSequence, execPortReset,
    execPaCfgWrite, execPortErrRead, execTimeLoRead, execCmdProdWrite, execRplConsWrite, execEvtConsWrite,
    execRegisterWrite, execRecStage, execRecVerify, execRecActivate, execIcDoorbellWrite, execSetclrSetPending,
    execSetclrClearPending, execSetclrSetMask, execSetclrClearMask, execIcPendWrite, execIcMaskWrite,
    execIcSrcWrite, execIcSyncRead, execIcStatusRead, execIcEvtdropRead, execIcClaimRead, execIcEoiWrite,
    execIcTstatRead, execRngDataRead, execRngStatRead, execFwStageBlock, execFwVerify, execFwActivate,
    execFwConfirmRetry, execEmuConfigure, execEmuArm, execEmuWtxTimer, execEmuRespond, execEmuDisarm, execPeerStart,
    execPeerExchange, execPeerRoleSwap, execPeerStop, execRngBlockDone, execRngRead, execReseed, execRngKat,
    execRngRestart, execResetTenant, execCrystalStartTimeout, execWatchdogWarning, execStormCountClear,
    execFenceEntry, execUnfence, execGpioSet, execGpioEdge, execVpaFault, execHoldupUpdate, execCholdMeasured,
    execThermalSample, execThermalReadingTimeout, execAonCrystalSelect, execHfDriverClockStop,
    execSpreadTurningPoint, execVioPresent, execVioAbsent, execSamPower, execSamExchange, execSamLease,
    execSamCardDetect, execSamCurrentLimitActive, execSetPowerState, execFdetReleased, execLowPowerWake,
    execDeadlineExpiry, execProtectionWithdrawal]

/-- All that a row can do to the active table. -/
theorem exec_table_cases {c : Instr} {s t : State} (h : exec c s = .next t) :
    KeptOrReset s t ∨ ActivatesStaging s t := by
  by_cases hlock : c = .lockCycle
  · subst hlock
    exact (execLockCycle_table h).imp_left .inl
  by_cases hdeferred : c = .lockCycleDeferredStart
  · subst hdeferred
    exact (execLockCycleDeferredStart_table h).imp_left .inl
  exact .inl (exec_tableNext hlock hdeferred s t h)

theorem tick_table (s : State) : KeptOrReset s (tick s) := by
  unfold tick
  split
  · exact runTick_table s
  all_goals simp

/-! ## The checks of a lock cycle (R231) -/

/-- A check over tenants and words finds nothing where none of them fails. -/
theorem firstWord_eq_none {fails : Nat → Nat → Bool} {ns ks : List Nat} :
    firstWord fails ns ks = none ↔ ∀ n ∈ ns, ∀ k ∈ ks, fails n k = false := by
  unfold firstWord
  split
  next found hfound =>
    obtain ⟨off, rfl⟩ := Option.isSome_iff_exists.1 (List.find?_some hfound)
    obtain ⟨n, hn, hoff⟩ := List.mem_map.1 (List.mem_of_find?_eq_some hfound)
    obtain ⟨k, hk, -⟩ := Option.map_eq_some_iff.1 hoff
    simp only [reduceCtorEq, false_iff]
    exact fun h => by simpa [h n hn k (List.mem_of_find?_eq_some hk)] using List.find?_some hk
  next hnone => simpa using hnone

/-- Where no entry with a finding is found, none has one. -/
theorem findings_eq_none {tests : List (Nat × Option Nat)}
    (h : ∀ c o, tests.find? (fun t => t.2.isSome) ≠ some (c, some o)) : ∀ t ∈ tests, t.2 = none := by
  have hnone : tests.find? (fun t => t.2.isSome) = none := by
    rcases hfind : tests.find? (fun t => t.2.isSome) with _ | ⟨c, _ | o⟩
    · exact hfind
    · simpa using List.find?_some hfind
    · exact absurd hfind (h c o)
  simpa [List.find?_eq_none] using hnone

/-- Where no check fails, those of the Keeper's ports and of shared pages do not. -/
theorem of_lockCheck_eq_none {s : State} {check : Bool} {expected : Nat} (h : lockCheck s check expected = none) :
    bits (teWord s.pt.staging 0 0) 2 1 ≠ 0 ∧ ∀ n ∈ tenants8, poundShared s.pt.active s.pt.staging n = false := by
  unfold lockCheck at h
  extract_lets act stg differs tests at h
  split at h
  · exact nomatch h
  next hnone =>
    have hport := findings_eq_none hnone (1, _) (List.mem_cons_self ..)
    have hshared := findings_eq_none hnone (4, firstWord (fun n _ => poundShared act stg n) tenants8 [1])
      (by simp [tests])
    exact ⟨by simpa using hport, fun n hn => firstWord_eq_none.1 hshared n hn 1 (by simp)⟩

/-- The code of a failing check is one of R231's. -/
theorem code_of_lockCheck {s : State} {check : Bool} {expected code off : Nat}
    (h : lockCheck s check expected = some (code, off)) : 1 ≤ code ∧ code ≤ 11 := by
  unfold lockCheck at h
  extract_lets act stg differs tests at h
  split at h
  next hfound =>
    obtain ⟨rfl, rfl⟩ := h
    have hcode : code ∈ tests.map Prod.fst := List.mem_map_of_mem (List.mem_of_find?_eq_some hfound)
    simp only [tests, List.map_cons, List.map_nil, List.mem_cons, List.not_mem_nil, or_false] at hcode
    omega
  · exact nomatch h

/-! ## The table that a passed cycle makes active -/

/-- Two tenants' pounds have no page in common, and the Keeper's row is that of a reachable Keeper. -/
def TableSafe (t : List Word) : Prop :=
  (∀ n ∈ tenants8, ∀ m ∈ tenants8, n ≠ m → pagesMeet (placeOf t n) (placeOf t m) = false) ∧
    teWord t 0 0 &&& 0xFF01 = 0xFF01 ∧ bits (teWord t 0 0) 2 1 ≠ 0

theorem tableSafe_iff {s : State} :
    TableSafe s.pt.active ↔ s.poundsApart = true ∧ s.keeperReachable = true := by
  simp [TableSafe, State.poundsApart, State.keeperReachable, or_iff_not_imp_left]

/-- ENABLE and the permissions, which `activated` sets, are not the port bits. -/
theorem bits_or_keeper (v : Nat) : bits (v ||| 0xFF01) 2 1 = bits v 2 1 := by
  simp only [bits]
  rw [← Nat.shiftRight_eq_div_pow, ← Nat.shiftRight_eq_div_pow, Nat.shiftRight_or_distrib]
  exact Nat.or_mod_two_pow.trans (by simp)

theorem or_and_keeper (v : Nat) : (v ||| 0xFF01) &&& 0xFF01 = 0xFF01 := by
  refine Nat.eq_of_testBit_eq fun i => ?_
  rw [Nat.testBit_and, Nat.testBit_or]
  cases v.testBit i <;> simp

theorem nth_activated (stg : List Word) (i : Nat) : nth (activated stg) (i + 1) 0 = nth stg (i + 1) 0 := by
  simp [activated, nth, modAt]

/-- The Keeper's word 0 places nothing. -/
theorem placeOf_activated (stg : List Word) (n : Nat) : placeOf (activated stg) n = placeOf stg n := by
  have hword : ∀ k, ptWord (activated stg) (0x40 + 0x20 * n + 4 * (k + 1)) =
      ptWord stg (0x40 + 0x20 * n + 4 * (k + 1)) := fun k => by
    have hindex : (0x40 + 0x20 * n + 4 * (k + 1) - 0x40) / 4 = (8 * n + k) + 1 := by omega
    rw [ptWord, ptWord, hindex, nth_activated]
  simp only [placeOf, hword 0, hword 1, hword 2, hword 3, hword 4, hword 5, hword 6]

theorem teWord_activated {stg : List Word} (h : teWord stg 0 0 ≠ 0) :
    teWord (activated stg) 0 0 = teWord stg 0 0 ||| 0xFF01 := by
  cases stg with
  | nil => exact absurd rfl h
  | cons w ws => simp [teWord, teOff, ptWord, activated, modAt, nth]

theorem tableSafe_of_activatesStaging {s t : State} (h : ActivatesStaging s t) : TableSafe t.pt.active := by
  obtain ⟨check, expected, hpass, hactive⟩ := h
  obtain ⟨hport, hshared⟩ := of_lockCheck_eq_none hpass
  have hword := teWord_activated (stg := s.pt.staging) fun h0 => hport (by rw [h0]; rfl)
  refine hactive ▸ ⟨fun n hn m hm hne => ?_, ?_, ?_⟩
  · have hpair := List.any_eq_false.1 (hshared n hn) m hm
    simp only [placeOf_activated]
    simp [hne.symm] at hpair
    exact hpair.1
  · rw [hword, or_and_keeper]
  · rwa [hword, bits_or_keeper]

theorem tableSafe_ptReset : TableSafe ptReset := by
  rw [← reset_active]
  exact tableSafe_iff.2 resetHasInvariants.2

theorem tableSafe_of_keptOrReset {s t : State} (hs : TableSafe s.pt.active) (h : KeptOrReset s t) :
    TableSafe t.pt.active := by
  obtain h | h := h
  · exact h ▸ hs
  · exact h ▸ tableSafe_ptReset

/-! ## The statement -/

/-- Settles O5: a step on an empty queue is a tick, which keeps the active table or resets it; a row may besides
activate a staging copy that has passed the checks. -/
theorem stepKeepsPoundsApart : Obligations.StepKeepsPoundsApart := by
  unfold Obligations.StepKeepsPoundsApart
  intro s t hapart hkeeper ht
  have hs : TableSafe s.pt.active := tableSafe_iff.2 ⟨hapart, hkeeper⟩
  refine tableSafe_iff.1 ?_
  cases hp : s.pending with
  | nil =>
    rw [step_of_empty hp] at ht
    exact tableSafe_of_keptOrReset hs (Host.Outcome.next.inj ht ▸ tick_table s)
  | cons c cs =>
    simp only [step, hp] at ht
    obtain hkept | hactivates := exec_table_cases ht
    · exact tableSafe_of_keptOrReset hs hkept
    · exact tableSafe_of_activatesStaging hactivates

end Sys2Proof.Machine

/-! # The protection table's cycle, withdrawals and leases

What a grant and a revocation leave in the lease, the table after a reset, the lock cycle, the reset of a tenant and the
life of a lease: one rule for each function in each of its cases, and then the statement. -/

namespace Sys2Proof.Machine

open Sys2Proof

/-! ## What leaves both leases as they are -/

@[simp] theorem replyWith_leases (p : Packet) (start : Nat) (tow susp : Bool) (clamps : List Clamp) (status0 : Nat)
    (body : List Byte) (own : Option Nat) (s : State) :
    (replyWith p start tow susp clamps status0 body own s).hfLease = s.hfLease ∧
      (replyWith p start tow susp clamps status0 body own s).uhfLease = s.uhfLease := by
  simp only [replyWith]
  constructor <;> (repeat' split) <;> simp

@[simp] theorem replyExec_leases (e : Exec) (status : Nat) (body : List Byte) (own : Option Nat) (s : State) :
    (replyExec e status body own s).hfLease = s.hfLease ∧ (replyExec e status body own s).uhfLease = s.uhfLease :=
  replyWith_leases _ _ _ _ _ _ _ _ s

@[simp] theorem cutCapture_leases (c : Chain) (s : State) :
    (cutCapture c s).hfLease = s.hfLease ∧ (cutCapture c s).uhfLease = s.uhfLease := by
  cases c <;> simp [cutCapture]

@[simp] theorem hfIdle_leases (s : State) : (hfIdle s).hfLease = s.hfLease ∧ (hfIdle s).uhfLease = s.uhfLease := by
  unfold hfIdle
  split <;> simp

@[simp] theorem emuOff_leases (cause : Nat) (s : State) :
    (emuOff cause s).hfLease = s.hfLease ∧ (emuOff cause s).uhfLease = s.uhfLease := by
  unfold emuOff
  split <;> simp

@[simp] theorem peerOff_leases (s : State) : (peerOff s).hfLease = s.hfLease ∧ (peerOff s).uhfLease = s.uhfLease := by
  unfold peerOff
  dsimp only
  split <;> simp

@[simp] theorem peerLeave_leases (s : State) :
    (peerLeave s).hfLease = s.hfLease ∧ (peerLeave s).uhfLease = s.uhfLease := by
  unfold peerLeave
  split <;> simp

@[simp] theorem addDue_leases (c : Chain) (ks : List StepKind) (s : State) :
    (addDue c ks s).hfLease = s.hfLease ∧ (addDue c ks s).uhfLease = s.uhfLease := by simp [addDue]

@[simp] theorem setCodes_leases (cs cp : Nat) (s : State) :
    (setCodes cs cp s).hfLease = s.hfLease ∧ (setCodes cs cp s).uhfLease = s.uhfLease := by
  simp only [setCodes]
  constructor <;> split <;> simp

@[simp] theorem putCodes_leases (cs cp : Nat) (s : State) :
    (putCodes cs cp s).hfLease = s.hfLease ∧ (putCodes cs cp s).uhfLease = s.uhfLease := by
  unfold putCodes
  split <;> simp

@[simp] theorem abandonRetune_leases (s : State) :
    (abandonRetune s).hfLease = s.hfLease ∧ (abandonRetune s).uhfLease = s.uhfLease := by
  unfold abandonRetune
  split <;> simp

@[simp] theorem undoTuner_leases (s : State) :
    (undoTuner s).hfLease = s.hfLease ∧ (undoTuner s).uhfLease = s.uhfLease := by
  unfold undoTuner
  split <;> simp

@[simp] theorem towStop_leases (c : Chain) (s : State) :
    (towStop c s).hfLease = s.hfLease ∧ (towStop c s).uhfLease = s.uhfLease := by
  simp only [towStop]
  constructor <;> split <;> simp

@[simp] theorem hfFall_leases (cause : Nat) (s : State) :
    (hfFall cause s).hfLease = s.hfLease ∧ (hfFall cause s).uhfLease = s.uhfLease := by
  unfold hfFall
  split <;> simp

@[simp] theorem uhfFall_leases (why : FallFor) (s : State) :
    (uhfFall why s).hfLease = s.hfLease ∧ (uhfFall why s).uhfLease = s.uhfLease := by
  fun_cases uhfFall <;> simp +zetaDelta [giveUpRise, setUhfGrant]

@[simp] theorem chainUsersOff_leases (c : Chain) (s : State) :
    (chainUsersOff c s).hfLease = s.hfLease ∧ (chainUsersOff c s).uhfLease = s.uhfLease := by
  cases c <;> simp [chainUsersOff]

@[simp] theorem settleRadio_leases (c : Chain) (s : State) :
    (settleRadio c s).hfLease = s.hfLease ∧ (settleRadio c s).uhfLease = s.uhfLease := by
  have harm : (armClocks c s).hfLease = s.hfLease ∧ (armClocks c s).uhfLease = s.uhfLease := by
    unfold armClocks
    split <;> simp
  cases c <;> simp only [settleRadio] <;> split <;> simpa using harm

theorem leaseOf_congr {s t : State} (h : t.hfLease = s.hfLease ∧ t.uhfLease = s.uhfLease) (c : Chain) :
    leaseOf t c = leaseOf s c := by
  obtain ⟨hhf, huhf⟩ := h
  cases c
  · exact hhf
  · exact huhf

/-! ## A grant and a revocation (R245, R259, R260) -/

/-- The source of a grant. -/
def grantSource : Chain → Nat
  | .hf => 24
  | .uhf => 55

/-- The state after a grant, before the waiting packet is answered. -/
def granted (c : Chain) (w : Waiter) (s : State) : State :=
  let l := leaseOf s c
  settleRadio c (raise (grantSource c) (w.tenant + 8 * b2n l.afterReset + 16 * b2n l.live) (onLease c (fun l =>
    { l with
      holder := some w.tenant, handover := false, granting := none, grantAt := s.time, afterReset := false
      live := false, revoke := none, hold := cfg s (holdField c) }) s))

theorem grantTo_of_no_packet {c : Chain} {w : Waiter} {s : State} (hw : w.exec = none) :
    grantTo c w s = granted c w s := by
  unfold grantTo
  rw [hw]
  cases c <;> rfl

theorem grantTo_of_packet {c : Chain} {w : Waiter} {e : Exec} {s : State} (hw : w.exec = some e) :
    grantTo c w s = replyExec e 0
      (acquireBody (granted c w s) c (b2n (leaseOf s c).afterReset + 2 * b2n (leaseOf s c).live)) none
      (granted c w s) := by
  unfold grantTo
  rw [hw]
  cases c <;> rfl

theorem leaseOf_granted (c : Chain) (w : Waiter) (s : State) :
    leaseOf (granted c w s) c =
      { leaseOf s c with
        holder := some w.tenant, handover := false, granting := none, grantAt := s.time, afterReset := false
        live := false, revoke := none, hold := cfg s (holdField c) } := by
  have hwritten : ∀ (src pay : Nat) (u : State), leaseOf (settleRadio c (raise src pay u)) c = leaseOf u c :=
    fun src pay u => leaseOf_congr (by simp) c
  simp [granted, hwritten]

/-- The lease as a grant writes it, whatever answers the waiting packet. -/
theorem leaseOf_grantTo (c : Chain) (w : Waiter) (s : State) :
    leaseOf (grantTo c w s) c = leaseOf (granted c w s) c := by
  cases hw : w.exec with
  | none => rw [grantTo_of_no_packet hw]
  | some e => rw [grantTo_of_packet hw, leaseOf_congr (replyExec_leases ..)]

/-- A handover leaves the queue and takes the holder. -/
theorem leaseOf_startHandover (c : Chain) (afterReset : Bool) (s : State) :
    (leaseOf (startHandover c afterReset s) c).holder = none ∧
      (leaseOf (startHandover c afterReset s) c).handover = true ∧
      (leaseOf (startHandover c afterReset s) c).queue = (leaseOf s c).queue := by
  unfold startHandover
  simp only [leaseOf_onLease, ↓reduceIte, true_and]
  cases c <;> simp [leaseOf]

/-- The source of a revocation. -/
def revocationSource : Chain → Nat
  | .hf => 25
  | .uhf => 56

theorem revokeLease_of_holder {c : Chain} {s : State} {h : Nat} (r : Nat) (hh : (leaseOf s c).holder = some h) :
    revokeLease c r s = startHandover c (r == 3) (raise (revocationSource c) (h + 16 * r) s) := by
  unfold revokeLease
  rw [hh]
  cases c <;> rfl

/-- Settles O36: the lease as a grant writes it, the state that it answers in, and then the revocation, which is a
handover. -/
theorem grantAndRevocation : Obligations.GrantAndRevocation := by
  unfold Obligations.GrantAndRevocation
  intro c w e r h s
  rw [leaseOf_grantTo, leaseOf_granted]
  refine ⟨rfl, rfl, rfl, by cases c <;> rfl, ⟨fun hw => ?_, fun hw => ?_⟩, fun hh => ⟨?_, ?_⟩⟩
  · rw [grantTo_of_no_packet hw]
    cases c <;> rfl
  · rw [grantTo_of_packet hw]
    cases c <;> rfl
  · rw [revokeLease_of_holder r hh]
    cases c <;> rfl
  · obtain ⟨hholder, hhandover, hqueue⟩ :=
      leaseOf_startHandover c (r == 3) (raise (revocationSource c) (h + 16 * r) s)
    rw [revokeLease_of_holder r hh]
    exact ⟨hholder, hhandover, hqueue.trans (by rw [leaseOf_congr (s := s) (by simp)])⟩

/-! ## The table after a reset (R227) -/

/-- Settles O3: the words are those of `ptReset`, and each row that resets does so by a reset of `surroundings`. -/
theorem resetTable : Obligations.ResetTable := by
  unfold Obligations.ResetTable
  refine ⟨by decide, rfl, fun s n o r v => ⟨fun hoff hv => ?_, fun hoff hdeep => ?_, fun hoff hn => ?_,
    fun hrun hcause hhalf => ?_, fun high hdeep hlevel hactive => ?_, fun hat htime => ?_⟩⟩
  · exact ⟨_, exec_powerOnReset hv hoff, by simp⟩
  · exact ⟨_, exec_powerGoodLoss hoff hdeep, by simp⟩
  · exact ⟨_, exec_pinReset_long hoff hn, by simp⟩
  · exact ⟨_, exec_watchdogReset hrun hcause hhalf, by simp⟩
  · refine ⟨wakeLevel high s, rfl, ?_⟩
    rw [wakeLevel_active hlevel hactive, wakeBy_deepStandby (by simpa using hdeep), wakeReset_pt]
  · exact ⟨_, exec_fwActivationReset hat htime, by simp⟩

/-! ## STAGE_PROTECTION and LOCK_CYCLE (R228–R232, R256, R257, R286) -/

theorem exec_stageProtection {e : Exec} {s : State} (hready : Ready .house 0x0100 e s)
    (halign : Packet32 e.pkt 0 % 4 = 0) : exec .stageProtection s = .next (finish .house 0 [] none
      (s.onPt fun t => { t with staging := imageWords (poundRead s e.pkt.tenant (Packet32 e.pkt 0) 512) })) := by
  change Host.Outcome.next (onFresh .house 0x0100 stageProtection s) = _
  rw [onFresh_of_ready _ hready]
  exact congrArg _ (if_neg (not_not.2 halign))

theorem exec_lockCycle {e : Exec} {s : State} (hready : Ready .house 0x0101 e s) :
    exec .lockCycle s = .next (lockCycle e s) :=
  congrArg _ (onFresh_of_ready _ hready)

/-- With no earlier cycle under way, a cycle runs at once. -/
theorem lockCycle_of_idle {e : Exec} {s : State} (hidle : lockBusy s = false) : lockCycle e s =
    finish .house (lockRun e.pkt s).1 (lockRun e.pkt s).2.1 none (lockRun e.pkt s).2.2 := by
  rw [lockCycle, hidle]
  rfl

/-- Behind an earlier cycle it waits (R230). -/
theorem lockCycle_of_busy {e : Exec} {s : State} (hbusy : lockBusy s = true) : lockCycle e s =
    (leaveLane .house s).onLock fun k => { k with waiting := k.waiting ++ [{ e with phase := .lockWait }] } :=
  if_pos hbusy

/-- A cycle that passes its checks: the swap, the answers of step 4, the withdrawals of step 5 and the end that it
keeps as a moment (log 44). -/
theorem lockRun_of_pass {p : Packet} {s : State} (hpass : lockCheck s (bit (Packet8 p 0) 0) (Packet32 p 4) = none) :
    lockRun p s =
      let r := recheck (swapTable s)
      let u := startWithdrawal s.pt.active r.2
      (0, lockBody 0 r.1 0 u.pt.gen.toNat, u.onLock fun k => { k with until_ := lockEnd s true }) := by
  unfold lockRun
  rw [hpass]

theorem lockRun_of_fail {p : Packet} {s : State} {code off : Nat}
    (hfail : lockCheck s (bit (Packet8 p 0) 0) (Packet32 p 4) = some (code, off)) : lockRun p s =
      (0x23, lockBody code 0 off s.pt.gen.toNat, s.onLock fun k => { k with until_ := lockEnd s false }) := by
  unfold lockRun
  rw [hfail]

/-- The first of the waiting cycles, once the one before it has ended. -/
theorem exec_lockCycleDeferredStart {f : Exec} {fs : List Exec} {s : State} (hwaiting : s.lock.waiting = f :: fs)
    (hover : s.lock.until_ ≤ s.time) : exec .lockCycleDeferredStart s =
      let u := s.onLock fun k => { k with waiting := fs }
      .next (if expired s f.pkt then replyExec f 0x15 [] none u
        else replyExec f (lockRun f.pkt u).1 (lockRun f.pkt u).2.1 none (lockRun f.pkt u).2.2) := by
  change execLockCycleDeferredStart s = _
  unfold execLockCycleDeferredStart
  rw [hwaiting]
  exact congrArg _ (if_neg (not_lt.2 hover))

/-- Settles O33: STAGE_PROTECTION, the cycle that passes, that waits and that has waited, and the one that fails. That
the swap falls in the row itself is log 44's reading. -/
theorem protectionCycle : Obligations.ProtectionCycle := by
  unfold Obligations.ProtectionCycle
  refine ⟨fun e f fs s => ⟨exec_stageProtection, fun hready hidle hpass => ?_, fun hready hbusy => ?_,
    fun hwaiting hover => ⟨fun hlate => ?_, fun hlate => ?_⟩⟩, fun e code off s hready hidle hfail => ⟨?_, ?_⟩⟩
  · rw [exec_lockCycle hready, lockCycle_of_idle hidle, lockRun_of_pass hpass]
  · rw [exec_lockCycle hready, lockCycle_of_busy hbusy, leaveLane]
  · rw [exec_lockCycleDeferredStart hwaiting hover]
    simp only [hlate, Bool.false_eq_true, ↓reduceIte]
  · rw [exec_lockCycleDeferredStart hwaiting hover]
    simp only [hlate, ↓reduceIte]
  · rw [exec_lockCycle hready, lockCycle_of_idle hidle, lockRun_of_fail hfail]
  · exact code_of_lockCheck hfail

/-! ## Withdrawals and RESET_TENANT (R233, R235–R239, R258, R822) -/

/-- One withdrawal whose packets have ended takes place, and none is left (log 187). -/
theorem exec_protectionWithdrawal {w : Nat × Option Chain} {s : State} (hone : s.withdrawn = [w])
    (hready : withdrawalReady s w = true) : exec .protectionWithdrawal s = .next (samWithdraw 1 (samWithdraw 0
      (preemptDone .uhf (preemptDone .hf (withdraw w (s.onWithdrawn fun _ => [])))))) := by
  have hleft : (s.onWithdrawn fun ws => ws.filter fun w => !withdrawalReady s w) = s.onWithdrawn fun _ => [] := by
    simp [State.onWithdrawn, hone, hready]
  change execProtectionWithdrawal s = _
  simp [execProtectionWithdrawal, hleft, hone, hready]

theorem exec_resetTenant {e : Exec} {s : State} (hready : Ready .house 0x0102 e s) :
    exec .resetTenant s = .next (resetTenant e s) :=
  congrArg _ (onFresh_of_ready _ hready)

/-- A tenant with nothing outstanding, or one that is being reset, is answered at once (R239). -/
theorem resetTenant_of_idle {e : Exec} {s : State} (hn : Packet8 e.pkt 0 < 8)
    (hidle : resetIdle s (Packet8 e.pkt 0) = true) :
    resetTenant e s = finish .house 0 (resetBody 0 false false) none s := by
  simp only [resetTenant]
  rw [if_neg (by omega), if_pos hidle]

/-- The Keeper's own reset waits for its ring; any other is answered at once (R258). -/
theorem resetTenant_of_outstanding {e : Exec} {s : State} (hn : Packet8 e.pkt 0 < 8)
    (hidle : resetIdle s (Packet8 e.pkt 0) = false) :
    resetTenant e s =
      let n := Packet8 e.pkt 0
      let body := resetBody (discardCount n e.pkt.id s) (s.hfLease.holder == some n) (s.uhfLease.holder == some n)
      let u := tenantReset n (fun x => x.pkt.tenant == n && x.pkt.id != e.pkt.id) s
      if n = 0 ∧ inRing u 0 ≠ 0 then onExec .house (fun x => { x with phase := .resetWait, partialBody := body }) u
      else finish .house 0 body none u := by
  simp only [resetTenant]
  rw [if_neg (by omega), if_neg (by simp [hidle])]

/-- Settles O34: the withdrawal, and the reset of a tenant with something outstanding and of one without. -/
theorem withdrawalAndReset : Obligations.WithdrawalAndReset := by
  unfold Obligations.WithdrawalAndReset
  refine fun w e s => ⟨exec_protectionWithdrawal, fun hready hn hidle => ?_, fun hready hn hidle => ?_⟩
  · rw [exec_resetTenant hready, resetTenant_of_outstanding hn hidle]
    exact ⟨fun hdone => congrArg _ (if_neg fun ⟨h0, hring⟩ => hdone.elim (· h0) hring),
      fun h0 hring => congrArg _ (if_pos ⟨h0, hring⟩)⟩
  · rw [exec_resetTenant hready, resetTenant_of_idle hn hidle]

/-! ## LEASE_ACQUIRE (R243, R246, R250, R260) -/

theorem chainOf_chainIndex (c : Chain) : chainOf (chainIndex c) = c := by cases c <;> rfl
theorem chainIndex_le (c : Chain) : chainIndex c ≤ 1 := by cases c <;> decide

theorem exec_leaseAcquire {e : Exec} {s : State} (hready : Ready .house 0x0200 e s) :
    exec .leaseAcquire s = .next (acquire e s) :=
  congrArg _ (onFresh_of_ready _ hready)

/-- A holder that asks again, with NO_WAIT or without, is told that it has the lease (log 215). -/
theorem acquire_of_holder {e : Exec} {s : State} (hc : Packet8 e.pkt 0 < 2)
    (hholder : (leaseOf s (chainOf (Packet8 e.pkt 0))).holder = some e.pkt.tenant) :
    acquire e s = finish .house 0 (acquireBody s (chainOf (Packet8 e.pkt 0)) 4) none s := by
  simp only [acquire]
  rw [if_neg (by omega), if_pos hholder]

/-- A tenant that neither holds the lease nor waits for it. -/
theorem acquire_of_newcomer {e : Exec} {s : State} (hc : Packet8 e.pkt 0 < 2)
    (hholder : (leaseOf s (chainOf (Packet8 e.pkt 0))).holder ≠ some e.pkt.tenant)
    (hwaiter : waiterOf (leaseOf s (chainOf (Packet8 e.pkt 0))) e.pkt.tenant = none) :
    acquire e s =
      let c := chainOf (Packet8 e.pkt 0)
      if leaseFree s c then startGrant c ⟨e.pkt.tenant, some e⟩ (leaveLane .house s)
      else if bit (Packet8 e.pkt 1) 0 then finish .house 0x14 [] none s
      else onLease c (fun l => { l with queue := l.queue ++ [⟨e.pkt.tenant, some e⟩] }) (leaveLane .house s) := by
  simp only [acquire]
  rw [if_neg (by omega), if_neg hholder, hwaiter]

/-! ## The grant step (R244, R247, R259) -/

theorem dropWaiters_of_none {who : Waiter → Bool} {c : Chain} {s : State}
    (h : ∀ x, x ∈ (leaseOf s c).queue ∨ (leaseOf s c).granting = some x → who x = false) : dropWaiters who c s = s := by
  have hqueue : (leaseOf s c).queue.filter (fun w => !who w) = (leaseOf s c).queue :=
    List.filter_eq_self.2 fun x hx => by simp [h x (.inl hx)]
  have hgranting : (leaseOf s c).granting.filter (fun w => !who w) = (leaseOf s c).granting := by
    cases hg : (leaseOf s c).granting with
    | none => rfl
    | some x => simp [h x (.inr hg)]
  simp only [dropWaiters]
  rw [hqueue, hgranting, if_neg (by cases (leaseOf s c).granting <;> simp)]
  cases c <;> rfl

/-- Without a waiter past its deadline, none is answered. -/
theorem expireWaits_of_none_late {c : Chain} {s : State} (h : ∀ x y,
    x ∈ (leaseOf s c).queue ∨ (leaseOf s c).granting = some x → x.exec = some y → expired s y.pkt = false) :
    expireWaits c s = s := by
  have hlate : ∀ x, x ∈ (leaseOf s c).queue ∨ (leaseOf s c).granting = some x →
      ((x.exec.map fun e => expired s e.pkt).getD false) = false := fun x hx => by
    cases he : x.exec with
    | none => rfl
    | some y => exact h x y hx he
  have hnone : ((leaseOf s c).queue ++ (leaseOf s c).granting.toList).filter
      (fun w => (w.exec.map fun e => expired s e.pkt).getD false) = [] :=
    List.filter_eq_nil_iff.2 fun x hx => by simpa using hlate x (by simpa using hx)
  simp only [expireWaits]
  rw [hnone, dropWaiters_of_none hlate]
  rfl

theorem exec_leaseGrant {c : Chain} {s : State} (hready : grantReady s c = true) :
    exec (.leaseGrant c) s = .next (grantStep c s) :=
  congrArg _ (if_pos hready)

theorem grantStep_of_waiter {c : Chain} {s : State} {w : Waiter} {ws : List Waiter} (hexpire : expireWaits c s = s)
    (hqueue : (leaseOf s c).queue = w :: ws) :
    grantStep c s = startGrant c w (onLease c (fun l => { l with queue := ws }) s) := by
  simp only [grantStep]
  rw [hexpire, hqueue]

theorem grantStep_of_empty {c : Chain} {s : State} (hexpire : expireWaits c s = s)
    (hqueue : (leaseOf s c).queue = []) (hlit : chainLit s c = false) : grantStep c s = freeLease c s := by
  simp only [grantStep]
  rw [hexpire, hqueue]
  simp [hlit]

/-! ## What takes the chain from its holder (R248, R251, R261) -/

/-- LEASE_RELEASE by the holder, without its wish to have the lease kept. -/
theorem exec_leaseRelease {c : Chain} {e : Exec} {s : State} (hready : Ready .house 0x0201 e s)
    (hc : Packet8 e.pkt 0 = chainIndex c) (hholds : holds s c e.pkt.tenant = true)
    (hnow : bit (Packet8 e.pkt 1) 0 = false) : exec .leaseRelease s = .next (releaseNow c s) := by
  have hholder : (leaseOf s c).holder = some e.pkt.tenant := by simpa [holds] using hholds
  have hle := chainIndex_le c
  change Host.Outcome.next (onFresh .house 0x0201 release s) = _
  rw [onFresh_of_ready _ hready]
  simp [release, hc, chainOf_chainIndex, hholder, hnow, hle]

/-- PREEMPT_LEASE, against a tenant without a packet in the chain's lane. -/
theorem exec_preemptLease {c : Chain} {e : Exec} {s : State} {h : Nat} (hready : Ready .house 0x0105 e s)
    (hc : Packet8 e.pkt 0 = chainIndex c) (hfirst : bit (Packet8 e.pkt 1) 0 = false)
    (hholder : (leaseOf s c).holder = some (h + 1)) (hidle : holderExecuting c s = false) :
    exec .preemptLease s = .next (finish .house 0 [] none (revokeLease c 2 s)) := by
  have hle := chainIndex_le c
  change Host.Outcome.next (onFresh .house 0x0105 preempt s) = _
  rw [onFresh_of_ready _ hready]
  simp [preempt, hc, chainOf_chainIndex, hfirst, hholder, hidle, hle]

theorem exec_leaseHoldExpiry {c : Chain} {s : State} (hover : holdOver s c = true) :
    exec (.leaseHoldExpiry c) s = .next
      (if holderExecuting c s then onLease c (fun l => { l with revoke := some 1 }) s else revokeLease c 1 s) :=
  congrArg _ (if_pos hover)

/-- Settles O35: LEASE_ACQUIRE, the grant step, and what takes the chain from its holder. -/
theorem leaseLife : Obligations.LeaseLife := by
  unfold Obligations.LeaseLife
  refine ⟨fun e s hready hc => ⟨fun hholder => ?_, fun hholder hwaiter hfree => ?_,
      fun hholder hwaiter hfree hnoWait => ?_, fun hholder hwaiter hfree hnoWait => ?_⟩,
    fun c h w ws e s => ⟨expireWaits_of_none_late, fun hexpire hready hqueue => ?_,
      fun hexpire hready hqueue hlit => ?_, exec_leaseRelease, exec_preemptLease, fun hover hidle => ?_,
      fun hover hbusy => ?_⟩⟩
  · rw [exec_leaseAcquire hready, acquire_of_holder hc hholder]
  · rw [exec_leaseAcquire hready, acquire_of_newcomer hc hholder hwaiter]
    exact congrArg _ (if_pos hfree)
  · rw [exec_leaseAcquire hready, acquire_of_newcomer hc hholder hwaiter]
    simp [hfree, hnoWait]
  · rw [exec_leaseAcquire hready, acquire_of_newcomer hc hholder hwaiter]
    simp [hfree, hnoWait, leaveLane]
  · rw [exec_leaseGrant hready, grantStep_of_waiter hexpire hqueue]
  · rw [exec_leaseGrant hready, grantStep_of_empty hexpire hqueue hlit]
  · rw [exec_leaseHoldExpiry hover, hidle]
    rfl
  · rw [exec_leaseHoldExpiry hover, hbusy]
    rfl

end Sys2Proof.Machine

/-! # Commands and replies

What a reply and an answer change, the packet's way from its ring over the lane to a yield point, and the opcodes that
read the part or configure it: one rule for each function in each of its cases, and then the statement. -/

namespace Sys2Proof.Machine

open Sys2Proof

/-! ## What follows a reply in its slot: counters and doorbells (R17, R265, R274, R863) -/

/-- A state with other counters and other doorbells on their way. -/
def withSignals (c : Counters) (f : Fabric) (q : List Doorbell) (s : State) : State :=
  { s with ctr := c, fab := f, aon := { s.aon with queue := q } }

/-- Only counters and doorbells have changed, and no doorbell waits in AON while CK-FAB runs. -/
def OnlySignals (s t : State) : Prop :=
  ∃ c f q, t = withSignals c f q s ∧ (fabStopped s = false → q = s.aon.queue)

namespace OnlySignals

variable {s t u : State}

theorem refl (s : State) : OnlySignals s s := ⟨s.ctr, s.fab, s.aon.queue, rfl, fun _ => rfl⟩

theorem trans (h : OnlySignals s t) (h' : OnlySignals t u) : OnlySignals s u := by
  obtain ⟨_, _, _, rfl, hq⟩ := h
  obtain ⟨c, f, q, rfl, hq'⟩ := h'
  exact ⟨c, f, q, rfl, fun hrun => (hq' hrun).trans (hq hrun)⟩

theorem raise (h : OnlySignals s t) (src pay : Nat) : OnlySignals s (raise src pay t) :=
  h.trans ⟨t.ctr, (Machine.raise src pay t).fab, (Machine.raise src pay t).aon.queue, raise_eq src pay t,
    fun hrun => congrArg Aon.queue (raise_aon_running src pay t hrun)⟩

theorem onCtr (h : OnlySignals s t) (f : Counters → Counters) : OnlySignals s (t.onCtr f) :=
  h.trans ⟨f t.ctr, t.fab, t.aon.queue, rfl, fun _ => rfl⟩

theorem ctrAdd (h : OnlySignals s t) (id n : Nat) : OnlySignals s (ctrAdd id n t) := by
  simp only [Machine.ctrAdd]
  split
  · exact ((h.onCtr _).onCtr _).raise ..
  · exact h.onCtr _

theorem basin (h : OnlySignals s t) : t.basin = s.basin := by
  obtain ⟨_, _, _, rfl, -⟩ := h
  rfl

theorem tenants (h : OnlySignals s t) : t.tenants = s.tenants := by
  obtain ⟨_, _, _, rfl, -⟩ := h
  rfl

end OnlySignals

/-! ## A reply in its slot (R268, R270–R273) -/

section Reply

variable (p : Packet) (start : Nat) (tow susp : Bool) (cs : List Clamp) (st : Nat) (body : List Byte)
  (own : Option Nat) (s : State)

/-- Basin address of a tenant's next reply slot. -/
def replyAddr (n : Nat) (s : State) : Nat :=
  let t := tenant s n
  t.place.baseAddr + t.place.rplOff + (t.rplProd % t.place.rplN) * slotSize t.place.rplBig

/-- The bytes of a reply: header, body and the clamps that fit. -/
def replySlot : List Byte :=
  let size := slotSize (tenant s p.tenant).place.rplBig
  let fit := clampsFit size body.length cs
  let content := body ++ (fit.map clampBytes).flatten
  (replyHeader s p start tow susp cs (replyStatus st cs) content.length
    (decide (fit.length < cs.length)) ++ content).take size

/-- The state once the reply stands in its slot, before what follows it. -/
def replyPlaced : State :=
  if (tenant s p.tenant).place.rplN = 0 then s
  else onTenant p.tenant (fun t => { t with rplProd := (t.rplProd + 1) % (2 * t.place.rplN) })
    (basinWrite (replyAddr p.tenant s) (replySlot p start tow susp cs st body s) s)

theorem length_replySlot_le :
    (replySlot p start tow susp cs st body s).length ≤ slotSize (tenant s p.tenant).place.rplBig :=
  List.length_take_le ..

/-- Only counters and doorbells follow a reply in its slot. -/
theorem replyWith_onlySignals :
    OnlySignals (replyPlaced p start tow susp cs st body s) (replyWith p start tow susp cs st body own s) := by
  unfold replyWith
  extract_lets status t size fit content slot comp a s1 s2 s3 s4 s5
  clear_value comp
  have hplaced : OnlySignals (replyPlaced p start tow susp cs st body s) s1 := .refl _
  generalize replyPlaced p start tow susp cs st body s = v at hplaced ⊢
  have hcounted : OnlySignals v s2 := hplaced.ctrAdd ..
  have hlate : OnlySignals v s3 := by
    simp only [s3]
    split
    · exact hcounted.ctrAdd ..
    · exact hcounted
  have hcompleted : OnlySignals v s4 := by
    simp only [s4]
    split
    · exact hlate
    split
    · exact hlate
    · exact hlate.raise ..
    · exact hlate.raise ..
  have hnotified : OnlySignals v s5 := by
    simp only [s5]
    split
    · exact hcompleted.raise ..
    · exact hcompleted
  split
  · exact hnotified
  · exact (hnotified.ctrAdd ..).raise ..

theorem replyPlaced_frame :
    ∃ b ts, replyPlaced p start tow susp cs st body s = { s with basin := b, tenants := ts } := by
  unfold replyPlaced
  split
  · exact ⟨_, _, rfl⟩
  · exact ⟨_, _, rfl⟩

theorem replyWith_frame : ∃ b ts c f q,
    replyWith p start tow susp cs st body own s = withSignals c f q { s with basin := b, tenants := ts } ∧
      (fabStopped s = false → q = s.aon.queue) := by
  obtain ⟨b, ts, hplaced⟩ := replyPlaced_frame p start tow susp cs st body s
  obtain ⟨c, f, q, hreply, hq⟩ := replyWith_onlySignals p start tow susp cs st body own s
  rw [hplaced] at hreply hq
  exact ⟨b, ts, c, f, q, hreply, hq⟩

@[simp] theorem execOf_replyWith (l : LaneId) : execOf (replyWith p start tow susp cs st body own s) l = execOf s l := by
  obtain ⟨b, ts, c, f, q, hreply, -⟩ := replyWith_frame p start tow susp cs st body own s
  rw [hreply]
  cases l <;> rfl

end Reply

/-- A change of another tenant leaves a tenant as it is. -/
theorem tenant_onTenant_of_ne {n m : Nat} (f : Tenant → Tenant) (s : State) (h : m ≠ n) :
    tenant (onTenant n f s) m = tenant s m := by
  simp [tenant, onTenant, nth, modAt, List.getD, h.symm]

/-- Settles O12: the slot by what a byte reads after a write, and the tenants by the change of the one entry. -/
theorem replyStandsInSlot : Obligations.ReplyStandsInSlot := by
  unfold Obligations.ReplyStandsInSlot
  intro p start tow susp cs st body own s t size fit content slot a u hwf hp hn hroom
  have hlen : slot.length ≤ size := length_replySlot_le p start tow susp cs st body s
  have hsignals : OnlySignals (replyPlaced p start tow susp cs st body s) u :=
    replyWith_onlySignals p start tow susp cs st body own s
  have hplaced : replyPlaced p start tow susp cs st body s =
      onTenant p.tenant (fun t => { t with rplProd := (t.rplProd + 1) % (2 * t.place.rplN) }) (basinWrite a slot s) :=
    if_neg hn.ne'
  rw [hplaced] at hsignals
  have hbyte : ∀ b, basinByte u b =
      if a ≤ b ∧ b < a + slot.length ∧ b < basinSize then nth slot (b - a) 0 else basinByte s b := fun b =>
    (congrArg (fun m : Basin => cellRead m.unlisted m.mem b) hsignals.basin).trans (basinByte_basinWrite a b slot hwf)
  have htenant : ∀ m, tenant u m = tenant (onTenant p.tenant (fun t =>
      { t with rplProd := (t.rplProd + 1) % (2 * t.place.rplN) }) (basinWrite a slot s)) m := fun m =>
    congrArg (nth · m _) hsignals.tenants
  refine ⟨fun i hi => ?_, fun b hb => ?_, ?_, fun m hm => ?_⟩
  · rw [hbyte, if_pos (by omega), Nat.add_sub_cancel_left]
  · rw [hbyte, if_neg (by omega)]
  · rw [htenant]
    exact nth_modAt_same _ _ hp
  · rw [htenant, tenant_onTenant_of_ne _ _ hm]
    rfl

/-! ## An answer and its lane (R281, R286, R748; log 188, log 225) -/

/-- A change of a lane is told by what it makes of that lane. -/
theorem onLane_congr {l : LaneId} {f g : Lane → Lane} {s : State} (h : f (laneSt s l) = g (laneSt s l)) :
    onLane l f s = onLane l g s := by
  cases l
  · exact congrArg (fun x => s.onHfLane fun _ => x) h
  · exact congrArg (fun x => s.onUhfLane fun _ => x) h
  · exact congrArg (fun x => s.onHouseLane fun _ => x) h

theorem onExec_of_exec {l : LaneId} {e : Exec} {s : State} (f : Exec → Exec) (h : execOf s l = some e) :
    onExec l f s = onLane l (fun x => { x with exec := some (f e) }) s :=
  onLane_congr (congrArg (fun y => { laneSt s l with exec := Option.map f y }) h)

theorem leaseAtPacketEnd_of_no_revoke {c : Chain} {s : State} (h : (leaseOf s c).revoke = none) :
    leaseAtPacketEnd c s = s := by
  simp [leaseAtPacketEnd, h]

section Finish

variable {l : LaneId} {e : Exec} {s : State} {st : Nat} {body : List Byte} {own : Option Nat}

/-- The answer frees the lane; without a revocation that waits, the leases stay. -/
theorem finish_of_executing (h : execOf s l = some e) (hp : e.parked = false) (hhf : s.hfLease.revoke = none)
    (huhf : s.uhfLease.revoke = none) :
    finish l st body own s = replyExec e (endStatus s e st) body own (onLane l (fun x => { x with exec := none }) s) := by
  have hleases : ∀ c, (leaseOf (replyExec e (endStatus s e st) body own
      (onLane l (fun x => { x with exec := none }) s)) c).revoke = none := fun c => by
    rw [leaseOf_congr (replyExec_leases ..)]
    cases c
    · simpa [leaseOf] using hhf
    · simpa [leaseOf] using huhf
  simp only [finish, h, hp]
  rw [if_neg (by simp), leaseAtPacketEnd_of_no_revoke (hleases .hf), leaseAtPacketEnd_of_no_revoke (hleases .uhf)]

theorem finish_of_parked (h : execOf s l = some e) (hp : e.parked = true) :
    finish l st body own s = onLane l (fun x =>
      { x with exec := some { e with phase := .done (endStatus s e st), partialBody := body } }) s := by
  simp only [finish, h]
  rw [if_pos hp, onExec_of_exec _ h]

end Finish

/-- Settles O13: a reply by its slot and what follows that, an answer by the packet's place, and the status by its phase
(that a last frame's end stops a packet is log 225's reading). -/
theorem replyFrame : Obligations.ReplyFrame := by
  unfold Obligations.ReplyFrame
  refine ⟨fun p start tow susp cs st body own s => ?_, fun l st body own e s he => ⟨fun hp hhf huhf => ?_,
    finish_of_parked he, fun h => ?_, fun due hframe hdue => ?_⟩⟩
  · obtain ⟨b, ts, c, f, q, hreply, hq⟩ := replyWith_frame p start tow susp cs st body own s
    rw [hreply]
    exact ⟨rfl, rfl, fun hrun => congrArg (fun q => { s.aon with queue := q }) (hq hrun)⟩
  · rw [finish_of_executing he hp hhf huhf]
    exact ⟨rfl, by simp [replyExec]⟩
  · rcases h with h | h <;> simp [endStatus, h]
  · simp [endStatus, hframe, hdue]

/-! ## The round robin's choice (R279) -/

/-- Settles O28: the choice is the first tenant from the pointer on that passes. -/
theorem roundRobinChoice : Obligations.RoundRobinChoice := by
  unfold Obligations.RoundRobinChoice
  intro l n s
  simp only [chooseTenant, List.find?_eq_some_iff_getElem, List.getElem_map, List.getElem_range, List.length_map,
    List.length_range]
  constructor
  · rintro ⟨hn, i, hi, rfl, hbefore⟩
    obtain ⟨heligible, hcredit⟩ : _ ∧ _ := by simpa using hn
    exact ⟨i, hi, rfl, heligible, hcredit, fun j hj => by
      simpa [Bool.and_eq_false_iff] using hbefore j hj⟩
  · rintro ⟨i, hi, rfl, heligible, hcredit, hbefore⟩
    exact ⟨by simp [heligible, hcredit], i, hi, rfl, fun j hj => by
      simpa [Bool.and_eq_false_iff] using hbefore j hj⟩

/-! ## Range and step of a value (R290) -/

/-- The multiple of a step nearest to a distance, the lower of two equally near. -/
def nearestStep (step d : Nat) : Nat := (d / step + if step < 2 * (d % step) then 1 else 0) * step

theorem nearestStep_of_multiple {step d : Nat} (h : d % step = 0) : nearestStep step d = d := by
  rw [nearestStep, h, if_neg (by omega), Nat.add_zero, Nat.div_mul_cancel (Nat.dvd_of_mod_eq_zero h)]

/-- It lies half a step away at most, and less than that above. -/
theorem nearestStep_near {step : Nat} (d : Nat) (hstep : 0 < step) :
    2 * nearestStep step d < 2 * d + step ∧ 2 * d ≤ 2 * nearestStep step d + step := by
  have hd := Nat.div_add_mod' d step
  have hlt := Nat.mod_lt d hstep
  rw [nearestStep, Nat.add_mul]
  split <;> omega

/-- It does not pass a multiple that the distance does not pass. -/
theorem nearestStep_le {step d m : Nat} (hstep : 0 < step) (hm : m % step = 0) (hd : d ≤ m) : nearestStep step d ≤ m := by
  obtain ⟨q, rfl⟩ := Nat.dvd_of_mod_eq_zero hm
  obtain ⟨hnear, -⟩ := nearestStep_near d hstep
  rw [nearestStep] at hnear ⊢
  rw [Nat.mul_comm step q] at hd ⊢
  refine Nat.mul_le_mul_right step (Nat.not_lt.1 fun hlt => ?_)
  have hpast := Nat.mul_le_mul_right step hlt
  rw [Nat.succ_mul] at hpast
  omega

section Checks

variable {f : FieldDef} {v : Int} {c : Checked}

theorem checkRange_of_below (h : v < f.min) : checkRange f ⟨v, [], true, false⟩ = ⟨f.min, [1], true, false⟩ := by
  simp [checkRange, h]

theorem checkRange_of_above (hf : f.min ≤ f.max) (h : f.max < v) :
    checkRange f ⟨v, [], true, false⟩ = ⟨f.max, [2], true, false⟩ := by
  simp [checkRange, h, not_lt.2 (hf.trans h.le)]

theorem checkRange_of_within (hmin : f.min ≤ v) (hmax : v ≤ f.max) :
    checkRange f ⟨v, [], true, false⟩ = ⟨v, [], true, false⟩ := by
  simp [checkRange, not_lt.2 hmin, not_lt.2 hmax]

theorem checkRange_within (v : Int) (hf : f.min ≤ f.max) :
    f.min ≤ (checkRange f ⟨v, [], true, false⟩).value ∧ (checkRange f ⟨v, [], true, false⟩).value ≤ f.max := by
  unfold checkRange
  dsimp only
  split
  · exact ⟨le_rfl, hf⟩
  next hmin =>
    split
    · exact ⟨hf, le_rfl⟩
    next hmax => exact ⟨not_lt.1 hmin, not_lt.1 hmax⟩

theorem checkStep_value (f : FieldDef) (c : Checked) :
    (checkStep f c).value = f.min + (nearestStep f.step (c.value - f.min).toNat : Nat) := by
  by_cases h : f.min + (nearestStep f.step (c.value - f.min).toNat : Nat) = c.value
  · exact (congrArg Checked.value (if_pos h : checkStep f c = c)).trans h.symm
  · exact congrArg Checked.value (if_neg h)

theorem toNat_mod_eq_zero {d : Int} {n : Nat} (hd : 0 ≤ d) (h : d % n = 0) : d.toNat % n = 0 := by
  simpa [h] using (Int.toNat_emod hd (Int.natCast_nonneg n)).symm

theorem checkStep_of_grid (hmin : f.min ≤ c.value) (hgrid : (c.value - f.min) % f.step = 0) : checkStep f c = c := by
  have hmultiple := toNat_mod_eq_zero (sub_nonneg.2 hmin) hgrid
  refine if_pos ?_
  change f.min + (nearestStep f.step (c.value - f.min).toNat : Nat) = c.value
  rw [nearestStep_of_multiple hmultiple]
  omega

/-- The step check leaves a value of the range on the grid, the nearest there, and within the range. -/
theorem checkStep_nearest (hstep : 0 < f.step) (hends : (f.max - f.min) % f.step = 0) (hmin : f.min ≤ c.value)
    (hmax : c.value ≤ f.max) :
    f.min ≤ (checkStep f c).value ∧ (checkStep f c).value ≤ f.max ∧ ((checkStep f c).value - f.min) % f.step = 0 ∧
      2 * ((checkStep f c).value - c.value) < f.step ∧ 2 * (c.value - (checkStep f c).value) ≤ f.step := by
  have hle : nearestStep f.step (c.value - f.min).toNat ≤ (f.max - f.min).toNat :=
    nearestStep_le hstep (toNat_mod_eq_zero (by omega) hends) (by omega)
  have hnear := nearestStep_near (c.value - f.min).toNat hstep
  have hmultiple : nearestStep f.step (c.value - f.min).toNat % f.step = 0 := Nat.mul_mod_left ..
  rw [checkStep_value]
  refine ⟨by omega, by omega, ?_, by omega, by omega⟩
  rw [add_sub_cancel_left]
  exact_mod_cast hmultiple

end Checks

/-- Settles O32: the range check by where the value lies, and the step check on what that leaves. -/
theorem rangeAndStepChecks : Obligations.RangeAndStepChecks := by
  unfold Obligations.RangeAndStepChecks
  intro f v hstep hf hends r
  obtain ⟨hlow, hhigh⟩ := checkRange_within v hf
  obtain ⟨hmin, hmax, hgrid, -, -⟩ := checkStep_nearest hstep hends hlow hhigh
  refine ⟨hmin, hmax, hgrid, fun hv hv' hon => ?_, fun hv => ?_, fun hv => ?_, fun hv hv' => ?_⟩
  · have hr : r = ⟨v, [], true, false⟩ := by
      simp only [r, checkRange_of_within hv hv']
      exact checkStep_of_grid hv hon
    simp [hr]
  · have hr : r = ⟨f.min, [1], true, false⟩ := by
      simp only [r, checkRange_of_below hv]
      exact checkStep_of_grid le_rfl (by simp)
    simp [hr]
  · have hr : r = ⟨f.max, [2], true, false⟩ := by
      simp only [r, checkRange_of_above hf hv]
      exact checkStep_of_grid hf hends
    simp [hr]
  · simp only [r, checkRange_of_within hv hv']
    obtain ⟨-, -, -, habove, hbelow⟩ := checkStep_nearest (c := ⟨v, [], true, false⟩) hstep hends hv hv'
    exact ⟨habove, hbelow⟩

/-! ## Fetching (R266, R267, R276, R277) -/

/-- The packet in a tenant's next command slot. -/
def slotPacket (n : Nat) (s : State) : Packet := packetOfBytes n s.packets s.time (readSlot s n)

section Fetch

variable {n : Nat} {s : State}

theorem exec_packetFetch (hrun : s.pwr.state = .run) (hentry : s.pwr.entry = none) (hn : nextVisit s = some n) :
    exec .packetFetch s = .next (fetchFrom n (s.onVisit fun _ => (n + 1) % 8)) := by
  change execPacketFetch s = _
  simp [execPacketFetch, hrun, hentry, hn]

theorem fetchFrom_of_fenced (h : basinFenced s (nextSlot s n).1 (16 + (slotPacket n s).params.length) = true) :
    fetchFrom n s = answer (slotPacket n s) 0x13 ((advanceCons n s).onPackets (· + 1)) :=
  if_pos h

theorem fetchFrom_of_status {st : Nat}
    (h : basinFenced s (nextSlot s n).1 (16 + (slotPacket n s).params.length) = false)
    (hst : fetchStatus s n (readSlot s n) (slotPacket n s) = some st) :
    fetchFrom n s = answer (slotPacket n s) st ((advanceCons n s).onPackets (· + 1)) := by
  unfold slotPacket at *
  simp [fetchFrom, h, hst]

theorem fetchFrom_of_good
    (h : basinFenced s (nextSlot s n).1 (16 + (slotPacket n s).params.length) = false)
    (hst : fetchStatus s n (readSlot s n) (slotPacket n s) = none) :
    fetchFrom n s = ((advanceCons n s).onPackets (· + 1)).onQueue (· ++ [slotPacket n s]) := by
  unfold slotPacket at *
  simp [fetchFrom, h, hst]

end Fetch

/-! ## Admission (R278–R281, R289, R709) -/

section Admit

variable {l : LaneId} {n : Nat} {p : Packet} {s : State}

theorem offersSuspended_of_head (h : offerOf s l n = some (.head p)) : offersSuspended s l n = false := by
  simp [offersSuspended, h]

/-- A free lane admits what the chosen tenant offers. -/
theorem exec_packetAdmit_of_head (hrun : s.pwr.state = .run) (hentry : s.pwr.entry = none) (hidle : execOf s l = none)
    (hn : chooseTenant s l = some n) (hp : offerOf s l n = some (.head p)) :
    exec (.packetAdmit l) s = .next (admitFrom l n s) := by
  change execPacketAdmit l s = _
  simp [execPacketAdmit, hrun, hentry, hidle, hn, offersSuspended_of_head hp]

theorem admitFrom_of_head (hp : offerOf s l n = some (.head p)) (hneeds : needsFenced s p = false)
    (hdue : expired s p = false) :
    admitFrom l n s = onLane l (fun x => { x with exec := some (newExec s l p) })
      ((takeCredit l n s).onQueue fun _ => s.queue.filter fun r => r.id != p.id) := by
  simp [admitFrom, hp, hneeds, hdue, lateInQueue]

end Admit

/-- Settles O27: the packet that is fetched by what becomes of it, and the one that is admitted with its credit. -/
theorem packetFetchedAndAdmitted : Obligations.PacketFetchedAndAdmitted := by
  unfold Obligations.PacketFetchedAndAdmitted
  refine ⟨fun n s hrun hentry hn => ?_, fun l n p s hrun hentry hidle hn hp hneeds hdue => ?_⟩
  · rw [exec_packetFetch hrun hentry hn]
    exact ⟨fun hbad => congrArg _ (fetchFrom_of_fenced hbad),
      fun st hbad hst => congrArg _ (fetchFrom_of_status hbad hst),
      fun hbad hst => congrArg _ (fetchFrom_of_good hbad hst)⟩
  · rw [exec_packetAdmit_of_head hrun hentry hidle hn hp, admitFrom_of_head hp hneeds hdue]
    cases l <;> rfl

/-! ## Slice, yield point and deadline (R281, R282, R285, R286) -/

section Yields

variable {l : LaneId} {e : Exec} {s : State}

theorem exec_sliceExpiry (he : execOf s l = some e) (hover : e.slice + cfg s 0x803 ≤ s.time)
    (hother : otherEligible s l e.pkt.tenant = true) :
    exec (.sliceExpiry l) s = .next (onLane l (fun x => { x with exec := some { e with sliceOver := true } }) s) := by
  rw [← onExec_of_exec (fun e => { e with sliceOver := true }) he]
  change execSliceExpiry l s = _
  simp [execSliceExpiry, he, hover, hother]

theorem exec_yieldPoint (he : execOf s l = some e) : exec (.yieldPoint l) s = .next (yieldPoint l e s) := by
  change execYieldPoint l s = _
  simp [execYieldPoint, he]

theorem yieldPoint_of_suspends (hat : atYield s l e = true) (hstop : stopDue s e = none)
    (hlost : lostStatus s l e = none) (hslice : e.sliceOver = true) (hother : otherEligible s l e.pkt.tenant = true)
    (hphase : suspendable e.phase = true) : yieldPoint l e s = suspendHere l e s := by
  simp [yieldPoint, hat, hstop, hlost, hslice, hother, hphase]

theorem yieldPoint_of_stop {st : Nat} (hat : atYield s l e = true) (hstop : stopDue s e = some st) :
    yieldPoint l e s = stopHere l st e s := by
  simp [yieldPoint, hat, hstop]

theorem stopDue_eq_some {st : Nat} :
    stopDue s e = some st ↔ e.stop = some st ∨ e.stop = none ∧ expired s e.pkt = true ∧ st = 0x15 := by
  cases hstop : e.stop with
  | some x => simp [stopDue, hstop]
  | none => cases hdue : expired s e.pkt <;> simp [stopDue, hstop, hdue, eq_comm (a := 0x15)]

/-- Without NV jobs none is kept apart with a packet, and none starts. -/
theorem holdJobs_of_none {id : Nat} (hjob : s.nv.job = none) (hjobs : s.nv.jobs = []) : holdJobs l id s = s := by
  have hnv : s.nv = { s.nv with job := none, jobs := [] } := by rw [← hjob, ← hjobs]
  refine congrArg (fun n => { s with nv := n }) ?_
  simpa [hjob, hjobs] using hnv.symm

theorem wakeJobs_of_none (hjobs : s.nv.jobs = []) : wakeJobs s = s := by
  simp [wakeJobs, advanceJobs, hjobs, nextJob]

theorem suspendHere_of_no_jobs (hjob : s.nv.job = none) (hjobs : s.nv.jobs = []) :
    suspendHere l e s = onLane l (fun x =>
      { x with exec := none, susp := x.susp ++ [{ e with suspended := true, sliceOver := false }] }) s := by
  rw [suspendHere, holdJobs_of_none (by simpa using hjob) (by simpa using hjobs),
    wakeJobs_of_none (by simpa using hjobs)]

end Yields

theorem exec_deadlineExpiry_of_no_waits {s : State} (hqueue : s.queue = []) (hhf : s.hfLease.queue = [])
    (hhfGrant : s.hfLease.granting = none) (huhf : s.uhfLease.queue = []) (huhfGrant : s.uhfLease.granting = none)
    (hlock : s.lock.waiting = []) :
    exec .deadlineExpiry s =
      .next (((s.onHfLane (markExpired s)).onUhfLane (markExpired s)).onHouseLane (markExpired s)) := by
  have hfetched : (s.onQueue fun q => q.filter fun p => !lateInQueue s p) = s := by
    simp only [State.onQueue, hqueue, List.filter_nil]
    rw [← hqueue]
  have hexpire : expireWaits .uhf (expireWaits .hf s) = s := by
    rw [expireWaits_of_none_late (c := .hf) (by simp [leaseOf, hhf, hhfGrant]),
      expireWaits_of_none_late (c := .uhf) (by simp [leaseOf, huhf, huhfGrant])]
  have hlocks : (s.onLock fun k => { k with waiting := k.waiting.filter fun e => !expired s e.pkt }) = s := by
    simp only [State.onLock, hlock, List.filter_nil]
    rw [← hlock]
  change execDeadlineExpiry s = _
  simp [execDeadlineExpiry, hqueue, hfetched, hexpire, hlock, hlocks]

/-- Settles O29: the end of the slice, the yield point by what the packet is to do there, and the deadline's mark. -/
theorem sliceYieldDeadline : Obligations.SliceYieldDeadline := by
  unfold Obligations.SliceYieldDeadline
  refine ⟨fun l e st s he => ⟨exec_sliceExpiry he, fun hat hstop hlost hslice hother hphase => ?_,
    suspendHere_of_no_jobs, stopDue_eq_some, fun hat hstop => ?_⟩,
    fun s hqueue hhf hhfGrant huhf huhfGrant hlock => ?_⟩
  · rw [exec_yieldPoint he, yieldPoint_of_suspends hat hstop hlost hslice hother hphase]
  · rw [exec_yieldPoint he, yieldPoint_of_stop hat hstop]
    rfl
  · exact exec_deadlineExpiry_of_no_waits hqueue hhf hhfGrant huhf huhfGrant hlock

/-! ## The reading opcodes (R298–R303, R580, R783–R787) -/

/-- The row of an opcode, on a packet that is ready, is what the opcode does. -/
theorem nextFresh_of_ready {l : LaneId} {op : Nat} {e : Exec} {s t : State} {f : Exec → State → State}
    (h : Ready l op e s) (ht : f e s = t) :
    (.next (onFresh l op f s) : Host.Outcome State Fault Refusal) = .next t :=
  congrArg _ ((onFresh_of_ready f h).trans ht)

theorem readCounters_of_count {e : Exec} {s : State} (hmin : 1 ≤ Packet16 e.pkt 2) (hmax : Packet16 e.pkt 2 ≤ 64)
    (halign : Packet32 e.pkt 8 % 4 = 0) :
    readCounters e s =
      let r := readMany e.pkt.tenant (bit (Packet8 e.pkt 4) 0) (Packet16 e.pkt 2) (Packet16 e.pkt 0) s
      finish .house 0 (le 2 (Packet16 e.pkt 2) ++ le 2 0) none (poundWrite e.pkt.tenant (Packet32 e.pkt 8) r.1 r.2) :=
  if_neg (by omega)

/-- The records that GET_LOG asks for. -/
def logAsked (p : Packet) (s : State) : List LogRec :=
  ((logHeld s).filter fun r => Packet32 p 0 == 0xFFFFFFFF || seqFrom r.seq (Packet32 p 0)).take (Packet16 p 4)

theorem logEnds_of_held {a b : LogRec} {s : State} (ha : (logHeld s).head? = some a)
    (hb : (logHeld s).getLast? = some b) : logEnds s = (a.seq, b.seq, s) := by
  simp [logEnds, ha, hb]

/-- With a record held, GET_LOG reports the oldest and the newest sequence. -/
theorem getLog_of_held {ecc : EccRead} {e : Exec} {s t : State} {a b : LogRec}
    (ht : eccRead 0xE9000 0xF9000 ecc s = t) (hmin : 1 ≤ Packet16 e.pkt 4) (hmax : Packet16 e.pkt 4 ≤ 1024)
    (halign : Packet32 e.pkt 8 % 4 = 0)
    (hroom : inPound t e.pkt.tenant (Packet32 e.pkt 8) (64 * (logAsked e.pkt t).length) = true)
    (ha : (logHeld t).head? = some a) (hb : (logHeld t).getLast? = some b) :
    getLog ecc e s = finish .house 0
      (le 2 (logAsked e.pkt t).length ++ le 2 0 ++ le 4 a.seq ++ le 4 b.seq ++ le 4 (ctrGet t 0xB)) none
      (poundWrite e.pkt.tenant (Packet32 e.pkt 8) ((logAsked e.pkt t).map (logBytes e.pkt.tenant)).flatten t) := by
  subst ht
  unfold logAsked at *
  simp only [getLog]
  rw [if_neg (by simp only [hroom, reduceCtorEq, or_false]; omega), logEnds_of_held ha hb]

/-- Settles O30: the rows that answer at once, READ_COUNTERS, and GET_LOG (that ECC is read first is log 258's). -/
theorem readingOpcodes : Obligations.ReadingOpcodes := by
  unfold Obligations.ReadingOpcodes
  refine ⟨fun e s => ⟨fun hready => ?_, fun hready => ?_, fun hready => ?_, fun hready => ?_, fun hready => ?_,
    fun hready => ?_⟩, fun e s => ⟨fun hready hmin hmax halign => ?_,
    fun ecc hready hmin hmax halign hroom a b ha hb => ?_⟩⟩
  · exact nextFresh_of_ready hready rfl
  · exact nextFresh_of_ready hready rfl
  · exact nextFresh_of_ready hready rfl
  · exact nextFresh_of_ready hready rfl
  · exact nextFresh_of_ready hready rfl
  · exact nextFresh_of_ready hready rfl
  · exact nextFresh_of_ready hready (readCounters_of_count hmin hmax halign)
  · exact nextFresh_of_ready hready (getLog_of_held rfl hmin hmax halign hroom ha hb)

/-! ## The configuration opcodes (R290–R296, R304–R310) -/

section SetConfig

variable {e : Exec} {s : State} {a : Applied}

/-- VALIDATE_ONLY leaves every field as it is. -/
theorem setConfig_of_entries (hok : entriesOk (entryBytes s e.pkt) (Packet16 e.pkt 0) = true) :
    setConfig e s =
      let a := applyEntries e.pkt.tenant (entriesOf (entryBytes s e.pkt) (Packet16 e.pkt 0)) s
      setConfigEnd e { a with s := if bit (Packet8 e.pkt 2) 2 then s else a.s } := by
  refine (if_neg (by simp [hok])).trans (congrArg (setConfigEnd e) ?_)
  split <;> rfl

/-- The state that the reply of a SET_CONFIG meets: its clamps stand in the pound, where it asks for that, and with its
packet. -/
def clampsReported (e : Exec) (a : Applied) : State :=
  onExec .house (fun x => { x with clamps := a.clamps })
    (if bit (Packet8 e.pkt 2) 0 then
      poundWrite e.pkt.tenant (Packet32 e.pkt 4 + 8 * Packet16 e.pkt 0) (a.clamps.map clampBytes).flatten a.s
    else a.s)

/-- What a SET_CONFIG answers: the entries applied, none of them under VALIDATE_ONLY. -/
def setConfigBody (e : Exec) (a : Applied) : List Byte :=
  le 2 (if bit (Packet8 e.pkt 2) 2 then 0 else a.count) ++ le 2 0

theorem setConfigEnd_of_answer (h : bit (Packet8 e.pkt 2) 1 = false ∨ bit (Packet8 e.pkt 2) 2 = true) :
    setConfigEnd e a =
      finish .house (if a.noRoom then 0x42 else 0) (setConfigBody e a) none (clampsReported e a) :=
  if_neg (by rcases h with h | h <;> simp [h])

theorem setConfigEnd_of_store {v : State} (hstore : bit (Packet8 e.pkt 2) 1 = true)
    (happly : bit (Packet8 e.pkt 2) 2 = false)
    (hv : nvSubmit (defaultsJob (clampsReported e a) (a.ids.map fun i => (i, cfgI (clampsReported e a) i)))
      (clampsReported e a) = some v) :
    setConfigEnd e a = onExec .house (fun x =>
      { x with phase := .nv (if a.noRoom then 0x42 else 0), partialBody := setConfigBody e a }) v := by
  unfold clampsReported at hv
  simp only [setConfigEnd, setConfigBody, hstore, happly, hv]
  rfl

end SetConfig

theorem getConfig_of_count {ecc : EccRead} {e : Exec} {s t : State}
    (ht : (if bit (Packet8 e.pkt 2) 1 then eccRead 0xDD000 0xE5000 ecc s else s) = t)
    (hmin : 1 ≤ Packet16 e.pkt 0) (hmax : Packet16 e.pkt 0 ≤ 255) :
    getConfig ecc e s =
      let n := Packet16 e.pkt 0
      let bs := if bit (Packet8 e.pkt 2) 0 then poundRead t e.pkt.tenant (Packet32 e.pkt 4) (2 * n)
        else e.pkt.params.drop 8
      let res := ((List.range n).map fun k => getOne t (bit (Packet8 e.pkt 2) 1) (fieldOf bs (2 * k) 2)).flatten
      if bit (Packet8 e.pkt 2) 0 then
        finish .house 0 [] none (poundWrite e.pkt.tenant (align8 (Packet32 e.pkt 4 + 2 * n)) res t)
      else finish .house 0 res none t := by
  subst ht
  exact if_neg (by omega)

/-- Settles O31: SET_CONFIG by how it ends (that VALIDATE_ONLY counts no entry as applied is log 216's reading), then
GET_CONFIG (that ECC is read first is log 258's) and SET_WEIGHTS. -/
theorem configurationOpcodes : Obligations.ConfigurationOpcodes := by
  unfold Obligations.ConfigurationOpcodes
  intro e s p n fl
  refine ⟨fun hready hok => ⟨fun hanswer => ?_, fun hstore happly v hv => ?_⟩, fun ecc hready hmin hmax => ?_,
    fun hready => ?_⟩
  · exact nextFresh_of_ready hready ((setConfig_of_entries hok).trans (setConfigEnd_of_answer hanswer))
  · exact nextFresh_of_ready hready ((setConfig_of_entries hok).trans (setConfigEnd_of_store hstore happly hv))
  · exact nextFresh_of_ready hready (getConfig_of_count rfl hmin hmax)
  · exact nextFresh_of_ready hready rfl

end Sys2Proof.Machine

/-! # The registers of the interrupt controller, its choices, and event records

First what a port read of the block gives, then the source that a fold over all sources chooses, the bits that a word
of the block writes, and the record of a mode Q doorbell, and after each of them the statements that rest on it. -/

namespace Sys2Proof.Machine

open Sys2Proof

/-! ## Port reads of the block (R314, R317) -/

theorem icListed_low {off : Nat} (ha : off % 4 = 0) (hlow : off < 0xD0) : icListed off = true := by
  simp [icListed, ha, hlow]

/-- Every listed word of the block may be read. -/
theorem accessKind_ic_read {p : Port} {s : State} {off : Nat} (h : s.pwr.state ≠ .recovery) (hoff : off < 0x1000)
    (hl : icListed off = true) : accessKind s p false (icBase + off) 0 = none := by
  have hbelow : ¬ icBase + off < 0x400000 ∧ ¬ icBase + off < 0x401000 ∧ icBase + off < 0x402000 := by
    simp only [icBase]; omega
  simp [accessKind, h, hbelow, hl]

/-- Of the block, only IC_SYNC makes a read wait. -/
theorem mustStall_ic {off : Nat} (p : Port) (s : State) (hoff : off < 0x1000) (hsync : off ≠ 8) :
    mustStall s p (icBase + off) = false := by
  have hrng : ¬ icBase + off = 0x402000 := by simp only [icBase]; omega
  simp [mustStall, hrng, hsync]

theorem readWord_ic {s : State} {off : Nat} (p : Port) (fast : Bool) (h : s.pwr.state ≠ .recovery)
    (hoff : off < 0x1000) : readWord p (icBase + off) fast s = icRead p off fast s := by
  have hbelow : ¬ icBase + off < 0x400000 ∧ ¬ icBase + off < 0x401000 ∧ icBase + off < 0x402000 := by
    simp only [icBase]; omega
  simp [readWord, h, hbelow]

/-- A read of a listed register of the block other than IC_SYNC. -/
theorem portReadTx_ic {p : Port} {s : State} {off : Nat} (h : PortReady p s) (hoff : off < 0x1000)
    (hl : icListed off = true) (hsync : off ≠ 8) :
    portReadTx p (icBase + off) 1 .whole false s = drive p [(icRead p off false s).1] (icRead p off false s).2 := by
  obtain ⟨hopen, hserv⟩ := h
  have hr := state_ne_recovery_of_inService hserv
  have ha : off % 4 = 0 := by
    simp only [icListed, Bool.and_eq_true, beq_iff_eq] at hl
    exact hl.1
  rw [portReadTx_pass false hopen (by simp only [icBase]; omega) (accessKind_ic_read hr hoff hl)
    (mustStall_ic p s hoff hsync), readWord_ic p false hr hoff]

/-! ## The registers of a target (R317, R318, R342, R343, R345) -/

/-- Offset of register `r` of target `t`. -/
def targetReg (t r : Nat) : Nat := 0x80 + 0x10 * t + r

theorem targetReg_spec {t r : Nat} (ht : t < 4) (hr : r < 0x10) :
    0x80 ≤ targetReg t r ∧ targetReg t r < 0xC0 ∧ (targetReg t r - 0x80) / 0x10 = t ∧ targetReg t r % 0x10 = r := by
  unfold targetReg
  omega

theorem icListed_targetReg {t r : Nat} (ht : t < 4) (hr : r < 0x10) (ha : r % 4 = 0) :
    icListed (targetReg t r) = true := by
  obtain ⟨-, hhi, -, hmod⟩ := targetReg_spec ht hr
  exact icListed_low (by omega) (by omega)

/-- The registers of a target take a word from the ports that may use the target. -/
theorem icDenied_targetReg {t r : Nat} (s : State) (p : Port) (v : Nat) (ht : t < 4) (hr : r < 0x10) :
    icDenied s p (targetReg t r) v = !portTarget s p t := by
  obtain ⟨hlo, hhi, hdiv, -⟩ := targetReg_spec ht hr
  rw [icDenied, if_neg (by omega), if_neg (by omega), if_neg (by omega), if_pos ⟨hlo, hhi⟩, hdiv]

theorem icWrite_eoi {t : Nat} (p : Port) (v : Nat) (s : State) (ht : t < 4) :
    icWrite p (targetReg t 8) v s = icEoi t v s := by
  obtain ⟨hlo, hhi, hdiv, hmod⟩ := targetReg_spec ht (by decide : 8 < 0x10)
  rw [icWrite, if_neg (by omega), if_neg (by omega), if_neg (by omega), if_neg (by omega), if_pos ⟨hlo, hhi⟩, hdiv,
    hmod]
  rfl

/-- What a port that may use the target reads of its registers. -/
theorem icRead_targetReg {p : Port} {s : State} {t r : Nat} (ht : t < 4) (hr : r < 0x10)
    (hp : portTarget s p t = true) :
    icRead p (targetReg t r) false s =
      if r = 0 then (curpri s t, s) else if r = 4 then icClaim p t s else if r = 0xC then icTstat p t s
      else (0, s) := by
  obtain ⟨hlo, hhi, hdiv, hmod⟩ := targetReg_spec ht hr
  rw [icRead, if_neg (by omega), if_neg (by omega), if_neg (by omega), if_neg (by omega), if_neg (by omega),
    if_neg (by omega), if_neg (by omega), if_pos ⟨hlo, hhi⟩, hdiv, hmod]
  simp [hp]

section Target

variable {p : Port} {t : Nat} {s : State} (h : PortReady p s) (ht : t < 4)
include h ht

theorem portReadTx_targetReg {r : Nat} (hr : r < 0x10) (ha : r % 4 = 0) :
    portReadTx p (icBase + targetReg t r) 1 .whole false s =
      drive p [(icRead p (targetReg t r) false s).1] (icRead p (targetReg t r) false s).2 := by
  obtain ⟨hlo, hhi, -, -⟩ := targetReg_spec ht hr
  exact portReadTx_ic h (by omega) (icListed_targetReg ht hr ha) (by omega)

variable (hp : portTarget s p t = true)
include hp

theorem exec_icEoiWrite (v : Word) : exec (.icEoiWrite p t v) s = .next (icEoi t v.toNat s) := by
  obtain ⟨-, hhi, -, -⟩ := targetReg_spec ht (by decide : 8 < 0x10)
  have haddr : icBase + 0x88 + 0x10 * t = icBase + targetReg t 8 := by simp only [targetReg]; omega
  calc exec (.icEoiWrite p t v) s
      = .next (portWriteTx p (icBase + 0x88 + 0x10 * t) [v] .whole s) := rfl
    _ = .next (icEoi t v.toNat s) := by
        rw [haddr, portWriteTx_ic h (by omega) (icListed_targetReg ht (by decide) rfl)
          (by simp [icDenied_targetReg s p _ ht, hp]), icWrite_eoi p _ s ht]

theorem exec_icClaimRead : exec (.icClaimRead p t) s = .next (drive p [(icClaim p t s).1] (icClaim p t s).2) := by
  have haddr : icBase + 0x84 + 0x10 * t = icBase + targetReg t 4 := by simp only [targetReg]; omega
  have hread := portReadTx_targetReg h ht (r := 4) (by decide) rfl
  rw [icRead_targetReg ht (by decide) hp, ← haddr] at hread
  exact congrArg _ hread

theorem exec_icTstatRead : exec (.icTstatRead p t) s = .next (drive p [tstat s t]
    (s.onIc fun i => { i with eoiErr := modAt i.eoiErr t fun _ => false })) := by
  have haddr : icBase + 0x8C + 0x10 * t = icBase + targetReg t 0xC := by simp only [targetReg]; omega
  have hread := portReadTx_targetReg h ht (r := 0xC) (by decide) rfl
  have htstat : icTstat p t s = (tstat s t, s.onIc fun i => { i with eoiErr := modAt i.eoiErr t fun _ => false }) := by
    simp [icTstat, hp]
  rw [icRead_targetReg ht (by decide) hp, ← haddr] at hread
  refine congrArg _ (hread.trans ?_)
  simp [htstat]

end Target

/-- Settles O21: the write reaches IC_EOIt, which acts by whether the source is active there. -/
theorem endOfInterrupt : Obligations.EndOfInterrupt := by
  unfold Obligations.EndOfInterrupt
  intro p t v s h ht hp n
  rw [exec_icEoiWrite h ht hp]
  exact ⟨fun hactive => congrArg _ (if_pos hactive), fun hother => congrArg _ (if_neg hother)⟩

/-! ## The source of highest priority (R333, R342) -/

/-- Among the sources below `k` that qualify, `n` has the highest priority, and the lowest number on a tie. -/
def IsBest (prio : Nat → Nat) (ok : Nat → Bool) (k n : Nat) : Prop :=
  n < k ∧ ok n = true ∧ ∀ m, m < k → ok m = true → prio m < prio n ∨ prio m = prio n ∧ n ≤ m

/-- One step of the choice: a source takes the place of one of lower priority. -/
def betterOf (prio : Nat → Nat) (ok : Nat → Bool) (best : Option Nat) (n : Nat) : Option Nat :=
  if ok n then
    match best with
    | none => some n
    | some b => if prio b < prio n then some n else some b
  else best

/-- The choice among the sources below `k`. -/
def bestOf (prio : Nat → Nat) (ok : Nat → Bool) (k : Nat) : Option Nat := (List.range k).foldl (betterOf prio ok) none

theorem bestSource_eq (s : State) : bestSource s = bestOf (srcPrio s) (candidate s) 128 := rfl

theorem claimSource_eq (s : State) (t : Nat) : claimSource s t = bestOf (srcPrio s) (deliveredTo s t) 128 := rfl

section Best

variable {prio : Nat → Nat} {ok : Nat → Bool} {k n : Nat}

theorem bestOf_succ (prio : Nat → Nat) (ok : Nat → Bool) (k : Nat) :
    bestOf prio ok (k + 1) = betterOf prio ok (bestOf prio ok k) k := by
  simp [bestOf, List.range_succ]

theorem IsBest.unique {m : Nat} (hn : IsBest prio ok k n) (hm : IsBest prio ok k m) : n = m := by
  obtain ⟨hnk, hnok, hnbest⟩ := hn
  obtain ⟨hmk, hmok, hmbest⟩ := hm
  have h1 := hnbest m hmk hmok
  have h2 := hmbest n hnk hnok
  omega

/-- One more source that does not qualify, or has no higher priority, leaves the best one in place. -/
theorem IsBest.succ_of_le (h : IsBest prio ok k n) (hk : ok k = true → prio k ≤ prio n) : IsBest prio ok (k + 1) n := by
  obtain ⟨hn, hok, hbest⟩ := h
  refine ⟨by omega, hok, fun m hm hmok => ?_⟩
  rcases Nat.lt_succ_iff_lt_or_eq.1 hm with hlt | rfl
  · exact hbest m hlt hmok
  · have hle := hk hmok
    omega

/-- A source of higher priority than the best one below it is the best one then. -/
theorem IsBest.succ_of_lt (h : IsBest prio ok k n) (hk : ok k = true) (hlt : prio n < prio k) :
    IsBest prio ok (k + 1) k := by
  obtain ⟨hn, hok, hbest⟩ := h
  refine ⟨k.lt_succ_self, hk, fun m hm hmok => ?_⟩
  rcases Nat.lt_succ_iff_lt_or_eq.1 hm with hmk | rfl
  · have := hbest m hmk hmok
    omega
  · exact .inr ⟨rfl, le_rfl⟩

/-- The first source that qualifies is the best one then. -/
theorem isBest_first (hnone : ∀ m, m < k → ok m = false) (hk : ok k = true) : IsBest prio ok (k + 1) k := by
  refine ⟨k.lt_succ_self, hk, fun m hm hmok => ?_⟩
  rcases Nat.lt_succ_iff_lt_or_eq.1 hm with hmk | rfl
  · simp [hnone m hmk] at hmok
  · exact .inr ⟨rfl, le_rfl⟩

/-- The choice is the best source, where there is one. -/
theorem bestOf_cases (prio : Nat → Nat) (ok : Nat → Bool) (k : Nat) :
    (bestOf prio ok k = none ∧ ∀ m, m < k → ok m = false) ∨ ∃ n, bestOf prio ok k = some n ∧ IsBest prio ok k n := by
  induction k with
  | zero => exact .inl ⟨rfl, fun m hm => absurd hm m.not_lt_zero⟩
  | succ k ih =>
    rw [bestOf_succ]
    cases hk : ok k
    case false =>
      have hsame : ∀ best, betterOf prio ok best k = best := fun best => by simp [betterOf, hk]
      rw [hsame]
      refine ih.imp (fun ⟨hbest, hnone⟩ => ⟨hbest, fun m hm => ?_⟩) fun ⟨n, hbest, hn⟩ =>
        ⟨n, hbest, hn.succ_of_le (by simp [hk])⟩
      rcases Nat.lt_succ_iff_lt_or_eq.1 hm with hmk | rfl
      · exact hnone m hmk
      · exact hk
    case true =>
      obtain ⟨hbest, hnone⟩ | ⟨n, hbest, hn⟩ := ih
      · exact .inr ⟨k, by simp [betterOf, hbest, hk], isBest_first hnone hk⟩
      · by_cases hlt : prio n < prio k
        · exact .inr ⟨k, by simp [betterOf, hbest, hk, hlt], hn.succ_of_lt hk hlt⟩
        · exact .inr ⟨n, by simp [betterOf, hbest, hk, hlt], hn.succ_of_le fun _ => Nat.not_lt.1 hlt⟩

theorem bestOf_eq_some_iff : bestOf prio ok k = some n ↔ IsBest prio ok k n := by
  obtain ⟨hbest, hnone⟩ | ⟨m, hbest, hm⟩ := bestOf_cases prio ok k
  · rw [hbest]
    exact ⟨nofun, fun ⟨hn, hok, _⟩ => by simp [hnone n hn] at hok⟩
  · rw [hbest]
    exact ⟨fun h => Option.some.inj h ▸ hm, fun h => congrArg some (hm.unique h)⟩

theorem bestOf_eq_none (h : ∀ m, m < k → ok m = false) : bestOf prio ok k = none := by
  obtain ⟨hbest, -⟩ | ⟨m, -, hm, hok, -⟩ := bestOf_cases prio ok k
  · exact hbest
  · simp [h m hm] at hok

end Best

theorem icClaim_of_some {p : Port} {t n : Nat} {s : State} (hp : portTarget s p t = true)
    (hn : claimSource s t = some n) :
    icClaim p t s = (n + 2 ^ 7 + 2 ^ 8 * (nth s.ic.pay n 0).toNat,
      s.onIc fun i => { i with st := modAt i.st n fun _ => .active t }) := by
  simp [icClaim, hp, hn]

theorem icClaim_of_none {p : Port} {t : Nat} {s : State} (hp : portTarget s p t = true) (hn : claimSource s t = none) :
    icClaim p t s = (0, s) := by
  simp [icClaim, hp, hn]

/-- Settles O22: a claim and the arbiter choose by the same rule, each among its own sources. -/
theorem bestSourceTaken : Obligations.BestSourceTaken := by
  unfold Obligations.BestSourceTaken
  refine ⟨fun p t n s h ht hp => ⟨fun hn hdelivered hbest => ?_, fun hnone => ?_⟩, fun s n => bestOf_eq_some_iff⟩
  · have hclaim : claimSource s t = some n := bestOf_eq_some_iff.2 ⟨hn, hdelivered, hbest⟩
    rw [exec_icClaimRead h ht hp, icClaim_of_some hp hclaim]
  · have hclaim : claimSource s t = none := bestOf_eq_none hnone
    rw [exec_icClaimRead h ht hp, icClaim_of_none hp hclaim]

/-! ## IC_SYNC, IC_STATUS, IC_EVTDROPn and IC_SRC(s) (R317, R322–R326, R340, R352) -/

section Registers

variable {p : Port} {s : State} (h : PortReady p s)
include h

theorem exec_icSyncRead (fast : Bool) :
    exec (.icSyncRead p fast) s = .next (drive p [(icSync p fast s).1] (icSync p fast s).2) := by
  obtain ⟨hopen, hserv⟩ := h
  have hk : accessKind s p false (icBase + 8) 0 = none :=
    accessKind_ic_read (state_ne_recovery_of_inService hserv) (by decide) rfl
  change execIcSyncRead p fast s = _
  simp [execIcSyncRead, portBegin_of_open hopen, hopen.1, hk]

theorem exec_icStatusRead : exec (.icStatusRead p) s =
    .next (drive p [b2n s.ic.busy] (s.onIc fun i => { i with busy := false })) :=
  congrArg _ (portReadTx_ic h (off := 0xC) (by decide) rfl (by decide))

theorem exec_icEvtdropRead {n : Nat} (hn : n < 8) : exec (.icEvtdropRead p n) s =
    .next (drive p [ctrGet s (0x10 + n)] (ctrClear (0x10 + n) s)) := by
  have hreg : icRead p (0x40 + 4 * n) false s = icEvtdrop n s := by
    rw [icRead, if_neg (by omega), if_neg (by omega), if_neg (by omega), if_neg (by omega), if_neg (by omega),
      if_pos (by omega), show (0x40 + 4 * n - 0x40) / 4 = n by omega]
  have hread := portReadTx_ic h (by omega) (icListed_low (off := 0x40 + 4 * n) (by omega) (by omega)) (by omega)
  rw [hreg, ← Nat.add_assoc] at hread
  exact congrArg _ hread

/-- A port of the Keeper may write IC_SRC(s). -/
theorem exec_icSrcWrite {n : Nat} (v : Word) (hp : portOf s p 0 = true) (hn : n < 128) :
    exec (.icSrcWrite p n v) s = .next (icSrcSet n v.toNat s) := by
  have hlisted : icListed (0x200 + 4 * n) = true := by
    have ha : (0x200 + 4 * n) % 4 = 0 := by omega
    have hrange : 0x200 ≤ 0x200 + 4 * n ∧ 0x200 + 4 * n < 0x400 := by omega
    simp [icListed, ha, hrange]
  have hallowed : icDenied s p (0x200 + 4 * n) v.toNat = false := by
    rw [icDenied, if_neg (by omega), if_neg (by omega), if_neg (by omega), if_neg (by omega), if_pos (by omega), hp]
    rfl
  have hreg : icWrite p (0x200 + 4 * n) v.toNat s = icSrcSet n v.toNat s := by
    rw [icWrite, if_neg (by omega), if_neg (by omega), if_neg (by omega), if_neg (by omega), if_neg (by omega),
      if_neg (by omega), if_pos (by omega), show (0x200 + 4 * n - 0x200) / 4 = n by omega]
  have hwrite := portWriteTx_ic h (by omega) hlisted hallowed
  rw [hreg, ← Nat.add_assoc] at hwrite
  exact congrArg _ hwrite

end Registers

theorem icSync_of_late {p : Port} {fast : Bool} {s : State} (h : p = .b ∧ fast = true ∧ s.ic.flight ≠ []) :
    icSync p fast s = (0, s) := if_pos h

theorem icSync_of_done {p : Port} {fast : Bool} {s : State} (h : p = .a ∨ fast = false ∨ s.ic.flight = []) :
    icSync p fast s = (1, deliverAll s) := by
  refine if_neg fun ⟨hp, hfast, hflight⟩ => ?_
  rcases h with rfl | rfl | hnone
  · cases hp
  · cases hfast
  · exact hflight hnone

/-- The word that IC_SRC(n) takes over of the one written (R322, R323). -/
def icSrcWord (n v : Nat) (s : State) : Nat :=
  if n < 112 then v % 2 ^ 15 else v % 2 ^ 8 + bits (icSrc s n) 10 8 * 2 ^ 8 + bits v 14 11 * 2 ^ 11

/-- A source is idle: neither won, delivered, active nor pending, and without a count (R324). -/
def srcIdle (n : Nat) (s : State) : Bool :=
  srcState s n == .idle && !pendBit s n && nth s.ic.count n 0 == 0

theorem srcIdle_iff {n : Nat} {s : State} :
    srcIdle n s = true ↔ srcState s n = .idle ∧ pendBit s n = false ∧ nth s.ic.count n 0 = 0 := by
  simp [srcIdle, and_assoc]

/-- IC_SRC(n) takes a word over unless it changes OWNER or MODE of a source that is not idle (R322–R324). -/
theorem icSrcSet_eq {n : Nat} (v : Nat) (s : State) (hn : reservedSrc n = false) :
    icSrcSet n v s =
      if srcIdle n s = true ∨ bits (icSrcWord n v s) 11 8 = bits (icSrc s n) 11 8 then
        newProfile n (s.onIc fun i => { i with src := modAt i.src n fun _ => BitVec.ofNat 32 (icSrcWord n v s) })
      else s.onIc fun i => { i with busy := true } := by
  have hword : (if 112 ≤ n then v % 2 ^ 8 + bits (icSrc s n) 10 8 * 2 ^ 8 + bits v 14 11 * 2 ^ 11 else v % 2 ^ 15) =
      icSrcWord n v s := by
    rw [icSrcWord, ← ite_not]
    exact if_congr Nat.not_le rfl rfl
  simp only [icSrcSet, hn, hword, Bool.false_eq_true, if_false]
  rw [← srcIdle, ← ite_not]
  refine if_congr ?_ rfl rfl
  cases srcIdle n s <;> simp

theorem newProfile_of_no_count {n : Nat} {s : State} (h : nth s.ic.count n 0 = 0) : newProfile n s = s :=
  if_pos (.inl h)

/-- Settles O23: each register by its rule, and IC_SRC(s) by whether its word is taken over or refused. Which
deliveries a read of IC_SYNC makes is log 15's choice, and that a new profile takes its TIME at once log 229's. -/
theorem controllerRegisters : Obligations.ControllerRegisters := by
  unfold Obligations.ControllerRegisters
  refine ⟨fun p fast n t s h => ⟨fun hdone => ?_, fun hp hfast hflight => ?_, exec_icStatusRead h,
    exec_icEvtdropRead h, exec_icTstatRead h⟩, ?_⟩
  · rw [exec_icSyncRead h, icSync_of_done hdone]
  · rw [exec_icSyncRead h, icSync_of_late ⟨hp, hfast, hflight⟩]
  · intro p n v s h hp hn hres w idle same
    have hset := icSrcSet_eq v.toNat s hres
    rw [exec_icSrcWrite h v hp hn]
    exact ⟨fun hallowed => congrArg _ (hset.trans (if_pos (hallowed.imp_left srcIdle_iff.2))), newProfile_of_no_count,
      fun hbusy hchange => congrArg _ (hset.trans (if_neg (not_or.2 ⟨mt srcIdle_iff.1 hbusy, hchange⟩)))⟩

/-! ## Pending and mask bits (R316, R320, R347) -/

theorem getLsbD_one_shiftLeft {k : Nat} (n : Nat) (hk : k < 128) : (1#128 <<< n).getLsbD k = decide (k = n) := by
  rw [← BitVec.twoPow_eq, BitVec.getLsbD_twoPow, Bool.eq_iff_iff]
  simp only [Bool.and_eq_true, decide_eq_true_eq]
  omega

theorem getLsbD_setBit128_true {k : Nat} (v : BitVec 128) (n : Nat) (hk : k < 128) :
    (setBit128 v n true).getLsbD k = (v.getLsbD k || decide (k = n)) := by
  rw [setBit128, if_pos rfl, BitVec.getLsbD_or, getLsbD_one_shiftLeft n hk]

theorem getLsbD_setBit128_false {k : Nat} (v : BitVec 128) (n : Nat) (hk : k < 128) :
    (setBit128 v n false).getLsbD k = (v.getLsbD k && decide (k ≠ n)) := by
  rw [setBit128, if_neg Bool.false_ne_true, BitVec.getLsbD_and, BitVec.getLsbD_not, getLsbD_one_shiftLeft n hk,
    decide_eq_true hk, Bool.true_and, decide_not]

/-- The bit that is set or cleared holds the new value, and every other bit its old one. -/
theorem getLsbD_setBit128 {k : Nat} (v : BitVec 128) (n : Nat) (b : Bool) (hk : k < 128) :
    (setBit128 v n b).getLsbD k = if k = n then b else v.getLsbD k := by
  cases b
  · rw [getLsbD_setBit128_false v n hk]
    split <;> simp [*]
  · rw [getLsbD_setBit128_true v n hk]
    split <;> simp [*]

/-- The first `m` bits of a word written to IC_PENDi or IC_MASKi have been taken over. -/
def firstBitsWrite (s : State) (p : Port) (i v m : Nat) (old : BitVec 128) : BitVec 128 :=
  (List.range m).foldl (fun w b =>
    if portOwnsSrc s p (32 * i + b) then setBit128 w (32 * i + b) (bit v b) else w) old

theorem bitsWrite_eq (s : State) (p : Port) (i v : Nat) (old : BitVec 128) :
    bitsWrite s p i v old = firstBitsWrite s p i v 32 old := rfl

theorem firstBitsWrite_succ (s : State) (p : Port) (i v m : Nat) (old : BitVec 128) :
    firstBitsWrite s p i v (m + 1) old =
      if portOwnsSrc s p (32 * i + m) then setBit128 (firstBitsWrite s p i v m old) (32 * i + m) (bit v m)
      else firstBitsWrite s p i v m old := by
  simp [firstBitsWrite, List.range_succ]

theorem getLsbD_firstBitsWrite {k : Nat} (s : State) (p : Port) (i v m : Nat) (old : BitVec 128) (hk : k < 128) :
    (firstBitsWrite s p i v m old).getLsbD k =
      if 32 * i ≤ k ∧ k < 32 * i + m ∧ portOwnsSrc s p k = true then bit v (k - 32 * i) else old.getLsbD k := by
  induction m with
  | zero =>
    rw [if_neg (by omega)]
    rfl
  | succ m ih =>
    rw [firstBitsWrite_succ]
    by_cases hlast : k = 32 * i + m
    · subst hlast
      cases howns : portOwnsSrc s p (32 * i + m)
      · rw [if_neg Bool.false_ne_true, ih]
        simp [howns]
      · rw [if_pos rfl, getLsbD_setBit128 _ _ _ hk, if_pos rfl]
        simp
    · have hrange : (32 * i ≤ k ∧ k < 32 * i + (m + 1) ∧ portOwnsSrc s p k = true) ↔
          (32 * i ≤ k ∧ k < 32 * i + m ∧ portOwnsSrc s p k = true) :=
        and_congr_right fun _ => and_congr_left fun _ => by omega
      rw [if_congr hrange rfl rfl, ← ih]
      split
      · rw [getLsbD_setBit128 _ _ _ hk, if_neg hlast]
      · rfl

/-- A word written to IC_PENDi or IC_MASKi changes the bits of the sources that the port may change (R320). -/
theorem getLsbD_bitsWrite {k : Nat} (s : State) (p : Port) (i : Nat) (v : Word) (old : BitVec 128) (hk : k < 128) :
    (bitsWrite s p i v.toNat old).getLsbD k =
      if 32 * i ≤ k ∧ k < 32 * i + 32 ∧ portOwnsSrc s p k = true then v.getLsbD (k - 32 * i) else old.getLsbD k :=
  getLsbD_firstBitsWrite s p i v.toNat 32 old hk

section BitWords

variable {p : Port} {s : State} {i : Nat} (v : Word) (h : PortReady p s) (hi : i < 4)
include h hi

/-- Both words of bits may be written from either port. -/
theorem portWriteTx_icBits {base : Nat} (hbase : base = 0x10 ∨ base = 0x20) :
    portWriteTx p (icBase + base + 4 * i) [v] .whole s = icWrite p (base + 4 * i) v.toNat s := by
  have hallowed : icDenied s p (base + 4 * i) v.toNat = false := by
    rw [icDenied, if_neg (by omega), if_neg (by omega), if_neg (by omega), if_neg (by omega), if_neg (by omega)]
  rw [Nat.add_assoc, portWriteTx_ic h (by omega) (icListed_low (by omega) (by omega)) hallowed]

theorem exec_icPendWrite : exec (.icPendWrite p i v) s = .next (icPendSet p i v.toNat s) := by
  refine congrArg _ ((portWriteTx_icBits v h hi (.inl rfl)).trans ?_)
  rw [icWrite, if_neg (by omega), if_neg (by omega), if_pos (by omega), show (0x10 + 4 * i - 0x10) / 4 = i by omega]

theorem exec_icMaskWrite : exec (.icMaskWrite p i v) s = .next (icMaskSet p i v.toNat s) := by
  refine congrArg _ ((portWriteTx_icBits v h hi (.inr rfl)).trans ?_)
  rw [icWrite, if_neg (by omega), if_neg (by omega), if_neg (by omega), if_pos (by omega),
    show (0x20 + 4 * i - 0x20) / 4 = i by omega]

end BitWords

/-- The fields of the word that a row of IC_SETCLR writes, for a source number. -/
theorem setclrWord_spec {v : Word} (reg value : Bool) (hv : v.toNat < 128) :
    (setclrWord v reg value).toNat % 128 = v.toNat ∧ (setclrWord v reg value).toNat / 2 ^ 10 = 0 ∧
      bit (setclrWord v reg value).toNat 7 = false ∧ bit (setclrWord v reg value).toNat 8 = reg ∧
      bit (setclrWord v reg value).toNat 9 = value := by
  have hword : (setclrWord v reg value).toNat = v.toNat + 2 ^ 8 * b2n reg + 2 ^ 9 * b2n value := by
    have hreg : b2n reg ≤ 1 := by cases reg <;> decide
    have hvalue : b2n value ≤ 1 := by cases value <;> decide
    rw [setclrWord, BitVec.toNat_ofNat]
    simp only [bits]
    omega
  rw [hword]
  simp only [bit, Nat.testBit_eq_decide_div_mod_eq]
  cases reg <;> cases value <;> simp [b2n] <;> omega

/-- A row of IC_SETCLR on a source that the port may change. -/
theorem portWriteTx_icSetclr {p : Port} {v : Word} {s : State} (reg value : Bool) (h : PortReady p s)
    (hv : v.toNat < 128) (ho : portOwnsSrc s p v.toNat = true) :
    portWriteTx p (icBase + 4) [setclrWord v reg value] .whole s = icSetclr reg value v.toNat s := by
  obtain ⟨hmod, hhigh, hreserved, hreg, hvalue⟩ := setclrWord_spec reg value hv
  have hallowed : icDenied s p 4 (setclrWord v reg value).toNat = false := by
    rw [icDenied, if_neg (by decide), if_pos rfl, hreserved, hhigh, hmod, ho]
    simp
  rw [portWriteTx_ic h (by decide) rfl hallowed, icWrite, if_neg (by decide), if_pos rfl, hreg, hvalue]
  simp only [icSetclr, hmod, Nat.mod_eq_of_lt hv]

theorem icSetclr_mask {v : Nat} (value : Bool) (s : State) (hv : v < 128) :
    icSetclr true value v s = setMask v value s := by
  simp [icSetclr, Nat.mod_eq_of_lt hv]

theorem icSetclr_pend {v : Nat} {s : State} (value : Bool) (hv : v < 128) (hf : fenced s 7 = false) :
    icSetclr false value v s = setPend v value s := by
  simp [icSetclr, hf, Nat.mod_eq_of_lt hv]

theorem icSetclr_pend_fenced {s : State} (value : Bool) (v : Nat) (hf : fenced s 7 = true) :
    icSetclr false value v s = s := by
  simp [icSetclr, hf]

section Setclr

variable {p : Port} {v : Word} {s : State} (h : PortReady p s) (hv : v.toNat < 128)
  (ho : portOwnsSrc s p v.toNat = true)
include h hv ho

theorem exec_setclrPending (hf : fenced s 7 = false) :
    exec (.setclrSetPending p v) s = .next (setPend v.toNat true s) ∧
      exec (.setclrClearPending p v) s = .next (setPend v.toNat false s) :=
  ⟨congrArg _ ((portWriteTx_icSetclr false true h hv ho).trans (icSetclr_pend true hv hf)),
    congrArg _ ((portWriteTx_icSetclr false false h hv ho).trans (icSetclr_pend false hv hf))⟩

theorem exec_setclrPending_fenced (hf : fenced s 7 = true) :
    exec (.setclrSetPending p v) s = .next s ∧ exec (.setclrClearPending p v) s = .next s :=
  ⟨congrArg _ ((portWriteTx_icSetclr false true h hv ho).trans (icSetclr_pend_fenced true _ hf)),
    congrArg _ ((portWriteTx_icSetclr false false h hv ho).trans (icSetclr_pend_fenced false _ hf))⟩

theorem exec_setclrMask :
    exec (.setclrSetMask p v) s = .next (setMask v.toNat true s) ∧
      exec (.setclrClearMask p v) s = .next (setMask v.toNat false s) :=
  ⟨congrArg _ ((portWriteTx_icSetclr true true h hv ho).trans (icSetclr_mask true s hv)),
    congrArg _ ((portWriteTx_icSetclr true false h hv ho).trans (icSetclr_mask false s hv))⟩

end Setclr

/-- Settles O24: the words of bits by the bits that they take over, and IC_SETCLR by its one bit. -/
theorem pendingAndMaskBits : Obligations.PendingAndMaskBits := by
  unfold Obligations.PendingAndMaskBits
  refine ⟨fun p i v s h hi => ?_, fun p v s h hv ho => ?_⟩
  · rw [exec_icPendWrite v h hi, exec_icMaskWrite v h hi]
    refine ⟨fun hf => ⟨_, congrArg _ (if_neg (by simp [hf])), rfl, fun k hk => getLsbD_bitsWrite s p i v _ hk⟩,
      fun hf => congrArg _ (if_pos hf), ⟨_, rfl, rfl, fun k hk => getLsbD_bitsWrite s p i v _ hk⟩⟩
  · obtain ⟨hset, hclear⟩ := exec_setclrMask h hv ho
    refine ⟨fun hf => ?_, exec_setclrPending_fenced h hv ho, ⟨_, hset, rfl, fun k hk => getLsbD_setBit128_true _ _ hk⟩,
      ⟨_, hclear, rfl, fun k hk => getLsbD_setBit128_false _ _ hk⟩⟩
    obtain ⟨hset, hclear⟩ := exec_setclrPending h hv ho hf
    exact ⟨⟨_, hset, rfl, fun k hk => getLsbD_setBit128_true _ _ hk⟩,
      ⟨_, hclear, rfl, fun k hk => getLsbD_setBit128_false _ _ hk⟩⟩

/-! ## Event records (R313, R335, R339, R341) -/

theorem assocGet_assocSet_same {β : Type} (l : List (Nat × β)) (k : Nat) (v d : β) :
    assocGet (assocSet l k v) k d = v := by
  fun_induction assocSet with
  | case1 => simp [assocGet]
  | case2 => simp [assocGet]
  | case3 => simp [assocGet]
  | case4 j w l hlt hne ih => rw [assocGet, if_neg (Ne.symm hne), ih]

/-- A counter after an addition to it (R775). -/
theorem ctrGet_ctrAdd_same (id n : Nat) (s : State) :
    ctrGet (ctrAdd id n s) id = min 0xFFFFFFFF (ctrGet s id + n) := by
  have hvals : (ctrAdd id n s).ctr.vals = assocSet s.ctr.vals id (min 0xFFFFFFFF (ctrGet s id + n)) := by
    simp only [ctrAdd]
    split <;> simp
  rw [ctrGet, hvals, assocGet_assocSet_same]

theorem tenant_onTenant_same {n : Nat} {s : State} (f : Tenant → Tenant) (h : n < s.tenants.length) :
    tenant (onTenant n f s) n = f (tenant s n) :=
  nth_modAt_same f _ h

/-- A doorbell has no place for its record: the owner is disabled, or its ring has no entry or no free one. -/
def EventDropped (n : Nat) (s : State) : Prop :=
  enabled s n = false ∨ (tenant s n).place.evtN = 0 ∨
    ringUsed (tenant s n).evtProd (tenant s n).evtCons (tenant s n).place.evtN = (tenant s n).place.evtN

/-- Basin address of a tenant's next event record. -/
def eventAddr (n : Nat) (s : State) : Nat :=
  let t := tenant s n
  t.place.baseAddr + t.place.evtOff + 16 * (t.evtProd % t.place.evtN)

/-- The bytes of an event record (R335). -/
def eventBytes (d : Doorbell) (s : State) : List Byte :=
  let n := srcOwner s d.src
  let t := tenant s n
  le 1 d.src ++ le 1 (b2n t.evtLost + 2 * b2n d.byPort) ++ le 1 n ++ le 1 0
    ++ le 4 t.evtSeq ++ le 4 (stamp s) ++ le 4 d.pay.toNat

theorem length_eventBytes (d : Doorbell) (s : State) : (eventBytes d s).length = 16 := by simp [eventBytes]

section Record

variable {d : Doorbell} {s : State}

theorem writeRecord_of_dropped (h : EventDropped (srcOwner s d.src) s) :
    writeRecord d s = ctrAdd (0x10 + srcOwner s d.src) 1 (onTenant (srcOwner s d.src) (fun t =>
      { t with evtSeq := (t.evtSeq + 1) % 2 ^ 32, evtLost := true }) s) := by
  refine if_pos ?_
  rcases h with h | h | h <;> simp [h]

theorem writeRecord_of_room (h : ¬ EventDropped (srcOwner s d.src) s) :
    writeRecord d s = onTenant (srcOwner s d.src) (fun t =>
      { t with
        evtProd := (t.evtProd + 1) % (2 * t.place.evtN), evtSeq := (t.evtSeq + 1) % 2 ^ 32, evtLost := false })
      (basinWrite (eventAddr (srcOwner s d.src) s) (eventBytes d s) s) := by
  refine if_neg fun hc => h ?_
  simp only [Bool.or_eq_true, Bool.not_eq_true', beq_iff_eq] at hc
  rcases hc with (hc | hc) | hc
  · exact .inl hc
  · exact .inr (.inr hc)
  · exact .inr (.inl hc)

/-- A byte of the Basin after a record has been written. -/
theorem basinByte_writeRecord_of_room (h : ¬ EventDropped (srcOwner s d.src) s) (hwf : s.basin.wf) (b : Nat) :
    basinByte (writeRecord d s) b =
      if eventAddr (srcOwner s d.src) s ≤ b ∧ b < eventAddr (srcOwner s d.src) s + 16 ∧ b < basinSize then
        nth (eventBytes d s) (b - eventAddr (srcOwner s d.src) s) 0
      else basinByte s b := by
  have hbyte := basinByte_basinWrite (eventAddr (srcOwner s d.src) s) b (eventBytes d s) hwf
  rw [length_eventBytes] at hbyte
  rw [writeRecord_of_room h]
  exact hbyte

end Record

/-- Settles O26: the record by what a byte reads after a write, and the drop by its tenant and its counter. -/
theorem eventRecord : Obligations.EventRecord := by
  unfold Obligations.EventRecord
  intro d s hwf hn n t g a bytes dropped
  refine ⟨fun hroom hsize => ⟨fun i hi => ?_, fun b hb => ?_, ?_⟩, fun hdrop => ⟨?_, ?_, ?_⟩⟩
  · rw [basinByte_writeRecord_of_room hroom hwf]
    exact (if_pos (by change a ≤ a + i ∧ a + i < a + 16 ∧ a + i < basinSize; omega)).trans
      (congrArg (nth bytes · 0) (Nat.add_sub_cancel_left a i))
  · rw [basinByte_writeRecord_of_room hroom hwf]
    exact if_neg (by change ¬ (a ≤ b ∧ b < a + 16 ∧ b < basinSize); omega)
  · rw [writeRecord_of_room hroom]
    exact tenant_onTenant_same _ hn
  · rw [writeRecord_of_dropped hdrop]
    simp
  · rw [writeRecord_of_dropped hdrop, tenant, ctrAdd_tenants]
    exact tenant_onTenant_same _ hn
  · rw [writeRecord_of_dropped hdrop, ctrGet_ctrAdd_same]
    simp only [ctrGet, onTenant_ctr, n]

end Sys2Proof.Machine

/-! # The measurements of the HF chain, and the frames of both readers

First what an event of the HF chain may rest on, and the row of a tenant that holds its chain, then one rule for each
measurement and each moment of a frame, and then the two statements. -/

namespace Sys2Proof.Machine

open Sys2Proof

/-- For a tenant that holds the chain's lease a row does what it is for. -/
theorem onLeased_of_ready {c : Chain} {op : Nat} {e : Exec} {s : State} (f : Exec → State → State)
    (h : ReadyLeased c op e s) : onLeased c op f s = f e s := by
  obtain ⟨hready, hholds⟩ := h
  rw [onLeased, onFresh_of_ready _ hready]
  exact if_pos hholds

/-- The packet that takes an event of the HF chain changes nothing but the lane that the event meets. -/
theorem onHfEvent_congr {f g : State → State} {s : State} (h : ∀ k, f (s.onHfLane k) = g (s.onHfLane k)) :
    onHfEvent f s = onHfEvent g s := by
  have hs : f s = g s := h id
  unfold onHfEvent withWaiting
  split
  · exact hs
  · split
    · exact hs
    · exact congrArg (onLane .hf (parkOut (execOf s .hf))) (h _)

/-! ## The matching measurement (R377–R379) -/

section Matching

variable {phi : Int} {m : Nat} {s : State}

theorem exec_mismatchMeasurement (hdue : measureDue s = true) :
    exec (.mismatchMeasurement phi m) s = .next (mismatchMeasured phi m s) :=
  congrArg _ (if_pos hdue)

theorem mismatchMeasured_of_matched (h : mismatched s phi m = false) : mismatchMeasured phi m s = s.onHf fun x =>
    { x with phi := phi, mag := m, measAt := s.time + 100, bad := 0, alarm := false } := by
  simp [mismatchMeasured, h]

/-- Fewer than three measurements in a row, or an alarm that stands, raise nothing. -/
theorem mismatchMeasured_of_no_alarm (h : mismatched s phi m = true) (hquiet : s.hf.bad < 2 ∨ s.hf.alarm = true) :
    mismatchMeasured phi m s = s.onHf fun x =>
      { x with phi := phi, mag := m, measAt := s.time + 100, bad := x.bad + 1 } :=
  (if_pos h).trans (if_neg fun ⟨hthird, hnone⟩ => by
    simp only [State.onHf_hf] at hthird hnone
    rcases hquiet with hfew | halarm
    · omega
    · simp [halarm] at hnone)

theorem mismatchMeasured_of_alarm (h : mismatched s phi m = true) (hthird : 2 ≤ s.hf.bad)
    (hnone : s.hf.alarm = false) : mismatchMeasured phi m s =
      autoRetune (raise 19 (mismatchPayload phi m) (s.onHf fun x =>
        { x with phi := phi, mag := m, measAt := s.time + 100, bad := x.bad + 1, alarm := true })) :=
  (if_pos h).trans (if_pos ⟨Nat.succ_le_succ hthird, hnone⟩)

end Matching

/-! ## HF_TUNE with given codes (R384, R413) -/

section Tune

variable {ms : List (Int × Nat)} {iAnt : Nat} {e : Exec} {body : List Byte} {s : State}

/-- Mode 2 sets its codes in place of a retune that runs (log 53). -/
theorem hfTune_of_codes (hmode : Packet8 e.pkt 0 = 2) (hcs : Packet8 e.pkt 1 ≤ 63) (hcp : Packet8 e.pkt 2 ≤ 63) :
    hfTune ms iAnt e s = tuneSet e (tuneOutcome e ms iAnt (abandonRetune s)) (abandonRetune s) := by
  have hvalid : ¬ (63 < Packet8 e.pkt 1 ∨ 63 < Packet8 e.pkt 2) := by omega
  simp [hfTune, hmode, hvalid]

theorem tuneSet_of_no_frame (h : hfFrameRuns s = false) :
    tuneSet e body s = finish .hf 0 body none (tuneApply e body s) := by
  simp [tuneSet, h]

theorem tuneSet_of_codes_in_frame (h : hfFrameRuns s = true) (hmode : Packet8 e.pkt 0 = 2) :
    tuneSet e body s = setPhase .hf (.tuneWait body)
      (s.onHf fun x => { x with nextCodes := some (Packet8 e.pkt 1, Packet8 e.pkt 2) }) := by
  simp [tuneSet, h, hmode]

end Tune

/-! ## Low-power card detection (R398–R405) -/

section Lpcd

variable {a n : Nat} {e : Exec} {s : State}

/-- HF_LPCD_ARM with RUN_NOW and without REBASE, on a chain that is free for it. -/
theorem lpcdArm_of_run (hperiod : 10 ≤ Packet16 e.pkt 0 ∧ Packet16 e.pkt 0 ≤ 1000) (hamp : 1 ≤ Packet8 e.pkt 2)
    (hphase : 1 ≤ Packet8 e.pkt 3 ∧ Packet8 e.pkt 3 ≤ 63) (hconfirm : 1 ≤ Packet8 e.pkt 4 ∧ Packet8 e.pkt 4 ≤ 4)
    (hrun : bit (Packet8 e.pkt 5) 0 = true) (hbase : bit (Packet8 e.pkt 5) 2 = false)
    (hholds : holds s .hf e.pkt.tenant = true) (hdark : hfEmits s = false) (hfree : hfBusy s = false) :
    lpcdArm e s = finish .hf 0 (lpcdBody (lpcdStore e.pkt s)) none (lpcdStore e.pkt s) := by
  have hvalid : ¬ (Packet16 e.pkt 0 < 10 ∨ 1000 < Packet16 e.pkt 0 ∨ Packet8 e.pkt 2 = 0 ∨ Packet8 e.pkt 3 = 0 ∨
      63 < Packet8 e.pkt 3 ∨ Packet8 e.pkt 4 = 0 ∨ 4 < Packet8 e.pkt 4) := by omega
  simp [lpcdArm, hrun, hbase, hholds, hdark, hfree, hvalid]

theorem exec_lpcdMeasurement_of_held (h : fenced s 0 = true ∨ nowAon s < s.hf.lpcd.next) :
    exec (.lpcdMeasurement a n) s = .next s :=
  congrArg _ (if_pos h)

theorem exec_lpcdMeasurement_of_due (hserved : fenced s 0 = false) (hdue : s.hf.lpcd.next ≤ nowAon s) :
    exec (.lpcdMeasurement a n) s = .next (lpcdMeasured a n s) :=
  congrArg _ (if_neg (by simp [hserved, hdue]))

/-- A run compares each measurement but one that is discarded. -/
theorem lpcdMeasured_of_run (hbase : baselining s = none) (hrun : s.hf.lpcd.run = true) : lpcdMeasured a n s =
    if lpcdDiscard s then lpcdNext (1000 * s.hf.lpcd.period) s else lpcdCompare a n s := by
  unfold lpcdMeasured
  rw [hbase]
  exact if_pos (.inl hrun)

end Lpcd

/-! ## AGC (R388–R392, R450–R452) -/

section Agc

variable {c : Chain} {peak : Nat} {clip : Bool} {v : AgcView} {s : State}

/-- The AGC of a chain does not rest on the lane of the HF chain. -/
theorem agcView_onHfLane (k : Lane → Lane) : agcView (s.onHfLane k) c = agcView s c := by
  cases c <;> rfl

theorem agcWindow_of_clip (hv : agcView s c = v) (hauto : v.auto = true) (hruns : v.runs = true) (hgain : 0 < v.gain) :
    agcWindow c peak true s = gainStep c (v.gain - 2) true s := by
  subst hv
  simp [agcWindow, hauto, hruns, hgain.ne']

theorem agcWindow_of_high (hv : agcView s c = v) (hauto : v.auto = true) (hruns : v.runs = true) (hgain : 0 < v.gain)
    (hhigh : v.high ≤ peak) : agcWindow c peak false s = gainStep c (v.gain - 1) false s := by
  subst hv
  simp [agcWindow, hauto, hruns, hgain.ne', hhigh]

/-- The window that completes the dwell below both thresholds. -/
theorem agcWindow_of_low (hv : agcView s c = v) (hauto : v.auto = true) (hruns : v.runs = true) (hgain : v.gain < v.top)
    (hhigh : peak < v.high) (hlow : peak < v.low) (hdwell : v.dwellDone = true) :
    agcWindow c peak false s = gainStep c (v.gain + 1) false s := by
  subst hv
  simp [agcWindow, hauto, hruns, hgain, hhigh.not_ge, hlow.not_ge, hdwell]

/-- A window of the HF chain is also one of the external field. -/
def windowEnd (c : Chain) (peak : Nat) (s : State) : State :=
  match c with
  | .hf => extWindow peak s
  | .uhf => s

theorem exec_agcWindow_of_window {g : State → State}
    (h : ∀ k, agcWindow c peak clip (s.onHfLane k) = g (s.onHfLane k)) :
    exec (.agcWindow c peak clip false) s = .next (onHfEvent (fun x => windowEnd c peak (g x)) s) :=
  congrArg _ (onHfEvent_congr fun k => by
    cases c
    · exact congrArg (extWindow peak) (h k)
    · exact h k)

/-- With a start of frame the gain stands, and a capture may begin. -/
theorem exec_agcWindow_of_sof :
    exec (.agcWindow c peak clip true) s =
      .next (onHfEvent (fun x => windowEnd c peak (captureSof c (sofSeen c x))) s) := rfl

theorem agcView_sofSeen_hf (s : State) : (agcView (sofSeen .hf s) .hf).runs = false := by
  by_cases h : s.hf.radio = .listen ∨ s.hf.radio = .rx
  · simp [sofSeen, agcView, h]
  · simp [sofSeen, agcView, not_or.1 h]

theorem agcView_sofSeen_uhf (h : s.uhf.radio ≠ .listen) : (agcView (sofSeen .uhf s) .uhf).runs = false := by
  by_cases hrx : s.uhf.radio = .rx
  · simp [sofSeen, agcView, hrx]
  · simp [sofSeen, agcView, hrx, h]

end Agc

/-! ## The external field (R389, R396, R650; log 52) -/

section External

variable {peak : Nat} {s : State}

theorem extWindow_of_found (hlisten : s.hf.radio = .listen) (hpeak : extCode s ≤ peak) (hlow : extLowCode s ≤ peak)
    (hnone : s.hf.ext = false) : extWindow peak s =
      peerFieldSeen (emuField (raise 22 1 (s.onHf fun h => { h with ext := true, extSeen := s.time }))) := by
  simp only [extWindow, hlisten, ne_eq, not_true_eq_false, if_false, hlow, if_true, hpeak, hnone, and_self]
  rfl

/-- Between the two levels the field is no more than kept. -/
theorem extWindow_of_kept (hlisten : s.hf.radio = .listen) (hpeak : peak < extCode s) (hlow : extLowCode s ≤ peak) :
    extWindow peak s = s.onHf fun h => { h with extSeen := s.time } := by
  simp [extWindow, hlisten, hpeak.not_ge, hlow]

theorem extWindow_of_below (hlisten : s.hf.radio = .listen) (hpeak : peak < extCode s) (hlow : peak < extLowCode s) :
    extWindow peak s = s := by
  simp [extWindow, hlisten, hpeak.not_ge, hlow.not_ge]

theorem exec_externalFieldGone_of_lost (hlisten : s.hf.radio = .listen) (hext : s.hf.ext = true)
    (hover : s.hf.extSeen + 1000 ≤ s.time) : exec .externalFieldGone s =
      .next (onHfEvent (fun x => emuFieldLost (raise 22 0 (x.onHf fun h => { h with ext := false }))) s) :=
  congrArg _ (onHfEvent_congr fun _ => if_pos ⟨hlisten, hext, hover⟩)

theorem exec_externalFieldGone_of_recent (hrecent : s.time < s.hf.extSeen + 1000) :
    exec .externalFieldGone s = .next (onHfEvent id s) :=
  congrArg _ (onHfEvent_congr fun _ => if_neg fun ⟨_, _, hover⟩ => hrecent.not_ge hover)

end External

/-- Settles O50: each measurement by its own rule, then the external field by where the peak lies. That a HF_TUNE with
codes ends a retune is log 53's reading, that a measurement without its chain is discarded log 56's, and what is an
external field in LISTEN log 52's. -/
theorem hfMeasurements : Obligations.HfMeasurements := by
  unfold Obligations.HfMeasurements
  refine ⟨fun phi m a n peak ms iAnt c e s => ⟨fun hdue => ?matching, fun hready hmode hcs hcp => ?tune, ?arm,
    fun hserved hdue hbase hrun => ?measured, exec_lpcdMeasurement_of_held, fun hauto hruns => ?agc,
    agcView_sofSeen_hf s, agcView_sofSeen_uhf⟩, fun peak s hlisten => ?external⟩
  case matching =>
    rw [exec_mismatchMeasurement hdue]
    exact ⟨fun h => congrArg _ (mismatchMeasured_of_matched h),
      fun h hquiet => congrArg _ (mismatchMeasured_of_no_alarm h hquiet),
      fun h hthird hnone => congrArg _ (mismatchMeasured_of_alarm h hthird hnone)⟩
  case tune =>
    have htune := (onLeased_of_ready (hfTune ms iAnt) hready).trans (hfTune_of_codes hmode hcs hcp)
    exact ⟨fun hquiet => congrArg _ (htune.trans (tuneSet_of_no_frame hquiet)),
      fun hframe => congrArg _ (htune.trans (tuneSet_of_codes_in_frame hframe hmode))⟩
  case arm =>
    intro fl hready hmin hmax hamp hphase hphase' hconfirm hconfirm' hrun hbase hholds hdark hfree
    exact nextFresh_of_ready hready (lpcdArm_of_run ⟨hmin, hmax⟩ hamp ⟨hphase, hphase'⟩ ⟨hconfirm, hconfirm'⟩ hrun hbase
      hholds hdark hfree)
  case measured =>
    rw [exec_lpcdMeasurement_of_due hserved hdue, lpcdMeasured_of_run hbase hrun]
    exact ⟨fun hkept => by simp [hkept], fun hdiscard => by simp [hdiscard]⟩
  case agc =>
    exact ⟨fun hgain hhigh => exec_agcWindow_of_window fun k =>
        agcWindow_of_high (agcView_onHfLane k) hauto hruns hgain hhigh,
      fun hgain => exec_agcWindow_of_window fun k => agcWindow_of_clip (agcView_onHfLane k) hauto hruns hgain,
      fun hgain hhigh hlow hdwell => exec_agcWindow_of_window fun k =>
        agcWindow_of_low (agcView_onHfLane k) hauto hruns hgain hhigh hlow hdwell,
      fun clip => exec_agcWindow_of_sof⟩
  case external =>
    exact ⟨rfl, extWindow_of_found hlisten, extWindow_of_kept hlisten, extWindow_of_below hlisten,
      exec_externalFieldGone_of_lost hlisten, exec_externalFieldGone_of_recent⟩

/-! ## The end of an own frame and of its window (R367, R487, R491) -/

section FrameEnds

variable {f : HfFrame} {g : UhfFrame} {t : Nat} {s : State}

theorem hfFrameEnd_of_frame (h : s.hf.tx = some f) : hfFrameEnd s =
    hfSentFrame f ((if hfEmits s then captureFrameEnd .hf else id) (s.onHf fun x =>
      { x with tx := none, radio := if hfEmits s then .rx else .listen })) := by
  rw [hfFrameEnd, h]
  cases hfEmits s <;> rfl

theorem exec_readerFrameEnd_hf (h : s.hf.tx = some f) : exec (.readerFrameEnd .hf) s =
    .next (onHfEvent (fun x => hfSentFrame f ((if hfEmits x then captureFrameEnd .hf else id) (x.onHf fun h =>
      { h with tx := none, radio := if hfEmits x then .rx else .listen }))) s) :=
  congrArg _ (onHfEvent_congr fun k => hfFrameEnd_of_frame (s := s.onHfLane k) h)

/-- A frame with an answer to come opens its reply window. -/
theorem exec_readerFrameEnd_uhf (h : s.uhf.tx = some g) (hreply : uhfNoReply g = false) :
    exec (.readerFrameEnd .uhf) s =
      .next ((captureFrameEnd .uhf (s.onUhf fun u => { u with tx := none, radio := .rx })).onUhf fun u =>
        { u with wait := some (s.time + u.waitLen) }) := by
  change Host.Outcome.next (uhfFrameEnd s) = _
  simp [uhfFrameEnd, h, hreply]

theorem windowOver_of_le (h : t ≤ s.time) : windowOver s (some t) = true := by
  simp [windowOver, h]

theorem exec_replyWindowTimeout_hf (hwait : s.hf.wait = some t) (hover : t ≤ s.time) :
    exec (.replyWindowTimeout .hf) s = .next (onHfEvent hfSilence s) :=
  congrArg _ (if_pos (hwait ▸ windowOver_of_le hover))

theorem exec_replyWindowTimeout_uhf (hwait : s.uhf.wait = some t) (hover : t ≤ s.time) :
    exec (.replyWindowTimeout .uhf) s = .next (uhfSilence s) :=
  congrArg _ (if_pos (hwait ▸ windowOver_of_le hover))

end FrameEnds

/-! ## A received frame (R487–R493, R800) -/

section Received

variable {res : FrameResult} {m : RxMeas} {t : Nat} {s : State}

/-- A frame that the open window of a reader takes. -/
theorem exec_hfRxFrame_of_window {ans : HfAnswer} {clip : Bool} (hres : res ≠ .noSof) (hwait : s.hf.wait = some t)
    (hsent : s.hf.tx = none) (hreader : hfBusy s = false) : exec (.hfRxFrame res ans m clip) s =
      let r := rxJudged s res ans
      let q := linkQuality s r m (hfNoise s)
      .next (hfContinue r (some ans) q.1 q.2 (cardHeard q.1 q.2
        (hfBoundary ((gatherHf r q.1 m.carrier (clipEvents clip (countHf r s.useFree))).onHf fun h =>
          { h with wait := none, sof := false, gapNs := 1000 * s.time + hfGap s })))) :=
  congrArg _ ((if_neg hres).trans (if_neg (by simp [hwait, hsent, hreader])))

theorem rxJudged_of_no_packet {ans : HfAnswer} (h : (hfOwner s).bind (execOf s) = none) : rxJudged s res ans = res := by
  rw [rxJudged, h]

theorem exec_uhfRxFrame_of_window {ans : UhfAnswer} (hres : res ≠ .noSof) (hwait : s.uhf.wait = some t)
    (hsent : s.uhf.tx = none) (hlit : uhfLit s = true) : exec (.uhfRxFrame res ans m) s =
      let q := linkQuality s res m (uhfNoise s)
      .next (uhfContinue res (some ans) q.1 q.2
        (uhfBoundary ((gatherUhf res q.1 (countUhf res s.useFree)).onUhf fun u =>
          { u with wait := none, sof := false, gapNs := 1000 * s.time + uhfGap s }))) :=
  congrArg _ ((if_neg hres).trans (if_neg (by simp [hwait, hsent, hlit])))

end Received

/-- Settles O52: each chain's frame end, received frame and window's end by its own rule. Where a frame boundary lies is
log 17's reading, and that the gap is kept in ns log 194's. -/
theorem readerFrames : Obligations.ReaderFrames := by
  unfold Obligations.ReaderFrames
  exact fun f g res ans ua m clip at_ s => ⟨exec_readerFrameEnd_hf, exec_readerFrameEnd_uhf, exec_hfRxFrame_of_window,
    rxJudged_of_no_packet, exec_uhfRxFrame_of_window, exec_replyWindowTimeout_hf, exec_replyWindowTimeout_uhf⟩

end Sys2Proof.Machine

/-! # The carrier of the UHF chain, its synthesiser, visits, listening and reflections

First what an event of the UHF chain may rest on and what a fall leaves, then one rule for each command and moment, and
then the two statements. -/

namespace Sys2Proof.Machine

open Sys2Proof

/-- The packet that takes an event changes nothing but the lane that the event meets. -/
theorem withWaiting_congr {l : LaneId} {who : Exec → Bool} {f g : State → State} {s : State}
    (h : ∀ k, f (onLane l k s) = g (onLane l k s)) : withWaiting l who f s = withWaiting l who g s := by
  have hs : f s = g s := by
    have hid := h id
    cases l <;> exact hid
  unfold withWaiting
  split
  · exact hs
  · split
    · exact hs
    · exact congrArg (onLane l (parkOut (execOf s l))) (h _)

/-! ## UHF_CARRIER (R419, R457–R459) -/

section Carrier

variable {e : Exec} {why : FallFor} {fwd : Int} {rl : Nat} {s : State}

@[simp] theorem powerApply_uhf (l : LaneId) (id v : Nat) (c : Checked) (s : State) :
    (powerApply l id v c s).uhf = s.uhf := by
  simp only [powerApply, onExec_uhf]
  cases c.apply <;> rfl

/-- A carrier that falls emits to the end of its fall, and what is off stays off. -/
@[simp] theorem uhfEmits_uhfFall (why : FallFor) (s : State) : uhfEmits (uhfFall why s) = uhfEmits s := by
  fun_cases uhfFall
  case case3 hemits _ _ => simpa [uhfEmits] using hemits
  all_goals simp [uhfEmits, giveUpRise, setUhfGrant]

theorem uhfFall_fallEnd_of_starts (hemits : uhfEmits s = true) (hnone : s.uhf.falling = none) :
    (uhfFall why s).uhf.fallEnd = s.time + 30 := by
  simp [uhfFall, hemits, hnone]

/-- A fall under way keeps its moment, whatever asks for another. -/
theorem uhfFall_fallEnd_of_falling (h : s.uhf.falling.isSome = true) :
    (uhfFall why s).uhf.fallEnd = s.uhf.fallEnd := by
  obtain ⟨was, hwas⟩ := Option.isSome_iff_exists.1 h
  simp only [uhfFall, hwas]
  split <;> rfl

/-- The output that action 0 names is kept for the next carrier (R458). -/
def offPowerKept (e : Exec) (s : State) : State :=
  let v := Packet32 e.pkt 4
  if v = 0 then s else powerApply .uhf 0x300 v (powerCheck s e.pkt.tenant false 0x300 v) s

theorem uhfOff_eq (e : Exec) (s : State) : uhfOff e s =
    if uhfEmits s then setPhase .uhf .carrierFall (uhfFall .off (offPowerKept e s))
    else finish .uhf 0 (uhfCarrierBody (uhfFall .off (offPowerKept e s))) none (uhfFall .off (offPowerKept e s)) := by
  have hkept : uhfEmits (offPowerKept e s) = uhfEmits s := by
    simp only [offPowerKept]
    split <;> simp [uhfEmits]
  rw [← hkept, ← uhfEmits_uhfFall .off]
  rfl

theorem uhfCarrier_of_off (h : Packet8 e.pkt 0 = 0) : uhfCarrier e s = uhfOff e s := by
  simp [uhfCarrier, h]

/-- Action 1 lights a carrier that is off and that the charter permits. -/
theorem uhfCarrier_of_on (h : Packet8 e.pkt 0 = 1) (hserved : s.uhf.blocked = false)
    (hcharter : (charter s).isSome = true) (hchannel : channelOk s s.uhf.mode s.uhf.index = true)
    (hdark : carrierOn s = false) (hallowed : uhfAllowed s = true) (hnone : s.uhf.falling = none) :
    uhfCarrier e s = uhfLight e s := by
  simp [uhfCarrier, h, hserved, Option.isSome_iff_ne_none.1 hcharter, hchannel, hdark, hallowed, hnone]

theorem exec_carrierRiseDone (hrising : s.uhf.rising = true) (hend : s.uhf.riseEnd ≤ s.time) :
    exec (.carrierRiseDone fwd rl) s = .next (onUhfEvent (carrierUp fwd rl) s) :=
  congrArg _ (withWaiting_congr fun k => by simp [hrising, hend])

theorem exec_carrierFallDone (hfalling : s.uhf.falling = some why) (hend : s.uhf.fallEnd ≤ s.time) :
    exec .carrierFallDone s = .next (onUhfEvent (fun x => uhfFell why (uhfCarrierGone x)) s) :=
  congrArg _ (withWaiting_congr fun k => by simp [hfalling, hend])

end Carrier

/-! ## The channel and its divider (R417, R421, R436, R461, R462) -/

section Channel

variable {e : Exec} {c : Charter} {i : Nat} {s : State}

theorem uhfSetChannel_of_dark (hmode : Packet8 e.pkt 0 ≤ 1) (hindex : Packet8 e.pkt 0 = 1 → Packet8 e.pkt 1 = 0)
    (hchannel : channelOk s (Packet8 e.pkt 0) (Packet8 e.pkt 1) = true) (hdark : uhfEmits s = false) :
    uhfSetChannel e s =
      let u := applyChannel (Packet8 e.pkt 0) (Packet8 e.pkt 1) (s.onUhf fun x => { x with riseWait := .none })
      finish .uhf 0 (uhfChannelBody u) none (uhfTryRise u) := by
  have hvalid : ¬ (1 < Packet8 e.pkt 0 ∨ Packet8 e.pkt 0 = 1 ∧ Packet8 e.pkt 1 ≠ 0) :=
    not_or.2 ⟨hmode.not_gt, fun ⟨h, hne⟩ => hne (hindex h)⟩
  simp only [uhfSetChannel, hvalid, hchannel, hdark, if_false, Bool.not_true, Bool.false_eq_true]

/-- A remainder of 6779 kHz, the largest, still rounds to less than a whole step. -/
theorem dividerOf_frac_lt (f : Nat) : (dividerOf f).2 < 2 ^ 24 := by
  simp only [dividerOf, roundDiv]
  omega

/-- The divider is the nearest one to the frequency (R421). -/
theorem dividerOf_nearest (f : Nat) :
    6780 * ((dividerOf f).1 * 2 ^ 24 + (dividerOf f).2) ≤ f * 2 ^ 24 + 3390 ∧
      f * 2 ^ 24 ≤ 6780 * ((dividerOf f).1 * 2 ^ 24 + (dividerOf f).2) + 3390 := by
  simp only [dividerOf, roundDiv]
  omega

theorem setDivider_of_charter (h : s.chr.inForce = some c) : setDivider s = s.onUhf fun u =>
    { u with
      divN := (dividerOf (nth c.raster s.uhf.index 0)).1, divF := (dividerOf (nth c.raster s.uhf.index 0)).2 } := by
  rw [setDivider, h]

theorem setIndex_of_charter (h : s.chr.inForce = some c) : setIndex i s = s.onUhf fun u =>
    { u with
      index := i, readyAt := if u.synth = .locked ∧ u.index ≠ i then s.time + 45 else u.readyAt
      divN := (dividerOf (nth c.raster i 0)).1, divF := (dividerOf (nth c.raster i 0)).2 } :=
  setDivider_of_charter (s := s.onUhf _) h

end Channel

/-- Settles O53: the two actions of UHF_CARRIER, UHF_SET_CHANNEL, the divider of a channel, and the ends of rise and
fall, each by its own rule. -/
theorem uhfCarrierOnAndOff : Obligations.UhfCarrierOnAndOff := by
  unfold Obligations.UhfCarrierOnAndOff
  refine fun e fwd rl why s => ⟨fun hready haction => ?off, fun hready haction hserved hcharter hchannel hdark hallowed
    hnone hroom => ?on, fun hready hmode hindex hchannel hdark => ?channel, fun i c hc => ?divider, exec_carrierRiseDone,
    uhfFall_fallEnd_of_starts, uhfFall_fallEnd_of_falling, exec_carrierFallDone⟩
  case off =>
    have hoff := (onLeased_of_ready uhfCarrier hready).trans ((uhfCarrier_of_off haction).trans (uhfOff_eq e s))
    exact ⟨fun hemits => congrArg _ (hoff.trans (if_pos hemits)),
      fun hdark => congrArg _ (hoff.trans (if_neg (by simp [hdark])))⟩
  case on =>
    have hlight := uhfCarrier_of_on haction hserved hcharter hchannel hdark hallowed hnone
    exact congrArg _ ((onLeased_of_ready uhfCarrier hready).trans (hlight.trans (if_neg (by simp [hroom]))))
  case channel =>
    exact congrArg _ ((onLeased_of_ready uhfSetChannel hready).trans (uhfSetChannel_of_dark hmode hindex hchannel hdark))
  case divider =>
    obtain ⟨hbelow, habove⟩ := dividerOf_nearest (nth c.raster i 0)
    rw [setIndex_of_charter hc]
    exact ⟨rfl, dividerOf_frac_lt _, hbelow, habove, fun hlocked hother => if_pos ⟨hlocked, hother⟩⟩

/-! ## The synthesiser (R423–R425, R562, R563) -/

section Synthesiser

variable {band : Nat} {s : State}

theorem exec_synthLocked_of_starting (h : s.uhf.synth = .starting) :
    let w := if s.uhf.relock then synthRecal s.uhf.index (freeBelow s 256) s.useFree else s
    let u := settleRadio .uhf (setPll .uhf .locked (w.onUhf fun x => { x with relock := false }))
    exec .synthLocked s = .next (uhfTryRise (grantLocked .uhf (raise 48 (synthPayload u (s.uhf.mode == 1)) u))) :=
  congrArg _ (if_pos h)

theorem exec_synthUnlock_of_second (hlocked : s.uhf.synth = .locked) (hsecond : secondUnlock s = true) :
    exec .synthUnlock s = .next (fenceUnit 1 5 0 (raise 49 (synthPayload s true) s)) :=
  congrArg _ ((if_neg (not_not.2 hlocked)).trans (if_pos hsecond))

theorem exec_synthUnlock_of_first (hlocked : s.uhf.synth = .locked) (hfirst : secondUnlock s = false) :
    exec .synthUnlock s = .next (settleRadio .uhf (setPll .uhf .starting (raise 49 (synthPayload s false)
      (uhfFall .relock (s.onUhf fun u =>
        { u with
          unlockAt := some s.time, relock := true
          riseWait := if resting s || u.riseWait == .channel then u.riseWait else .none }))))) :=
  congrArg _ ((if_neg (not_not.2 hlocked)).trans (if_neg (by simp [hfirst])))

theorem exec_synthRecal_of_run (hrun : s.tow.recalRun = true) (hmay : recalMayRun s = true) :
    exec (.synthRecal band) s = .next (recalTick (synthRecal s.uhf.index (band % 256) s)) :=
  congrArg _ (if_pos (by simp [hrun, hmay]))

theorem recalMayRun_iff :
    recalMayRun s = true ↔ s.tow.recalDue = true ∧ s.uhf.radio = .synth ∧ s.uhf.synth = .locked ∧
      uhfEmits s = false ∧ s.uhf.held = none ∧ s.uhf.riseWait ≠ .check ∧ s.uhf.riseWait ≠ .change := by
  simp [recalMayRun, and_assoc]

end Synthesiser

/-! ## Visits (R426–R432, R435) -/

section Visits

variable {t : Nat} {s : State}

theorem exec_dwellSoftPoint_of_reached (hlit : uhfLit s = true) (hvisit : s.uhf.visitFrom = some t)
    (hdue : s.uhf.hopDue = false) (hfree : s.cal.holding = none) (hreached : hardLimit s - hopGuard s ≤ visitTime s) :
    exec .dwellSoftPoint s = .next (s.onUhf fun u => { u with hopDue := true }) :=
  congrArg _ (if_pos ⟨hlit, by simp [hvisit], hdue, by simp [hfree], hreached⟩)

theorem exec_hop_of_due (hdue : s.uhf.hopDue = true) (hlit : uhfLit s = true) (hquiet : uhfInFrame s = false)
    (hrisen : s.uhf.rising = false) : exec .hop s = .next (breakRound (moveOn true s)) :=
  congrArg _ (if_pos (by simp [hopReady, hdue, hlit, hquiet, hrisen]))

theorem exec_dwellLimit_of_reached (hlit : uhfLit s = true) (hfree : s.cal.holding = none)
    (hvisit : s.uhf.visitFrom = some t) (hreached : hardLimit s ≤ visitTime s) :
    exec .dwellLimit s = .next (breakRound (moveOn false (raise 52 s.uhf.index s))) :=
  congrArg _ (if_pos (by simp [limitReached, hlit, hfree, hvisit, hreached]))

theorem exec_restEnd_of_over (hrest : s.uhf.riseWait = .rest) (hover : s.uhf.restUntil ≤ s.time) :
    exec .restEnd s = .next (uhfTryRise (s.onUhf fun u => { u with riseWait := .none, restUntil := 0 })) :=
  congrArg _ (if_pos ⟨hrest, hover⟩)

theorem exec_channelAvailable_of_wait (h : s.uhf.riseWait = .channel) :
    exec .channelAvailable s = .next (uhfTryRise (s.onUhf fun u => { u with riseWait := .none })) :=
  congrArg _ (if_pos h)

end Visits

/-! ## Listening before talk (R434, R520) -/

section Listening

variable {level : Int} {c : Charter} {s : State}

theorem exec_lbtSenseDone_of_clear (hc : charter s = some c) (hlbt : s.uhf.riseWait = .lbt)
    (hover : s.uhf.readyAt ≤ s.time) (hclear : level < c.lbtThr) :
    exec (.lbtSenseDone level) s = .next (uhfCheckRise s) := by
  change execLbtSenseDone level s = _
  simp [execLbtSenseDone, hc, hlbt, hover.not_gt, hclear]

/-- A fixed channel that is busy backs off. -/
theorem exec_lbtSenseDone_of_busy (hc : charter s = some c) (hlbt : s.uhf.riseWait = .lbt)
    (hover : s.uhf.readyAt ≤ s.time) (hbusy : c.lbtThr ≤ level) (hfixed : s.uhf.mode = 0) :
    exec (.lbtSenseDone level) s =
      .next (waitRise .backoff (s.onUhf fun u => { u with restUntil := s.time + 1000 * c.lbtBackoff })) := by
  change execLbtSenseDone level s = _
  simp [execLbtSenseDone, hc, hlbt, hover.not_gt, hbusy.not_gt, hfixed]

theorem exec_lbtBackoffEnd_of_over (hwait : s.uhf.riseWait = .backoff) (hover : s.uhf.restUntil ≤ s.time) :
    exec .lbtBackoffEnd s = .next (uhfTryRise (s.onUhf fun u => { u with riseWait := .none, restUntil := 0 })) :=
  congrArg _ (if_pos ⟨hwait, hover⟩)

end Listening

/-! ## Reflected power and the limits of the amplifier (R442–R444, R453) -/

section Reflected

variable {rl : Nat} {s : State}

theorem exec_rlMeasurement_of_due (hdue : s.uhf.measAt ≤ s.time) (hlit : uhfLit s = true) (hrx : s.uhf.radio = .rx)
    (hquiet : uhfInFrame s = false) : exec (.rlMeasurement rl) s = .next (rlMeasured rl s) :=
  congrArg _ ((if_neg hdue.not_gt).trans (if_pos ⟨hlit, hrx, hquiet⟩))

theorem rlMeasured_of_good (h : cfg s 0x307 ≤ rl) : rlMeasured rl s = s.onUhf fun u =>
    { u with rl := rl, measAt := s.time + 100, low := 0, alarm := false, blocked := false } :=
  if_pos h

/-- Fewer than three measurements in a row, or an alarm that stands, raise nothing. -/
theorem rlMeasured_of_no_alarm (h : rl < cfg s 0x307) (hquiet : s.uhf.low < 2 ∨ s.uhf.alarm = true) :
    rlMeasured rl s = s.onUhf fun u => { u with rl := rl, measAt := s.time + 100, low := u.low + 1 } :=
  (if_neg h.not_ge).trans (if_neg fun ⟨hthird, hnone⟩ => hquiet.elim
    (fun hfew => absurd hfew (Nat.not_lt.2 (Nat.le_of_succ_le_succ hthird)))
    fun halarm => Bool.noConfusion (halarm.symm.trans hnone))

theorem rlMeasured_of_alarm (h : rl < cfg s 0x307) (hthird : 2 ≤ s.uhf.low) (hnone : s.uhf.alarm = false) :
    rlMeasured rl s = reflectedAction (raise 50 (reflectedPayload s rl false) (s.onUhf fun u =>
      { u with rl := rl, measAt := s.time + 100, low := u.low + 1, alarm := true })) :=
  (if_neg h.not_ge).trans (if_pos ⟨Nat.succ_le_succ hthird, hnone⟩)

theorem exec_hardReflection_of_low (hemits : uhfEmits s = true) (hlow : rl < 10) :
    exec (.hardReflection rl) s = .next (fenceUnit 1 7 0 (raise 50 (reflectedPayload s rl true) s)) :=
  congrArg _ (if_pos ⟨hemits, hlow⟩)

theorem exec_paCurrentLimit_of_emits (h : uhfEmits s = true) : exec .paCurrentLimit s = .next (fenceUnit 1 6 0 s) :=
  congrArg _ (if_pos h)

end Reflected

/-- Settles O54: the synthesiser, the visit, the listening and the aerial, each moment by its own rule. A recalibration
is R562's and R563's, and that one held off while it runs is abandoned and stays due log 219's reading; the reflections
are R442's to R444's, and the amplifier's limit R453's. -/
theorem synthesiserAndVisits : Obligations.SynthesiserAndVisits := by
  unfold Obligations.SynthesiserAndVisits
  refine ⟨fun band s => ⟨exec_synthLocked_of_starting, exec_synthUnlock_of_second, exec_synthUnlock_of_first,
    exec_synthRecal_of_run, recalMayRun_iff⟩, fun t s => ⟨exec_dwellSoftPoint_of_reached, exec_hop_of_due,
    exec_dwellLimit_of_reached, exec_restEnd_of_over, exec_channelAvailable_of_wait⟩, fun level c rl s =>
    ⟨exec_lbtSenseDone_of_clear, exec_lbtSenseDone_of_busy, exec_lbtBackoffEnd_of_over,
    fun hdue hlit hrx hquiet => ?reflected, exec_hardReflection_of_low, exec_paCurrentLimit_of_emits⟩⟩
  case reflected =>
    rw [exec_rlMeasurement_of_due hdue hlit hrx hquiet]
    exact ⟨fun hgood => congrArg _ (rlMeasured_of_good hgood),
      fun hlow hquiet => congrArg _ (rlMeasured_of_no_alarm hlow hquiet),
      fun hlow hthird hnone => congrArg _ (rlMeasured_of_alarm hlow hthird hnone)⟩

end Sys2Proof.Machine

/-! # The charter's commands, the spectrum monitor and captures

First what an answer leaves of the charter, of NV and of the monitor, then one rule for each command and moment, and
then the two statements. -/

namespace Sys2Proof.Machine

open Sys2Proof

/-! ## What an answer leaves: the charter, NV and the monitor (R281) -/

@[simp] theorem replyWith_chr_nv_spec (p : Packet) (start : Nat) (tow susp : Bool) (cs : List Clamp) (st : Nat)
    (body : List Byte) (own : Option Nat) (s : State) :
    (replyWith p start tow susp cs st body own s).chr = s.chr ∧
      (replyWith p start tow susp cs st body own s).nv = s.nv ∧
      (replyWith p start tow susp cs st body own s).spec = s.spec := by
  obtain ⟨b, ts, c, f, q, hreply, -⟩ := replyWith_frame p start tow susp cs st body own s
  rw [hreply]
  exact ⟨rfl, rfl, rfl⟩

@[simp] theorem replyExec_chr_nv_spec (e : Exec) (st : Nat) (body : List Byte) (own : Option Nat) (s : State) :
    (replyExec e st body own s).chr = s.chr ∧ (replyExec e st body own s).nv = s.nv ∧
      (replyExec e st body own s).spec = s.spec :=
  replyWith_chr_nv_spec _ _ _ _ _ _ _ _ s

@[simp] theorem cutCapture_chr_nv_spec (c : Chain) (s : State) :
    (cutCapture c s).chr = s.chr ∧ (cutCapture c s).nv = s.nv ∧ (cutCapture c s).spec = s.spec := by
  cases c <;> exact ⟨rfl, rfl, rfl⟩

@[simp] theorem hfIdle_chr_nv_spec (s : State) :
    (hfIdle s).chr = s.chr ∧ (hfIdle s).nv = s.nv ∧ (hfIdle s).spec = s.spec := by
  unfold hfIdle
  split <;> simp

@[simp] theorem emuOff_chr_nv_spec (cause : Nat) (s : State) :
    (emuOff cause s).chr = s.chr ∧ (emuOff cause s).nv = s.nv ∧ (emuOff cause s).spec = s.spec := by
  unfold emuOff
  split <;> simp

@[simp] theorem peerOff_chr_nv_spec (s : State) :
    (peerOff s).chr = s.chr ∧ (peerOff s).nv = s.nv ∧ (peerOff s).spec = s.spec := by
  unfold peerOff
  dsimp only
  split <;> simp

@[simp] theorem peerLeave_chr_nv_spec (s : State) :
    (peerLeave s).chr = s.chr ∧ (peerLeave s).nv = s.nv ∧ (peerLeave s).spec = s.spec := by
  unfold peerLeave
  split <;> simp

@[simp] theorem addDue_chr_nv_spec (c : Chain) (ks : List StepKind) (s : State) :
    (addDue c ks s).chr = s.chr ∧ (addDue c ks s).nv = s.nv ∧ (addDue c ks s).spec = s.spec := by simp [addDue]

@[simp] theorem putCodes_chr_nv_spec (cs cp : Nat) (s : State) :
    (putCodes cs cp s).chr = s.chr ∧ (putCodes cs cp s).nv = s.nv ∧ (putCodes cs cp s).spec = s.spec := by
  simp only [putCodes, setCodes]
  (repeat' split) <;> simp

@[simp] theorem abandonRetune_chr_nv_spec (s : State) :
    (abandonRetune s).chr = s.chr ∧ (abandonRetune s).nv = s.nv ∧ (abandonRetune s).spec = s.spec := by
  unfold abandonRetune
  split <;> simp

@[simp] theorem undoTuner_chr_nv_spec (s : State) :
    (undoTuner s).chr = s.chr ∧ (undoTuner s).nv = s.nv ∧ (undoTuner s).spec = s.spec := by
  unfold undoTuner
  split <;> simp

@[simp] theorem towStop_chr_nv_spec (c : Chain) (s : State) :
    (towStop c s).chr = s.chr ∧ (towStop c s).nv = s.nv ∧ (towStop c s).spec = s.spec := by
  simp only [towStop]
  split <;> simp

@[simp] theorem hfFall_chr_nv_spec (cause : Nat) (s : State) :
    (hfFall cause s).chr = s.chr ∧ (hfFall cause s).nv = s.nv ∧ (hfFall cause s).spec = s.spec := by
  unfold hfFall
  split <;> simp

@[simp] theorem uhfFall_chr_nv_spec (why : FallFor) (s : State) :
    (uhfFall why s).chr = s.chr ∧ (uhfFall why s).nv = s.nv ∧ (uhfFall why s).spec = s.spec := by
  fun_cases uhfFall <;> simp +zetaDelta [giveUpRise, setUhfGrant]

@[simp] theorem startHandover_chr_nv_spec (c : Chain) (afterReset : Bool) (s : State) :
    (startHandover c afterReset s).chr = s.chr ∧ (startHandover c afterReset s).nv = s.nv ∧
      (startHandover c afterReset s).spec = s.spec := by
  cases c <;> simp [startHandover, chainUsersOff]

@[simp] theorem revokeLease_chr_nv_spec (c : Chain) (r : Nat) (s : State) :
    (revokeLease c r s).chr = s.chr ∧ (revokeLease c r s).nv = s.nv ∧ (revokeLease c r s).spec = s.spec := by
  unfold revokeLease
  split <;> simp

@[simp] theorem preemptDone_chr_nv_spec (c : Chain) (s : State) :
    (preemptDone c s).chr = s.chr ∧ (preemptDone c s).nv = s.nv ∧ (preemptDone c s).spec = s.spec := by
  fun_cases preemptDone <;> simp

@[simp] theorem leaseAtPacketEnd_chr_nv_spec (c : Chain) (s : State) :
    (leaseAtPacketEnd c s).chr = s.chr ∧ (leaseAtPacketEnd c s).nv = s.nv ∧
      (leaseAtPacketEnd c s).spec = s.spec := by
  fun_cases leaseAtPacketEnd <;> simp

@[simp] theorem finish_chr_nv_spec (l : LaneId) (st : Nat) (body : List Byte) (own : Option Nat) (s : State) :
    (finish l st body own s).chr = s.chr ∧ (finish l st body own s).nv = s.nv ∧
      (finish l st body own s).spec = s.spec := by
  fun_cases finish <;> simp +zetaDelta

/-! ## The charter's commands (R507, R511–R516, R523–R526, R531) -/

section Charters

variable {e : Exec} {c : Charter} {s u : State}

theorem charterRead_of_aligned {ecc : EccRead} {t : State} (ht : eccRead 0xC0000 0xC1000 ecc s = t)
    (h : Packet32 e.pkt 0 % 4 = 0) : charterRead ecc e s = finish .house 0
      (le 1 (charterState t) ++ le 1 ((t.chr.inForce.map (·.profile)).getD 0xFF) ++ le 1 (storedCode t) ++ le 1 0
        ++ le 4 ((t.chr.inForce.map (·.gen)).getD 0)) none
      (poundWrite e.pkt.tenant (Packet32 e.pkt 0) (charterRegion t) t) := by
  subst ht
  exact if_neg (not_not.2 h)

/-- What CHARTER_WRITE asks of NV. -/
def charterJob (e : Exec) (s : State) : JobKind :=
  .charter { charterOf (charterSource s e.pkt) with gen := nextGeneration s }

theorem charterWrite_of_submitted (hok : charterParamsOk e.pkt = true) (hopen : s.chr.sealed = false)
    (hcode : charterCode (charterSource s e.pkt) true = 0) (hgate : gateOk s (charterJob e s) = true)
    (hsub : nvSubmit (nvJob (charterJob e s) (some .house) (pageOf (charterJob e s)) 1) (stopTransmission s) = some u) :
    charterWrite e s = onExec .house (fun x =>
      { x with phase := .nv 0, partialBody := charterWriteBody 0 (nextGeneration s) }) u := by
  simp only [charterJob] at hgate hsub
  simp [charterWrite, hok, hopen, hcode, hgate, hsub]

theorem charterWrite_of_sealed (hok : charterParamsOk e.pkt = true) (hsealed : s.chr.sealed = true) :
    charterWrite e s = finish .house 0x40 (charterWriteBody 1 0) none s := by
  simp [charterWrite, hok, hsealed]

theorem charterSeal_of_none (h : s.chr.inForce = none) : charterSeal e s = finish .house 0x40 [] none s := by
  simp [charterSeal, h]

theorem charterSeal_of_submitted (hc : s.chr.inForce = some c) (hopen : s.chr.sealed = false)
    (hblank : s.nv.sealPage = .erased)
    (hsub : nvSubmit (nvJob (.sealCharter c.gen) (some .house) (pageOf (.sealCharter c.gen)) 0) s = some u) :
    charterSeal e s = setPhase .house (.nv 0) u := by
  simp [charterSeal, hc, hopen, hblank, hsub]

theorem charterBreak_of_submitted (hpin : s.pins.testEn = true) (hpin1 : s.pwr.testEn1 = true)
    (hsub : nvSubmit (nvJob .breakCharter (some .house) (pageOf .breakCharter) 17)
      (((stopTransmission s).onHouseLane stopKeys).onChr fun k => { k with keysDead := true }) = some u) :
    charterBreak e s = setPhase .house (.breaking 17) u := by
  simp [charterBreak, hpin, hpin1, hsub]

theorem charterBreak_of_pin_low (h : s.pins.testEn = false ∨ s.pwr.testEn1 = false) :
    charterBreak e s = finish .house 0x40 [] none s :=
  if_pos (by simpa using h)

end Charters

/-- Settles O43: each command by its own rule, and that an answer leaves the charter. CHARTER_READ is R513's and R531's
(that ECC is read first is log 258's); that transmission stops only after the checks is log 61's, and that a break ends
the suspended key commands log 228's. The clause on a sealed charter speaks of CHARTER_WRITE alone. -/
theorem charterOpcodes : Obligations.CharterOpcodes := by
  unfold Obligations.CharterOpcodes
  refine ⟨fun e c s u => ⟨fun ecc => ?read, ?write, ?commit, ?none, ?break_, ?pinLow⟩, fun e s => ?sealed⟩
  case read => exact fun hready halign => nextFresh_of_ready hready (charterRead_of_aligned rfl halign)
  case write => exact fun hready hok hopen hcode hgate hsub =>
    nextFresh_of_ready hready (charterWrite_of_submitted hok hopen hcode hgate hsub)
  case commit => exact fun hready hc hopen hblank hsub =>
    nextFresh_of_ready hready (charterSeal_of_submitted hc hopen hblank hsub)
  case none => exact fun hready hnone => nextFresh_of_ready hready (charterSeal_of_none hnone)
  case break_ => exact fun hready hpin hpin1 hsub =>
    nextFresh_of_ready hready (charterBreak_of_submitted hpin hpin1 hsub)
  case pinLow => exact fun hready hlow => nextFresh_of_ready hready (charterBreak_of_pin_low hlow)
  case sealed =>
    intro hready hok hsealed
    obtain ⟨hchr, hnv, -⟩ := finish_chr_nv_spec .house 0x40 (charterWriteBody 1 0) none s
    exact ⟨_, nextFresh_of_ready hready (charterWrite_of_sealed hok hsealed), rfl, hchr, congrArg Nv.charter hnv⟩

/-! ## Mask checks and SPECTRUM_CHECK (R481–R485, R488, R506–R508) -/

section Checks

variable {c : Chain} {l : LaneId} {e : Exec} {bins : List (Int × Int)} {cs : List (Chain × Option LaneId)} {s : State}

/-- The monitor has nothing to do for a packet. -/
theorem specTurns_of_empty (k : Nat) (h : s.spec.queue = []) : specTurns k s = s := by
  cases k with
  | zero => rfl
  | succ k => simp [specTurns, h]

theorem exec_maskCheckDone_of_head (h : s.spec.queue = (c, none) :: cs) :
    exec (.maskCheckDone bins) s = .next (specTurns 3 (checkEnds c
      (if (checkKey s c bins).1 = 0 then maskPass c
        else maskFail c (checkKey s c bins).1 (((checkKey s c bins).2.map (·.1)).getD 0))
      (keepVerdict c (checkKey s c bins).1 (s.onSpec fun m => { m with queue := cs })))) := by
  change execMaskCheckDone bins s = _
  simp only [execMaskCheckDone, h]

/-- A check with bins to judge, asked for without levels, reports and keeps a verdict that passes. -/
theorem spectrumDone_of_verdict (he : execOf s l = some e) (hc : Packet8 e.pkt 0 = chainIndex c)
    (hquiet : bit (Packet8 e.pkt 1) 0 = false) (hjudged : (checkKey s c bins).2.isSome = true) :
    spectrumDone l bins s = finish l 0 (spectrumBody s (checkKey s c bins)) none
      (if (checkKey s c bins).1 = 0 then keepVerdict c 0 s else s) := by
  simp [spectrumDone, he, hc, hquiet, chainOf_chainIndex, Option.isSome_iff_ne_none.1 hjudged]

@[simp] theorem keepVerdict_queue (c : Chain) (code : Nat) (s : State) :
    (keepVerdict c code s).spec.queue = s.spec.queue := by cases c <;> rfl

@[simp] theorem setPhase_spec (l : LaneId) (ph : Phase) (s : State) : (setPhase l ph s).spec = s.spec := by
  simp [setPhase]

theorem execOf_setPhase (l : LaneId) (ph : Phase) (s : State) :
    execOf (setPhase l ph s) l = (execOf s l).map fun e => { e with phase := ph } := by simp [setPhase]

theorem setPhase_onSpec (l : LaneId) (ph : Phase) (f : Spec → Spec) (s : State) :
    setPhase l ph (s.onSpec f) = (setPhase l ph s).onSpec f := by cases l <;> rfl

/-- A packet that starts executes on its lane. -/
theorem execOf_of_fresh {op : Nat} (h : freshOn s l op = some e) : execOf s l = some e := by
  unfold freshOn at h
  split at h
  case h_1 x hx =>
    obtain ⟨-, hxe⟩ := Option.ite_none_right_eq_some.1 h
    rw [hx, hxe]
  case h_2 => exact nomatch h

/-- A packet that meets an empty queue has its turn at once. -/
theorem specTurns_of_alone {k : Nat} {bins : List (Int × Int)} (hempty : s.spec.queue = [])
    (he : execOf s l = some e) (hphase : e.phase = .specWait bins) :
    specTurns (k + 1) (s.onSpec fun m => { m with queue := m.queue ++ [(c, some l)] }) =
      specTurns k (spectrumDone l bins s) := by
  have htaken : (s.onSpec fun m => { m with queue := m.queue ++ [(c, some l)] }).onSpec
      (fun m => { m with queue := [] }) = s := by simp only [State.onSpec, ← hempty]
  simp only [specTurns, State.onSpec_spec, hempty, List.nil_append]
  rw [htaken]
  simp [withWaiting, he, hphase, specWaiter]

/-- Judged at once, in the state `u` that has the packet waiting for the monitor. -/
theorem spectrumCheck_of_alone {u : State} (hu : setPhase l (.specWait bins) s = u) (hempty : s.spec.queue = [])
    (he : execOf s l = some e) (hc : Packet8 e.pkt 0 = chainIndex c) (hquiet : bit (Packet8 e.pkt 1) 0 = false)
    (hoff : Packet32 e.pkt 4 = 0) (hjudged : (checkKey u c bins).2.isSome = true) :
    spectrumCheck l bins e s = finish l 0 (spectrumBody u (checkKey u c bins)) none
      (if (checkKey u c bins).1 = 0 then keepVerdict c 0 u else u) := by
  have hempty' : u.spec.queue = [] := by rw [← hu, setPhase_spec, hempty]
  have he' : execOf u l = some { e with phase := .specWait bins } := by
    rw [← hu, execOf_setPhase, he, Option.map_some]
  have hdone := spectrumDone_of_verdict he' hc hquiet hjudged
  have hqueue : (spectrumDone l bins u).spec.queue = [] := by
    rw [hdone]
    split <;> simp [hempty']
  have hle := chainIndex_le c
  calc spectrumCheck l bins e s
    _ = specTurns 3 (u.onSpec fun m => { m with queue := m.queue ++ [(c, some l)] }) := by
      simp [spectrumCheck, hc, hquiet, hoff, chainOf_chainIndex, hle, setPhase_onSpec, hu]
    _ = specTurns 2 (spectrumDone l bins u) := specTurns_of_alone hempty' he' rfl
    _ = spectrumDone l bins u := specTurns_of_empty 2 hqueue
    _ = _ := hdone

end Checks

/-! ## Captures (R496–R500, R504, R505; log 220) -/

section Captures

variable {c : Chain} {l : LaneId} {e : Exec} {k : Capture} {samples : List (Int × Int)} {clip : Bool} {s : State}

/-- A command with a trigger arms the capture, and nothing else happens. -/
theorem captureSamples_of_trigger (hok : captureOk e.pkt = true) (hc : Packet8 e.pkt 0 = chainIndex c)
    (htrigger : Packet8 e.pkt 2 ≠ 0) (hholds : holds s c e.pkt.tenant = true) (hfree : capOf s c = none)
    (hradio : radioOf s c ≠ .synth) :
    captureSamples l e s = finish l 0 [] none (onCap c (fun _ => some
      { tenant := e.pkt.tenant, tap := Packet8 e.pkt 1, trigger := Packet8 e.pkt 2, count := Packet16 e.pkt 4
        off := Packet32 e.pkt 8, timeoutAt := s.time + 1000 * Packet16 e.pkt 6, armed := true, cut := false
        stamp := 0, gain := 0, gainChanged := false, carrierOn := litOf s c, wasSynth := false }) s) := by
  have hle := (chainIndex_le c).not_gt
  have harmed : (Packet8 e.pkt 2 != 0) = true := bne_iff_ne.2 htrigger
  have hsynth : (radioOf s c == .synth) = false := beq_eq_false_iff_ne.2 hradio
  simp only [captureSamples, hc, chainOf_chainIndex, hle, hholds, hok, hfree, harmed, hsynth]
  simp

theorem captureSof_of_armed (hk : capOf s c = some k) (harmed : k.armed = true) (hcut : k.cut = false)
    (htrigger : k.trigger = 1) : captureSof c s = captureStart c s := by
  simp [captureSof, hk, harmed, hcut, htrigger]

/-- A start of frame is not what the capture waits for. -/
theorem captureSof_of_other_trigger (hk : capOf s c = some k) (htrigger : k.trigger ≠ 1) : captureSof c s = s := by
  simp [captureSof, hk, htrigger]

theorem captureFrameEnd_of_armed (hk : capOf s c = some k) (harmed : k.armed = true) (hcut : k.cut = false)
    (htrigger : k.trigger = 2) : captureFrameEnd c s = captureStart c s := by
  simp [captureFrameEnd, hk, harmed, hcut, htrigger]

theorem exec_captureTimeout_of_due (hk : capOf s c = some k) (harmed : k.armed = true) (hcut : k.cut = false)
    (hdue : k.timeoutAt ≤ s.time) : exec (.captureTimeout c) s = .next (captureEnd c k [] 1 false s) := by
  change execCaptureTimeout c s = _
  simp [execCaptureTimeout, hk, harmed, hcut, hdue]

theorem exec_captureDone_of_full (hk : capOf s c = some k) (hbegun : k.armed = false) (hcut : k.cut = false)
    (hfull : k.count ≤ samples.length) :
    exec (.captureDone c samples clip) s = .next (captureEnd c k (samples.take k.count) 0 clip s) := by
  change execCaptureDone c samples clip s = _
  simp [execCaptureDone, hk, hbegun, hcut, hfull]

end Captures

/-- Settles O56: a check of the monitor, a packet's check that meets no other, and the moments of a capture by what the
capture waits for. That CAPTURE_TRIGGERED is trigger 1 alone, and trigger 2 the end of a reader frame, is log 220's
reading. -/
theorem spectrumAndCaptures : Obligations.SpectrumAndCaptures := by
  unfold Obligations.SpectrumAndCaptures
  refine fun c cs bins samples l k clip e s => ⟨exec_maskCheckDone_of_head, ?check, ?arm, ?moments,
    exec_captureDone_of_full⟩
  case check =>
    intro u r hempty hlane hready hc hquiet hoff hjudged
    subst hlane
    obtain ⟨hfresh, -⟩ := id hready
    exact nextFresh_of_ready hready
      (spectrumCheck_of_alone rfl hempty (execOf_of_fresh hfresh) hc hquiet hoff hjudged)
  case arm =>
    rintro rfl hready hok hc htrigger hholds hfree hradio
    exact nextFresh_of_ready hready (captureSamples_of_trigger hok hc htrigger hholds hfree hradio)
  case moments => exact fun hk harmed hcut => ⟨fun h => congrArg _ (captureSof_of_armed hk harmed hcut h),
    fun h => ⟨congrArg _ (captureSof_of_other_trigger hk (by simp [h])), captureFrameEnd_of_armed hk harmed hcut h⟩,
    exec_captureTimeout_of_due hk harmed hcut⟩

end Sys2Proof.Machine

/-! # A step's command, statistics counters, the towpath and the runs of CAL_RUN

First what a step does with a command in front, and what an addition leaves of the counters. -/

namespace Sys2Proof.Machine

open Sys2Proof

/-- Settles O1. -/
theorem stepRunsFront : Obligations.StepRunsFront := by
  unfold Obligations.StepRunsFront
  exact fun c cs s => rfl

/-! ## Statistics counters (R775, R777) -/

section Counters

variable {id n k : Nat} {s : State}

theorem assocGet_assocSet_other {β : Type} (l : List (Nat × β)) {k j : Nat} (v d : β) (h : j ≠ k) :
    assocGet (assocSet l k v) j d = assocGet l j d := by
  fun_induction assocSet with
  | case1 => simp [assocGet, h.symm]
  | case2 => simp [assocGet, h.symm]
  | case3 => simp [assocGet, h.symm]
  | case4 i w l hlt hne ih => simp only [assocGet, ih]

/-- No addition to a counter reaches another one. -/
theorem ctrGet_ctrAdd_other (h : k ≠ id) : ctrGet (ctrAdd id n s) k = ctrGet s k := by
  have hvals : (ctrAdd id n s).ctr.vals = assocSet s.ctr.vals id (min 0xFFFFFFFF (ctrGet s id + n)) := by
    simp only [ctrAdd]
    split <;> simp
  rw [ctrGet, hvals, assocGet_assocSet_other _ _ _ h, ctrGet]

/-- SAT of a counter that `ctrAdd` keeps: WDT_RESETS is not one (R777). -/
theorem ctrSat_of_kept (h : id ≠ 5) : ctrSat s id = s.ctr.sat.contains id := if_neg h

/-- A counter that stays below its maximum raises nothing. -/
theorem ctrAdd_of_below (h : ctrGet s id + n < 0xFFFFFFFF) : ctrAdd id n s =
    s.onCtr fun c => { c with vals := assocSet c.vals id (ctrGet s id + n) } := by
  have hmin : min 0xFFFFFFFF (ctrGet s id + n) = ctrGet s id + n := min_eq_right h.le
  simp only [ctrAdd, hmin, h.ne, false_and, if_false]

/-- A counter that stands at its maximum already raises nothing more. -/
theorem ctrAdd_of_saturated (h : 0xFFFFFFFF ≤ ctrGet s id + n) (hsat : ctrSat s id = true) : ctrAdd id n s =
    s.onCtr fun c => { c with vals := assocSet c.vals id 0xFFFFFFFF } := by
  simp only [ctrAdd, min_eq_left h, hsat, not_true, and_false, if_false]

/-- A counter that reaches its maximum sets SAT and raises source 12. -/
theorem ctrAdd_of_reached (h : 0xFFFFFFFF ≤ ctrGet s id + n) (hsat : ctrSat s id = false) : ctrAdd id n s =
    raise 12 (id + (if 0x10 ≤ id ∧ id < 0x28 then id % 8 else 0) * 2 ^ 16)
      (s.onCtr fun c => { vals := assocSet c.vals id 0xFFFFFFFF, sat := id :: c.sat }) := by
  simp only [ctrAdd, min_eq_left h, hsat, Bool.false_eq_true, not_false_eq_true, and_self, if_true]
  rfl

/-- R775 for each counter that `ctrAdd` keeps. -/
theorem ctrAdd_saturates (hkept : id ≠ 5) (h : 0xFFFFFFFF ≤ ctrGet s id + n) :
    ctrGet (ctrAdd id n s) id = 0xFFFFFFFF ∧ ctrSat (ctrAdd id n s) id = true := by
  refine ⟨(ctrGet_ctrAdd_same id n s).trans (min_eq_left h), ?_⟩
  rcases hsat : ctrSat s id with _ | _
  · rw [ctrAdd_of_reached h hsat, ctrSat_of_kept hkept]
    simp
  · rw [ctrAdd_of_saturated h hsat, ← hsat, ctrSat_of_kept hkept, ctrSat_of_kept hkept]
    rfl

/-- An addition to WDT_RESETS, which lies in AON, leaves its SAT as it is. -/
theorem ctrSat_ctrAdd_wdtResets : ctrSat (ctrAdd 5 n s) 5 = ctrSat s 5 := by
  have hwdt : (ctrAdd 5 n s).aon.wdtResets = s.aon.wdtResets := by
    simp only [ctrAdd]
    split
    · rw [raise_eq]
      rfl
    · rfl
  simp only [ctrSat, if_true, hwdt]

end Counters

/-- Refutes O10: the statement speaks of every ID, and WDT_RESETS, ID 5, is not kept among these counters but in AON
(R777), where WDT_RESETS and its SAT stand together. After a reset `ctrAdd 5 0xFFFFFFFF` leaves that SAT at 0. The model
adds to no counter 5; for each other ID `ctrAdd_saturates` and its neighbours say what R775 says. -/
theorem not_counterSaturates : ¬ Obligations.CounterSaturates := by
  unfold Obligations.CounterSaturates
  intro h
  obtain ⟨-, hreached, -⟩ := h State.reset 5 0xFFFFFFFF
  obtain ⟨-, hsat, -⟩ := hreached (by decide)
  rw [ctrSat_ctrAdd_wdtResets] at hsat
  exact absurd hsat (by decide)

/-! ## The towpath's steps (R551–R566, R581) -/

section Towpath

variable {c : Chain} {k k' : StepKind} {x y : Int} {iAnt : Nat} {e : Exec} {s : State}

theorem exec_towpathStepStart_of_due (h : towNext s c = some k) :
    exec (.towpathStepStart c) s = .next (startStep c k s) := by
  change execTowpathStepStart c s = _
  rw [execTowpathStepStart, h]

theorem exec_towpathStepStart_of_none (h : towNext s c = none) : exec (.towpathStepStart c) s = .next s := by
  change execTowpathStepStart c s = _
  rw [execTowpathStepStart, h]

/-- Of a step that does not tune, the start is the lane's alone. -/
theorem startStep_of_not_tuner (h : k ≠ .tuner) : startStep c k s = onTowLane c (fun t =>
    { t with step := some k, void := false, stepAt := s.time, due := t.due.filter (· != k) }) s := by
  simp only [startStep, h, if_false]

@[simp] theorem addDue_tunerAt (d : Chain) (ks : List StepKind) (s : State) :
    (towLane (addDue d ks s) c).tunerAt = (towLane s c).tunerAt := by
  cases c <;> cases d <;> rfl

@[simp] theorem setCodes_tunerAt (cs cp : Nat) (s : State) :
    (towLane (setCodes cs cp s) c).tunerAt = (towLane s c).tunerAt := by
  simp only [setCodes]
  split
  · rw [addDue_tunerAt]
    cases c <;> rfl
  · cases c <;> rfl

@[simp] theorem tunerMove_tunerAt (s : State) : (towLane (tunerMove s) c).tunerAt = (towLane s c).tunerAt := by
  unfold tunerMove
  split
  · rfl
  · rw [setCodes_tunerAt]
    cases c <;> rfl

/-- A tuner step takes the slot that it starts in. -/
theorem startStep_tunerAt (c : Chain) (s : State) :
    (towLane (startStep c .tuner s) c).tunerAt = s.time + cfg s 0x400 := by
  simp [startStep]

theorem exec_towpathStepEnd_of_over (hstep : (towLane s c).step = some k) (hover : overran s c k = true) :
    exec (.towpathStepEnd c x y iAnt) s = .next s := by
  change execTowpathStepEnd c x y iAnt s = _
  simp only [execTowpathStepEnd, hstep, hover, if_true]

/-- A step that has ended in time: its effect, unless a frame made it void, its charge and its count (R556, R581). -/
def stepEnded (c : Chain) (k : StepKind) (x y : Int) (iAnt : Nat) (s : State) : State :=
  let v := (onTowLane c (fun t => { t with step := none, void := false }) s).onHf fun h =>
    { h with stepFrom := if c = .hf then none else h.stepFrom }
  towWaiter (ctrAdd (towCtr c 2) 1 (imposeDelay c
    (if (towLane s c).void = true then v else stepEffect c k x y iAnt v)))

theorem exec_towpathStepEnd_of_time (hstep : (towLane s c).step = some k) (hover : overran s c k = false) :
    exec (.towpathStepEnd c x y iAnt) s = .next (match towNext (stepEnded c k x y iAnt s) c with
      | some k' => startStep c k' (stepEnded c k x y iAnt s)
      | none => startHeld c (stepEnded c k x y iAnt s)) := by
  change execTowpathStepEnd c x y iAnt s = _
  simp only [execTowpathStepEnd, hstep, hover, Bool.false_eq_true, if_false]
  rfl

theorem overran_iff : overran s c k = true ↔ (towLane s c).stepAt + stepLen c k + 2 ≤ s.time := decide_eq_true_iff

theorem exec_towpathStepOverrun_of_time (hstep : (towLane s c).step = some k)
    (hover : s.time < (towLane s c).stepAt + stepLen c k + 2) : exec (.towpathStepOverrun c) s = .next s := by
  change execTowpathStepOverrun c s = _
  simp only [execTowpathStepOverrun, hstep, overran_iff, hover.not_ge, if_false]

theorem exec_towpathStepOverrun_of_over (hstep : (towLane s c).step = some k) (hover : overran s c k = true) :
    exec (.towpathStepOverrun c) s =
      .next (startHeld .uhf (startHeld .hf (towWaiter (fenceUnit 2 11 0 (imposeDelay c s))))) := by
  change execTowpathStepOverrun c s = _
  simp only [execTowpathStepOverrun, hstep, hover, if_true]

theorem exec_towpathConfig_of_ready (h : Ready .house 0x0604 e s) :
    exec .towpathConfig s = .next (towConfig e s) := nextFresh_of_ready h rfl

end Towpath

/-- Settles O57: each moment of a step by what the lane's step is, and the three actions of TOWPATH_CONFIG. From when on
a new slot for a tuner step begins is log 175's reading, and that a step's end starts the frame held at once log 71's. -/
theorem towpathSteps : Obligations.TowpathSteps := by
  unfold Obligations.TowpathSteps
  refine fun c k k' x y iAnt e s => ⟨exec_towpathStepStart_of_due, exec_towpathStepStart_of_none,
    ⟨startStep_of_not_tuner, startStep_tunerAt c s⟩, fun hstep hover => ?ends, exec_towpathStepOverrun_of_time,
    fun hstep hover => ?overrun, fun hready => ?config⟩
  case ends =>
    rw [exec_towpathStepEnd_of_time hstep hover]
    exact ⟨fun hnone => congrArg _ (by rw [stepEnded, hnone]), fun hnext => congrArg _ (by rw [stepEnded, hnext])⟩
  case overrun => exact ⟨exec_towpathStepEnd_of_over hstep (overran_iff.2 hover),
    exec_towpathStepOverrun_of_over hstep (overran_iff.2 hover)⟩
  case config =>
    rw [exec_towpathConfig_of_ready hready]
    exact ⟨fun h => by simp only [towConfig, h], fun h => by simp only [towConfig, h], fun h => by simp only [towConfig, h]⟩

/-! ## A step of XO_TRIM (R549) -/

section XoTrim

variable {l : LaneId} {who : Exec → Bool} {f : State → State} {e : Exec} {s : State}

/-- An event reaches the executing packet that waits for it. -/
theorem withWaiting_of_exec (he : execOf s l = some e) (hwho : who e = true) : withWaiting l who f s = f s := by
  simp [withWaiting, he, hwho]

/-- XO_TRIM holds still while a frame is in flight on HF, one that the emulated card or a peer receives included. -/
theorem exec_xoTrimStep_of_frame (he : execOf s .house = some e) (hphase : e.phase = .calOsc)
    (hframe : hfFrameRuns s = true) : exec .xoTrimStep s = .next s := by
  have hwho : houseWaiter e = true := by simp [houseWaiter, hphase]
  refine congrArg _ ((withWaiting_of_exec he hwho).trans ?_)
  simp only [hframe, Bool.true_eq_false, false_and, and_false, if_false]
  split <;> rfl

end XoTrim

/-- Refutes O58: it says that XO_TRIM steps wherever the reader has neither a frame nor a reply window, and R549 says
that a step takes effect only while no frame is in flight on either chain. The state here runs an oscillator run towards
code 129 while the emulated card is armed and receives a frame of another reader; the code stays 128. -/
theorem not_calibrationOpcodes : ¬ Obligations.CalibrationOpcodes := by
  unfold Obligations.CalibrationOpcodes
  intro h
  let o : OscRun := ⟨20000000, 0, 0, 0, 129, 0, 0, false, 128⟩
  let e : Exec :=
    { pkt := ⟨7, 0, 0x0600, false, false, 1, 0, 0, [], 0⟩, start := 0, slice := 0, sliceOver := false, suspended := false
      towpath := false, clamps := [], stop := none, partialBody := [], phase := .calOsc, parked := false, slot := none
      used := 0, prior := none, admitted := 0 }
  let s : State := { State.reset with
    pwr := { State.reset.pwr with state := .run }
    houseLane := { State.reset.houseLane with exec := some e }
    cal := { State.reset.cal with osc := some o, xoTrim := 128 }
    emu := { State.reset.emu with armed := true }
    hf := { State.reset.hf with sof := true } }
  obtain ⟨hrun, -⟩ := h
  obtain ⟨-, -, -, -, hstep, -⟩ := hrun [] e o 0 0 0 0 false s
  have hmoved := hstep rfl (by decide) (by decide) rfl rfl rfl rfl
  have hstill : exec .xoTrimStep s = .next s := exec_xoTrimStep_of_frame (e := e) rfl rfl rfl
  rw [hstill, Host.Outcome.next.injEq] at hmoved
  exact absurd (congrArg (fun t => t.cal.xoTrim) hmoved) (by decide)

end Sys2Proof.Machine

/-! # The commands of the readers

HF_POLL to HF_DESELECT of the HF chain and UHF_INVENTORY to UHF_ACCESS of the UHF chain: one rule for each command on
operands that it accepts, and then the two statements. -/

namespace Sys2Proof.Machine

open Sys2Proof

/-- The row of an opcode of a chain, on a packet that is ready and holds the lease, is what the opcode does. -/
theorem nextLeased_of_ready {c : Chain} {op : Nat} {e : Exec} {s t : State} {f : Exec → State → State}
    (h : ReadyLeased c op e s) (ht : f e s = t) :
    (.next (onLeased c op f s) : Host.Outcome State Fault Refusal) = .next t :=
  congrArg _ ((onLeased_of_ready f h).trans ht)

section CardCommands

variable {e : Exec} {c : Card} {s : State}

/-- The field is on and the reader may use it (R585). -/
def HfOpen (s : State) : Prop := hfBusy s = false ∧ hfLit s = true ∧ s.hf.rising = false

theorem HfOpen.not_barred (h : HfOpen s) : (hfBusy s || !hfLit s || s.hf.rising) = false := by
  obtain ⟨hbusy, hlit, hrising⟩ := h
  simp [hbusy, hlit, hrising]

/-- HF_POLL as it begins (R592). -/
def pollOpOf (p : Packet) : PollOp :=
  { tech := 0, wake := bit (Packet8 p 1) 0, techs := Packet8 p 0, nSlots := Packet8 p 2, off := Packet32 p 8
    afi := if bit (Packet8 p 1) 1 then some (BitVec.ofNat 8 (Packet8 p 3)) else none
    level := 0, known := [], uid := [], atqa := 0, slot := 0, collided := false, repeats := 0
    masks := [], found := 0, more := false, collLeft := false, probing := false }

theorem pollStart_of_open (h : HfOpen s) (htechs : Packet8 e.pkt 0 ≠ 0) (hslots : Packet8 e.pkt 2 ≤ 4)
    (halign : Packet32 e.pkt 8 % 4 = 0) : pollStart e s =
      startTech (pollOpOf e.pkt) (if bit (Packet8 e.pkt 0) 0 then 0 else if bit (Packet8 e.pkt 0) 1 then 1 else 2)
        (max s.time (s.hf.onAt + cfg s 0x220)) s := by
  have hvalid : ¬ (Packet8 e.pkt 0 = 0 ∨ 4 < Packet8 e.pkt 2 ∨ Packet32 e.pkt 8 % 4 ≠ 0) := by omega
  simp only [pollStart, hvalid, h.not_barred, Bool.false_eq_true, if_false]
  rfl

/-- HF_ACTIVATE as it begins (R598). -/
def activateOpOf (p : Packet) : ActivateOp :=
  { handle := Packet8 p 0, level := Packet8 p 1, dsi := Packet8 p 2, dri := Packet8 p 3, fsdi := Packet8 p 4
    cid := Packet8 p 5, copy := bit (Packet8 p 6) 0, off := Packet32 p 8, cascade := 0, answer := [], lq := 0
    evm := 1000 }

/-- A card that is woken up shows HALT, and what an activation before had declared is forgotten (log 32). -/
def woken (c : Card) : Card := { c with state := 1, cid := 0xFF, dsi := 0, dri := 0, fsci := 0, fwi := 0, sfgi := 0 }

/-- The ranges of HF_ACTIVATE's operands (R629). -/
def ActivateParams (p : Packet) : Prop :=
  (1 ≤ Packet8 p 0 ∧ Packet8 p 0 ≤ 8) ∧ Packet8 p 1 ≤ 1 ∧ Packet8 p 2 ≤ 3 ∧ Packet8 p 3 ≤ 6 ∧ Packet8 p 4 ≤ 12 ∧
    (Packet8 p 5 ≤ 14 ∨ Packet8 p 5 = 0xFF)

/-- A card may be activated unless its technology has no such level, or its CID is another card's (R591, R598). -/
theorem activateStart_of_card (h : HfOpen s) (hp : ActivateParams e.pkt) (hc : cardOf s (Packet8 e.pkt 0) = some c)
    (hfree : c.state ≠ 3 ∧ c.state ≠ 4) (hB : c.tech = 1 → Packet8 e.pkt 1 ≠ 1) (hV : c.tech = 2 → Packet8 e.pkt 1 ≠ 0)
    (hcid : c.tech ≠ 2 → cidClash s (Packet8 e.pkt 0) (if Packet8 e.pkt 1 = 1 then 0xFF else Packet8 e.pkt 5) = false) :
    activateStart e s =
      let t := if c.tech = 2 then s else onCard (Packet8 e.pkt 0) woken s
      if c.tech = 0 then actSend (activateOpOf e.pkt) .wupa t
      else if c.tech = 1 then actSend (activateOpOf e.pkt) (.reqb true none 0) t
      else actSend (activateOpOf e.pkt) (.select15 c.uid) t := by
  obtain ⟨hhandle, hlevel, hdsi, hdri, hfsdi, hcids⟩ := hp
  have hvalid : ¬ (Packet8 e.pkt 0 = 0 ∨ 8 < Packet8 e.pkt 0 ∨ 1 < Packet8 e.pkt 1 ∨ 3 < Packet8 e.pkt 2 ∨
      6 < Packet8 e.pkt 3 ∨ 12 < Packet8 e.pkt 4 ∨ (14 < Packet8 e.pkt 5 ∧ Packet8 e.pkt 5 ≠ 0xFF)) := by omega
  have hready : ¬ (c.state = 3 ∨ c.state = 4 ∨ (c.tech = 1 ∧ Packet8 e.pkt 1 = 1) ∨
      (c.tech = 2 ∧ Packet8 e.pkt 1 = 0) ∨ (c.tech ≠ 2 ∧
        cidClash s (Packet8 e.pkt 0) (if Packet8 e.pkt 1 = 1 then 0xFF else Packet8 e.pkt 5) = true)) := by
    rintro (h | h | h | h | h)
    · exact hfree.1 h
    · exact hfree.2 h
    · exact hB h.1 h.2
    · exact hV h.1 h.2
    · exact Bool.false_ne_true ((hcid h.1).symm.trans h.2)
  simp only [activateStart, hvalid, h.not_barred, hc, hready, Bool.false_eq_true, if_false]
  rfl

theorem activateStart_of_typeA (h : HfOpen s) (hp : ActivateParams e.pkt)
    (hc : cardOf s (Packet8 e.pkt 0) = some c) (hfree : c.state ≠ 3 ∧ c.state ≠ 4) (ht : c.tech = 0)
    (hcid : cidClash s (Packet8 e.pkt 0) (if Packet8 e.pkt 1 = 1 then 0xFF else Packet8 e.pkt 5) = false) :
    activateStart e s = actSend (activateOpOf e.pkt) .wupa (onCard (Packet8 e.pkt 0) woken s) := by
  rw [activateStart_of_card h hp hc hfree (by omega) (by omega) fun _ => hcid]
  simp only [ht, OfNat.zero_ne_ofNat, if_false, if_true]

theorem activateStart_of_typeB (h : HfOpen s) (hp : ActivateParams e.pkt)
    (hc : cardOf s (Packet8 e.pkt 0) = some c) (hfree : c.state ≠ 3 ∧ c.state ≠ 4) (ht : c.tech = 1)
    (hlevel : Packet8 e.pkt 1 = 0) (hcid : cidClash s (Packet8 e.pkt 0) (Packet8 e.pkt 5) = false) :
    activateStart e s = actSend (activateOpOf e.pkt) (.reqb true none 0) (onCard (Packet8 e.pkt 0) woken s) := by
  have hclash : cidClash s (Packet8 e.pkt 0) (if Packet8 e.pkt 1 = 1 then 0xFF else Packet8 e.pkt 5) = false := by
    rwa [hlevel, if_neg zero_ne_one]
  rw [activateStart_of_card h hp hc hfree (by omega) (by omega) fun _ => hclash]
  simp only [ht, OfNat.one_ne_ofNat, one_ne_zero, if_false, if_true]

theorem activateStart_of_vicinity (h : HfOpen s) (hp : ActivateParams e.pkt)
    (hc : cardOf s (Packet8 e.pkt 0) = some c) (hfree : c.state ≠ 3 ∧ c.state ≠ 4) (ht : c.tech = 2)
    (hlevel : Packet8 e.pkt 1 = 1) : activateStart e s = actSend (activateOpOf e.pkt) (.select15 c.uid) s := by
  rw [activateStart_of_card h hp hc hfree (by omega) (by omega) fun hne => absurd ht hne]
  simp only [ht, OfNat.ofNat_ne_zero, OfNat.ofNat_ne_one, if_false, if_true]

/-- The lengths and the time limit of a raw exchange (R611, R612). -/
def RawParams (p : Packet) : Prop :=
  (1 ≤ Packet16 p 6 ∧ Packet16 p 6 ≤ 4096) ∧ 100 ≤ Packet32 p 16 ∧ Packet32 p 16 ≤ 5000000

theorem transceiveStart_of_open (h : HfOpen s) (hp : RawParams e.pkt) (hhandle : Packet8 e.pkt 0 ≤ 8)
    (hproto : if Packet8 e.pkt 0 = 0 then Packet8 e.pkt 2 ≤ 2 else Packet8 e.pkt 2 = 0)
    (hlen : 1 ≤ Packet16 e.pkt 4 ∧ Packet16 e.pkt 4 ≤ 4096) (hwhole : bit (Packet8 e.pkt 1) 2 = false)
    (hcard : rawHandleOk s (Packet8 e.pkt 0) false = true) :
    let b := Packet8 e.pkt
    let card := if b 0 = 0 then none else cardOf s (b 0)
    transceiveStart e s = hfSend (.raw (poundRead s e.pkt.tenant (Packet32 e.pkt 8) (Packet16 e.pkt 4))
        (if b 0 = 0 then b 2 else ((cardOf s (b 0)).map (·.tech)).getD 0) (bit (b 1) 0) false
        ((card.map (·.dsi)).getD 0) ((card.map (·.dri)).getD 0)) (Packet32 e.pkt 16)
      (setPhase .hf (.raw ⟨Packet16 e.pkt 6, Packet32 e.pkt 12, false, bit (b 1) 1, b 0⟩) s) := by
  obtain ⟨⟨hmin, hmax⟩, htmin, htmax⟩ := hp
  have hproto' : ¬ (if Packet8 e.pkt 0 = 0 then 2 < Packet8 e.pkt 2 else Packet8 e.pkt 2 ≠ 0) := by
    split at hproto <;> simp_all
  simp [transceiveStart, hproto', hwhole, hcard, h.not_barred, hhandle.not_gt, hlen.2.not_gt, hmax.not_gt, htmin.not_gt,
    htmax.not_gt, Nat.one_le_iff_ne_zero.1 hlen.1, Nat.one_le_iff_ne_zero.1 hmin]

theorem exchange15Start_of_open (h : HfOpen s) (hp : RawParams e.pkt) (hhandle : Packet8 e.pkt 0 ≤ 8)
    (hlen : Packet16 e.pkt 4 ≤ 4092)
    (hfits : request15 (Packet8 e.pkt 0) (bit (Packet8 e.pkt 2) 1) (Packet16 e.pkt 4) ≤ 4096)
    (hcard : rawHandleOk s (Packet8 e.pkt 0) true = true) :
    let b := Packet8 e.pkt
    exchange15Start e s = hfSend (.req15 (b 1) (bit (b 2) 0) (bit (b 2) 1)
        (if bit (b 2) 1 then none else if b 0 = 0 then none else (cardOf s (b 0)).map (·.uid))
        (poundRead s e.pkt.tenant (Packet32 e.pkt 8) (Packet16 e.pkt 4))) (max (Packet32 e.pkt 16) response15)
      (setPhase .hf (.raw ⟨Packet16 e.pkt 6, Packet32 e.pkt 12, true, true, b 0⟩) s) := by
  obtain ⟨⟨hmin, hmax⟩, htmin, htmax⟩ := hp
  simp [exchange15Start, hcard, h.not_barred, hhandle.not_gt, hlen.not_gt, hfits.not_gt, hmax.not_gt, htmin.not_gt,
    htmax.not_gt, Nat.one_le_iff_ne_zero.1 hmin]

/-- HF_ISODEP_EXCHANGE as it begins (R602). -/
def isoOpOf (p : Packet) (c : Card) (s : State) : IsoOp :=
  { handle := Packet8 p 0, rest := poundRead s p.tenant (Packet32 p 8) (Packet32 p 4), last := .sDeselect, num := c.num
    receiving := false, retries := 0, deselecting := none, rspOff := Packet32 p 12, rspMax := Packet32 p 16, rspLen := 0
    sent := 0, received := 0, retrans := 0, wtx := 0, overflow := false, lq := 0, evm := 1000 }

theorem isoStart_of_active (h : HfOpen s) (hhandle : 1 ≤ Packet8 e.pkt 0 ∧ Packet8 e.pkt 0 ≤ 8)
    (hlen : 1 ≤ Packet32 e.pkt 4 ∧ Packet32 e.pkt 4 ≤ 65535) (hmax : 1 ≤ Packet32 e.pkt 16 ∧ Packet32 e.pkt 16 ≤ 65535)
    (hc : cardOf s (Packet8 e.pkt 0) = some c) (hactive : c.state = 3) :
    isoStart e s = isoNextBlock (isoOpOf e.pkt c s) c s := by
  have hvalid : ¬ (Packet8 e.pkt 0 = 0 ∨ 8 < Packet8 e.pkt 0 ∨ Packet32 e.pkt 4 = 0 ∨ 65535 < Packet32 e.pkt 4 ∨
      Packet32 e.pkt 16 = 0 ∨ 65535 < Packet32 e.pkt 16) := by omega
  simp only [isoStart, hvalid, h.not_barred, hc, hactive, ne_eq, not_true, Bool.false_eq_true, if_false]
  rfl

/-- HF_DESELECT of one card, whose record DROP gives up at once. -/
theorem deselectStart_of_card (hquiet : hfBusy s = false) (hhandle : 1 ≤ Packet8 e.pkt 0 ∧ Packet8 e.pkt 0 ≤ 8)
    (hc : cardOf s (Packet8 e.pkt 0) = some c) (haction : Packet8 e.pkt 1 ≤ 1) : deselectStart e s =
      if Packet8 e.pkt 1 = 1 then
        finish .hf 0 (deselectBody ⟨[], 0, 0, false⟩) none (dropCard (Packet8 e.pkt 0) s)
      else deselectGo .hf ⟨[Packet8 e.pkt 0], 0, 0, false⟩ s := by
  have hvalid : ¬ ((Packet8 e.pkt 0 = 0 ∨ 8 < Packet8 e.pkt 0) ∧ Packet8 e.pkt 0 ≠ 0xFF ∨ 1 < Packet8 e.pkt 1) := by
    omega
  have hone : Packet8 e.pkt 0 ≠ 0xFF := by omega
  simp only [deselectStart, hvalid, hquiet, hc, hone, Option.isNone_some, Bool.and_false, Bool.or_self,
    Bool.false_eq_true, if_false, List.foldl_cons, List.foldl_nil]

end CardCommands

/-- Settles O51: each command on operands that it accepts. A card under activation shows HALT by log 32's reading, and
the response time of ISO/IEC 15693, 324 µs, is log 191's presumption. -/
theorem cardOpcodes : Obligations.CardOpcodes := by
  unfold Obligations.CardOpcodes
  refine ⟨fun e c s hbusy hlit hrising => ?first, fun e c s hbusy hlit hrising => ?exchanges⟩
  case first =>
    have hopen : HfOpen s := ⟨hbusy, hlit, hrising⟩
    refine ⟨fun hready htechs hslots halign => nextLeased_of_ready hready (pollStart_of_open hopen htechs hslots halign),
      ?activate⟩
    case activate =>
      intro _ _ hready hmin hmax hlevel hdsi hdri hfsdi hcids hc hnot3 hnot4
      have hp : ActivateParams e.pkt := ⟨⟨hmin, hmax⟩, hlevel, hdsi, hdri, hfsdi, hcids⟩
      exact ⟨fun ht hcid => nextLeased_of_ready hready (activateStart_of_typeA hopen hp hc ⟨hnot3, hnot4⟩ ht hcid),
        fun ht h0 hcid => nextLeased_of_ready hready (activateStart_of_typeB hopen hp hc ⟨hnot3, hnot4⟩ ht h0 hcid),
        fun ht h1 => nextLeased_of_ready hready (activateStart_of_vicinity hopen hp hc ⟨hnot3, hnot4⟩ ht h1)⟩
  case exchanges =>
    have hopen : HfOpen s := ⟨hbusy, hlit, hrising⟩
    refine ⟨?raw, ?vicinity, ?iso, ?deselect⟩
    case raw =>
      exact fun hready hhandle hproto hmin hmax hmin' hmax' htmin htmax hwhole hcard =>
        nextLeased_of_ready hready (transceiveStart_of_open hopen ⟨⟨hmin', hmax'⟩, htmin, htmax⟩ hhandle hproto
          ⟨hmin, hmax⟩ hwhole hcard)
    case vicinity =>
      exact fun hready hhandle hlen hfits hmin hmax htmin htmax hcard =>
        nextLeased_of_ready hready (exchange15Start_of_open hopen ⟨⟨hmin, hmax⟩, htmin, htmax⟩ hhandle hlen hfits hcard)
    case iso =>
      exact fun hready hmin hmax hlmin hlmax htmin htmax hc hactive =>
        nextLeased_of_ready hready (isoStart_of_active hopen ⟨hmin, hmax⟩ ⟨hlmin, hlmax⟩ ⟨htmin, htmax⟩ hc hactive)
    case deselect =>
      intro hready hmin hmax hc
      exact ⟨fun h1 => nextLeased_of_ready hready
          ((deselectStart_of_card hbusy ⟨hmin, hmax⟩ hc h1.le).trans (if_pos h1)),
        fun h0 => nextLeased_of_ready hready
          ((deselectStart_of_card hbusy ⟨hmin, hmax⟩ hc (by omega)).trans (if_neg (by omega)))⟩

section TagCommands

variable {e : Exec} {s : State}

/-- UHF_INVENTORY as it begins, with its time limit counted from `from_` (R613, R616). -/
def inventoryOpOf (p : Packet) (from_ : Nat) : InvOp :=
  { session := Packet8 p 0, target := Packet8 p 1, sel := Packet8 p 2, tagEvents := bit (Packet8 p 3) 0
    roundEvents := bit (Packet8 p 3) 1, maxRecs := Packet16 p 4, emptyRounds := Packet8 p 6
    limitAt := from_ + 1000 * Packet32 p 8, off := Packet32 p 12, recs := [], reads := 0, rounds := 0, emptyRun := 0
    newInRound := 0, q := 0, qfp := 0, slots := 0, collided := 0, empty := 0, targetB := false, stage := .between
    draw := none }

/-- The ranges of UHF_INVENTORY's operands (R635). -/
abbrev InventoryParams (p : Packet) : Prop :=
  Packet8 p 0 ≤ 3 ∧ Packet8 p 1 ≤ 2 ∧ Packet8 p 2 ≤ 3 ∧ (1 ≤ Packet16 p 4 ∧ Packet16 p 4 ≤ 4096) ∧ 1 ≤ Packet8 p 6 ∧
    1 ≤ Packet32 p 8 ∧ Packet32 p 8 ≤ 60000

/-- The time limit of an inventory counts from its packet's admission (R616). -/
theorem inventory_of_carrier (hp : InventoryParams e.pkt) (hlit : carrierOn s = true) :
    inventory e s = beginRound (inventoryOpOf e.pkt e.admitted) s := by
  obtain ⟨hsession, htarget, hsel, ⟨hmin, hmax⟩, hempty, hlmin, hlmax⟩ := hp
  have hvalid : ¬ (3 < Packet8 e.pkt 0 ∨ 2 < Packet8 e.pkt 1 ∨ 3 < Packet8 e.pkt 2 ∨ Packet16 e.pkt 4 = 0 ∨
      4096 < Packet16 e.pkt 4 ∨ Packet8 e.pkt 6 = 0 ∨ Packet32 e.pkt 8 = 0 ∨ 60000 < Packet32 e.pkt 8) := by omega
  simp only [inventory, hvalid, hlit, Bool.not_true, Bool.false_eq_true, if_false]
  rfl

/-- A round that would begin past the time limit ends the inventory. -/
theorem beginRound_of_late {op : InvOp} (h : op.limitAt ≤ s.time) : beginRound op s = invFinish op 2 s := if_pos h

end TagCommands

/-- Refutes O55: it counts the time limit of UHF_INVENTORY from the start of the packet's slice, and R616 from the
admission, as `inventory_of_carrier` says. The two differ where the packet has been suspended and taken up again before
its row ran. The packet here, admitted at 0 with a limit of 1 ms and taken up again at 5000 µs, is past its limit at once and
answered, where the statement has it begin a round and keep its lane. -/
theorem not_tagOpcodes : ¬ Obligations.TagOpcodes := by
  unfold Obligations.TagOpcodes
  intro h
  let e : Exec :=
    { pkt := ⟨7, 0, 0x0400, false, false, 1, 0, 0, [0, 0, 0, 0, 1, 0, 1, 0, 1, 0, 0, 0, 0, 0, 0, 0], 0⟩, start := 0
      slice := 5000, sliceOver := false, suspended := true, towpath := false, clamps := [], stop := none
      partialBody := [], phase := .fresh, parked := false, slot := none, used := 0, prior := none, admitted := 0 }
  let s : State := { State.reset with
    time := 5000
    uhfLane := { State.reset.uhfLane with exec := some e }
    uhfLease := { State.reset.uhfLease with holder := some 0 }
    uhf := { State.reset.uhf with on := true } }
  obtain ⟨hbegins, -⟩ := h e s
  have hready : ReadyLeased .uhf 0x0400 e s := by decide
  have hlit : carrierOn s = true := by decide
  have hstated := hbegins hready (by decide) (by decide) (by decide) (by decide) (by decide) (by decide) (by decide)
    (by decide) hlit
  have hmodel : exec .uhfInventory s = .next (invFinish (inventoryOpOf e.pkt e.admitted) 2 s) :=
    congrArg _ ((onLeased_of_ready inventory hready).trans ((inventory_of_carrier (by decide)
      hlit).trans (beginRound_of_late (by decide))))
  rw [hmodel, Host.Outcome.next.injEq] at hstated
  exact absurd (congrArg (fun t => (execOf t .uhf).isSome) hstated) (by decide)

end Sys2Proof.Machine

/-! # Card emulation and peer mode

One rule for each command and moment, and then the two statements. -/

namespace Sys2Proof.Machine

open Sys2Proof

section Emulation

variable {e : Exec} {p : EmuProfile} {f : EmuFrame} {clip : Bool} {res : FrameResult} {s : State}

/-- The profile that EMU_CONFIGURE stores (R672). -/
def emuProfileOf (p : Packet) (s : State) : EmuProfile :=
  let ats := poundRead s p.tenant (Packet32 p 20) (Packet8 p 5)
  { uidMode := Packet8 p 0, maxRate := Packet8 p 1, atqa := BitVec.ofNat 16 (Packet16 p 2)
    sak := BitVec.ofNat 8 (Packet8 p 4), ats := ats, uid := (p.params.drop 8).take (uidLen (Packet8 p 0))
    cmdOff := Packet32 p 24, rspOff := Packet32 p 28, fwi := atsFwi ats }

theorem emuConfigure_of_params (hok : emuParamsOk e.pkt = true) (hoff : s.emu.armed = false) :
    emuConfigure e s = finish .hf 0 [] none (s.onEmu fun _ =>
      { Emu.reset with profile := some (emuProfileOf e.pkt s), owner := e.pkt.tenant }) := by
  simp only [emuConfigure, hok, hoff, Bool.not_true, Bool.false_eq_true, if_false]
  rfl

theorem emuArm_of_profile (hp : profileOf s e.pkt.tenant = some p) (hfixed : p.uidMode ≠ 3)
    (hdark : hfEmits s = false) (hpeer : s.peer = none) (hoff : s.emu.armed = false) :
    emuArm e s = finish .hf 0 (le 4 0) none (emuListen p.uid s) := by
  simp [emuArm, hp, hfixed, hdark, hpeer, hoff]

/-- A frame of a reader in whose field the card is. -/
theorem exec_emuRxFrame_of_field (harmed : s.emu.armed = true) (hfield : s.emu.state ≠ 0) (hsent : s.hf.tx = none)
    (hres : res ≠ .noSof) :
    let judged := frameJudged (f == .bad) res
    let g := if judged = .ok then f else .bad
    let heard := fun x => (clipEvents clip (countHf judged x)).onHf fun h => { h with sof := false }
    exec (.emuRxFrame f clip res) s =
      .next (onHfEvent (fun x => if s.emu.state = 5 then emuProtocol g (heard x) else emuLayer3 g (heard x)) s) :=
  congrArg _ (onHfEvent_congr fun k => by simp [harmed, hfield, hsent, hres])

theorem exec_emuWtxTimer_of_open (h : s.emu.wtxOpen = true) : exec .emuWtxTimer s = .next s := by
  change execEmuWtxTimer s = _
  simp [execEmuWtxTimer, h]

/-- The card owes its reader an answer, and asks for more time or gives the APDU up (R646). -/
theorem exec_emuWtxTimer_of_due (harmed : s.emu.armed = true) (hawait : s.emu.await = true)
    (hclosed : s.emu.wtxOpen = false) (hsent : s.hf.tx = none) (hdue : s.emu.wtxAt ≤ s.time) : exec .emuWtxTimer s =
      .next (if cfg s 0x233 ≤ s.emu.wtx then
          raise 42 1 (s.onEmu fun m => { m with await := false, wtxOpen := false, rest := [], last := none })
        else emuSend (.emuWtx (cfg s 0x232)) (s.onEmu fun x =>
          { x with wtx := x.wtx + 1, wtxOpen := true, wtxAt := emuWtxPoint s (cfg s 0x232) })) := by
  change execEmuWtxTimer s = _
  simp [execEmuWtxTimer, harmed, hawait, hclosed, hsent, hdue]

theorem emuRespond_of_await (hlen : 1 ≤ Packet16 e.pkt 0 ∧ Packet16 e.pkt 0 ≤ 4096) (hawait : s.emu.await = true)
    (hin : inPound s e.pkt.tenant ((s.emu.profile.map (·.rspOff)).getD 0) (Packet16 e.pkt 0) = true)
    (hsound : poundFenced s e.pkt.tenant ((s.emu.profile.map (·.rspOff)).getD 0) (Packet16 e.pkt 0) = false) :
    emuRespond e s = emuAnswer
      (poundRead s e.pkt.tenant ((s.emu.profile.map (·.rspOff)).getD 0) (Packet16 e.pkt 0)) s := by
  have hvalid : ¬ (Packet16 e.pkt 0 = 0 ∨ 4096 < Packet16 e.pkt 0) := by omega
  simp [emuRespond, hvalid, hawait, hin, hsound]

end Emulation

/-- Settles O59: each command and moment by its own rule. That EMU_DISARM and the loss of the lease stop with code 3 is
log 84's choice, and that the response waits for the reader's answer to an S(WTX) log 168's reading. -/
theorem cardEmulation : Obligations.CardEmulation := by
  unfold Obligations.CardEmulation
  refine fun e p f clip res s => ⟨?configure, ?armed, exec_emuRxFrame_of_field, exec_emuWtxTimer_of_open,
    fun harmed hawait hclosed hsent hdue hleft => ?stretch, fun harmed hawait hclosed hsent hdue hused => ?giveUp, ?respond,
    ?disarm⟩
  case configure =>
    exact fun hready hok hoff =>
      nextLeased_of_ready hready (emuConfigure_of_params hok hoff)
  case armed =>
    exact fun hready hp hfixed hdark hpeer hoff =>
      nextLeased_of_ready hready (emuArm_of_profile hp hfixed hdark hpeer hoff)
  case stretch =>
    exact (exec_emuWtxTimer_of_due harmed hawait hclosed hsent hdue).trans (congrArg _ (if_neg hleft.not_ge))
  case giveUp => exact (exec_emuWtxTimer_of_due harmed hawait hclosed hsent hdue).trans (congrArg _ (if_pos hused))
  case respond =>
    exact fun hready hmin hmax hawait hin hsound =>
      nextLeased_of_ready hready (emuRespond_of_await ⟨hmin, hmax⟩ hawait hin hsound)
  case disarm => exact fun hready => congrArg _ (onLeased_of_ready _ hready)

/-! ## Peer mode (R657–R665, R676–R679) -/

section Peer

variable {e : Exec} {r : PeerRun} {f : PeerFrame} {m : RxMeas} {clip : Bool} {res : FrameResult} {s : State}

theorem peerStart_of_free (hmode : Packet8 e.pkt 0 ≤ 1) (hactive : Packet8 e.pkt 1 ≤ 1) (hrate : Packet8 e.pkt 2 ≤ 2)
    (hdid : Packet8 e.pkt 4 ≤ 14) (hgb : Packet8 e.pkt 5 ≤ 44) (hquiet : hfBusy s = false) (hdark : hfEmits s = false)
    (hallowed : hfAllowed s = true) (hwarn : s.pwr.warn = false) : peerStart e s = peerDraw s.time e.pkt s := by
  have hvalid : ¬ (1 < Packet8 e.pkt 0 ∨ 1 < Packet8 e.pkt 1 ∨ 2 < Packet8 e.pkt 2 ∨ 14 < Packet8 e.pkt 4 ∨
      44 < Packet8 e.pkt 5) := by omega
  simp [peerStart, hvalid, hquiet, hdark, hallowed, hwarn]

theorem peerExchange_of_stage (hlen : Packet32 e.pkt 0 ≤ 4096) (hr : s.peer = some r)
    (hstage : r.stage = (if r.target then .answerDue else .open)) : peerExchange e s =
      peerSendData (setPhase .hf .peerXchg (onPeerRun (fun r =>
        { r with
          rest := (if r.swapOk then [0] else []) ++ poundRead s e.pkt.tenant (Packet32 e.pkt 4) (Packet32 e.pkt 0)
          buf := [], stage := if r.target then .open else .reqSent }) s)) := by
  simp only [peerExchange, hlen.not_gt, hr, hstage, ne_eq, not_true, if_false]

theorem peer_isSome_of_hears (h : peerHears s = true) : s.peer.isSome = true := by
  rcases hr : s.peer with _ | r
  · rw [peerHears, hr] at h
    exact nomatch h
  · rfl

theorem exec_peerRxFrame_of_hears (hhears : peerHears s = true) (hres : res ≠ .noSof) :
    exec (.peerRxFrame f m clip res) s = .next (onHfEvent (peerRx f m clip res) s) := by
  have hpeer := Option.isSome_iff_ne_none.1 (peer_isSome_of_hears hhears)
  refine congrArg _ (onHfEvent_congr fun k => ?_)
  have hhears' : peerHears (s.onHfLane k) = true := hhears
  simp [hhears', hpeer, hres]

theorem answerOwed_of_due (htarget : r.target = true) (hstage : r.stage = .answerDue) : answerOwed r = true := by
  simp [answerOwed, htarget, hstage]

/-- A target that owes its answer asks for more time while RWT runs. -/
theorem exec_peerRtox_of_owed (hr : s.peer = some r) (howed : answerOwed r = true) (hsent : s.hf.tx = none)
    (hheld : s.hf.held = none) : exec .peerRtox s = .next (if s.time ≤ r.rwtEnd then
      peerSend (.rtox (1 + freeBelow s 59)) (onPeerRun (fun p =>
        { p with rwtEnd := s.time + fwt (cfg s 0x235) (1 + freeBelow s 59) }) s.useFree) else s) := by
  change execPeerRtox s = _
  simp [execPeerRtox, hr, howed, hsent, hheld]

theorem peerStop_of_target (hr : s.peer = some r) (htarget : r.target = true) : peerStop e s = peerEnd s := by
  simp [peerStop, hr, htarget]

theorem peerStop_of_open (hr : s.peer = some r) (hinit : r.target = false) (hkind : Packet8 e.pkt 0 ≤ 1)
    (hstage : r.stage = .open) (hfield : r.activeMode = true ∨ hfLit s = true) : peerStop e s =
      peerSend (if Packet8 e.pkt 0 = 0 then .rlsReq else .dslReq) (setPhase .hf .peerXchg s) := by
  simp only [peerStop, hr, hinit, hkind.not_gt, hstage, hfield, and_self, Bool.false_eq_true, if_false, if_true]

end Peer

/-! ## The role swap (R663–R670, R678; log 198) -/

section Swap

variable {e : Exec} {r : PeerRun} {s : State}

theorem peerRoleSwap_of_ready (h : swapReady s = true) :
    peerRoleSwap e s = swapDraw s.time (onPeerRun (fun p => { p with want := true, ties := 0 }) s) := if_pos h

theorem peerRoleSwap_of_not_ready (h : swapReady s = false) : peerRoleSwap e s = finish .hf 0x23 [] none s :=
  if_neg (by simp [h])

theorem exec_swapBackoffEnd_of_over (hr : s.peer = some r) (hstage : r.stage = .swapBackoff) (hdraw : r.drawAt = none)
    (hover : r.until_ ≤ s.time) : exec .swapBackoffEnd s = .next (onHfEvent backoffDraw s) :=
  congrArg _ (onHfEvent_congr fun k => by simp [hr, hstage, hdraw, hover])

/-- The gap is over: a field that stands already, or one that may not be lit, loses the swap. -/
theorem exec_swapGapEnd_of_over (sensed : Bool) (hr : s.peer = some r) (hstage : r.stage = .swapGap)
    (hdraw : r.drawAt = none) (hover : r.until_ ≤ s.time) : exec (.swapGapEnd sensed) s =
      .next (onHfEvent (fun x => if sensed then swapLost 3 x else if !hfAllowed x then swapEnds 0x40 3 x
        else swapSense x) s) :=
  congrArg _ (onHfEvent_congr fun k => by simp [hr, hstage, hdraw, hover])

theorem exec_swapGapEnd_of_allowed (hr : s.peer = some r) (hstage : r.stage = .swapGap) (hdraw : r.drawAt = none)
    (hover : r.until_ ≤ s.time) (hallowed : hfAllowed s = true) :
    exec (.swapGapEnd false) s = .next (onHfEvent swapSense s) := by
  rw [exec_swapGapEnd_of_over false hr hstage hdraw hover]
  refine congrArg _ (onHfEvent_congr fun k => ?_)
  have hallowed' : hfAllowed (s.onHfLane k) = true := hallowed
  simp [hallowed']

theorem exec_swapReactivationTimeout_of_over (hr : s.peer = some r) (hstage : r.stage = .swapListen)
    (hover : r.until_ ≤ s.time) (hsent : s.hf.tx = none) (hheld : s.hf.held = none) :
    exec .swapReactivationTimeout s = .next (onHfEvent (swapLost 2) s) :=
  congrArg _ (onHfEvent_congr fun k => by simp [hr, hstage, hover, hsent, hheld])

/-- The field of the other side has ended. -/
def otherEnded (s : State) : State := onPeerRun (fun p => { p with otherOn := false, otherEnd := s.time }) s

/-- After the other side's field an active side that has a frame to send senses, unless its own field is on. -/
theorem exec_otherFieldEnds_of_on (hr : s.peer = some r) (hactive : r.activeMode = true) (hon : r.otherOn = true) :
    exec .otherFieldEnds s = .next (onHfEvent (fun x =>
      if s.hf.held.isSome && !hfEmits s then answerSense (otherEnded x) else otherEnded x) s) :=
  congrArg _ (onHfEvent_congr fun k => by
    simp only [State.onHfLane_peer, hr, hactive, hon, Bool.and_self, if_true]
    rfl)

theorem swapSense_of_drawn {ws : List Half} {u : State} (h : rngDraw1 1 s = some (ws, u)) : swapSense s =
    (onPeerRun (fun p =>
      { p with stage := .sensing, drawAt := none, until_ := s.time + senseTime ((nth ws 0 0).toNat % 4) }) u).onHf
      fun h => { h with radio := .listen, ext := false } := by
  rw [swapSense, h]

theorem peerFieldSeen_of_sensing (hr : s.peer = some r) (hstage : r.stage = .sensing) : peerFieldSeen s =
    if inPeerPhase s .peerStart then finish .hf 0x23 [] none (peerQuit s) else swapLost 3 s := by
  simp only [peerFieldSeen, hr, hstage, if_true]

end Swap

/-- Settles O60: each command and moment of peer mode by its own rule; that PEER_ROLE_SWAP needs an open link with role
swap in force is R678's. The factor of an RTOX is log 90's choice, its moment log 199's, and the fresh draw of the new
initiator's sensing log 198's reading. -/
theorem peerLinkAndSwap : Obligations.PeerLinkAndSwap := by
  unfold Obligations.PeerLinkAndSwap
  refine ⟨fun e r f m clip res s => ⟨?start, ?exchange, exec_peerRxFrame_of_hears, fun hr howed hsent hheld => ?rtox,
    answerOwed_of_due, ?stopTarget, ?stopOpen⟩, fun e r s => ⟨?ready, ?notReady, exec_swapBackoffEnd_of_over,
    fun hr hstage hdraw hover => ?gap, exec_swapReactivationTimeout_of_over, fun hr hactive hon => ?ended, rfl,
    fun ws u => swapSense_of_drawn, fun hr hstage => ?seen⟩⟩
  case start =>
    exact fun hready hmode hactive hrate hdid hgb hquiet hdark hallowed hwarn => nextLeased_of_ready hready
      (peerStart_of_free hmode hactive hrate hdid hgb hquiet hdark hallowed hwarn)
  case exchange =>
    exact fun hready hlen hr hstage => nextLeased_of_ready hready (peerExchange_of_stage hlen hr hstage)
  case rtox =>
    rw [exec_peerRtox_of_owed hr howed hsent hheld]
    exact ⟨fun h => congrArg _ (if_pos h), fun h => congrArg _ (if_neg h.not_ge)⟩
  case stopTarget => exact fun hready hr htarget => nextLeased_of_ready hready (peerStop_of_target hr htarget)
  case stopOpen =>
    exact fun hready hr hinit hkind hstage hfield =>
      nextLeased_of_ready hready (peerStop_of_open hr hinit hkind hstage hfield)
  case ready => exact fun hready h => nextLeased_of_ready hready (peerRoleSwap_of_ready h)
  case notReady => exact fun hready h => nextLeased_of_ready hready (peerRoleSwap_of_not_ready h)
  case gap => exact ⟨exec_swapGapEnd_of_over true hr hstage hdraw hover, exec_swapGapEnd_of_allowed hr hstage hdraw hover⟩
  case ended =>
    rw [exec_otherFieldEnds_of_on hr hactive hon]
    exact ⟨fun hheld => by simp only [hheld]; rfl, fun hheld hdark => by simp only [hheld, hdark]; rfl⟩
  case seen =>
    rw [peerFieldSeen_of_sensing hr hstage]
    exact ⟨fun h => if_pos h, fun h => if_neg (by simp [h])⟩

end Sys2Proof.Machine

/-! # Noise blocks, waiting draws and the RNG's commands

One rule for each moment and each command, and then the statement. -/

namespace Sys2Proof.Machine

open Sys2Proof

/-! ## Blocks of the sources (R680–R690) -/

section Blocks

variable {noise : Bool} {raw : List Byte} {rings : List (Nat × Nat)} {counts : List Nat} {test : Nat} {s : State}

/-- A block that has come in full goes by the tests' verdict. -/
theorem exec_rngBlockDone_of_block (hon : sourceOn s noise = true) (hfab : fabStopped s = false)
    (hdue : blockNext s noise ≤ s.time) (hlen : raw.length = rawLength noise) :
    exec (.rngBlockDone noise raw rings counts) s = .next
      (if (blockTest noise (testSt s noise) raw rings counts).1 = 0 then
        blockPassed noise raw (setTest noise (blockTest noise (testSt s noise) raw rings counts).2 s)
      else blockFailed noise (blockTest noise (testSt s noise) raw rings counts).1 s) := by
  change execRngBlockDone noise raw s rings counts = _
  simp [execRngBlockDone, hon, hfab, hdue, hlen]

/-- Test 3 is the ring oscillators', which the noise source has none of. -/
theorem ringFails_of_blockTest {t : HealthTest} (h : (blockTest noise t raw rings counts).1 = 3) :
    noise = false ∧ ringFails rings = true := by
  by_contra hsound
  have hring : ¬ (!noise && ringFails rings) = true := by simpa using hsound
  simp only [blockTest, if_neg hring] at h
  split_ifs at h <;> omega

theorem ringFails_iff : ringFails rings = true ↔
    ∃ x, x ∈ rings ∧ (x.1 < 200 ∨ 1000 < x.1 ∨ x.2 < 200 ∨ 1000 < x.2) := by
  simp only [ringFails, List.any_eq_true, decide_eq_true_eq]

theorem blockPassed_eq : blockPassed noise raw s = nextBlock noise 0 ((setFails noise 0 s).onRng fun r =>
    { r with pool := if 8 * r.pool.length + 512 ≤ 4096 then r.pool ++ conditioned noise raw else r.pool }) := by
  have hroom : ∀ n : Nat, n + 64 ≤ 512 ↔ 8 * n + 512 ≤ 4096 := by omega
  simp only [blockPassed, hroom]

theorem blockFailed_of_below (h : sourceFails s noise + 1 < cfg s 0x600) : blockFailed noise test s =
    nextBlock noise 50 (raise 80 (b2n noise + 2 * test + 16 * min 15 (sourceFails s noise + 1))
      (setTest noise HealthTest.reset (setFails noise (sourceFails s noise + 1) s))) := if_neg h.not_ge

end Blocks

/-! ## Reseeds (R691–R695) -/

section Reseeds

variable {s : State}

theorem reseed_open (hstate : s.pwr.state = .run ∨ s.pwr.state = .boot) (hserved : fenced s 4 = false) :
    ¬ ((s.pwr.state ≠ .run ∧ s.pwr.state ≠ .boot) ∨ fenced s 4 = true) := by
  rw [hserved, ← not_or]
  exact not_or.2 ⟨not_not.2 hstate, Bool.false_ne_true⟩

theorem exec_reseed_of_new (hstate : s.pwr.state = .run ∨ s.pwr.state = .boot) (hserved : fenced s 4 = false)
    (hnew : s.rng.instantiated = false) (hpool : 384 ≤ poolBits s) :
    exec .reseed s = .next (serveDraws (rngInstantiate s)) := by
  change execReseed s = _
  rw [execReseed, if_neg (reseed_open hstate hserved)]
  simp [hnew, hpool.not_gt]

theorem exec_reseed_of_stretched (hstate : s.pwr.state = .run ∨ s.pwr.state = .boot) (hserved : fenced s 4 = false)
    (hold : s.rng.instantiated = true) (hstretched : s.rng.stretched = true) (hpool : 256 ≤ poolBits s) :
    exec .reseed s = .next (serveDraws (rngReseed s)) := by
  change execReseed s = _
  rw [execReseed, if_neg (reseed_open hstate hserved)]
  simp [hold, hstretched, hpool]

/-- A reseed takes its 256 bits out of the pool. -/
theorem rngReseed_pool (s : State) : (rngReseed s).rng.pool = s.rng.pool.drop 32 := by
  simp only [rngReseed]
  split <;> simp

end Reseeds

/-! ## Draws that wait (R696) -/

section Draws

variable {l : LaneId} {since : Nat} {e : Exec} {s : State}

/-- What a late draw's end is for the packet of a lane. -/
theorem exec_drawTimeout_of_late (he : execOf s l = some e) (hlate : lateDrawer s l e = true)
    (hover : since + 100000 ≤ s.time) :
    (e.phase = .draw since → exec (.drawTimeout l) s = .next (if e.pkt.opcode = 0x0512 then
        finish l 0x30 (swapBody s false) none (swapDropped s) else finish l 0x30 e.partialBody none s)) ∧
    (∀ key, e.phase = .cipherDraw key since → exec (.drawTimeout l) s = .next (finish l 0x30 [] none s)) ∧
    (∀ op, e.phase = .inventory op → op.draw = some since →
      exec (.drawTimeout l) s = .next (finish l 0x30 (invBody op (freeBelow s 256)) none s.useFree)) ∧
    (∀ r b, e.phase = .peerSwap → s.peer = some r → r.drawAt = some (since, b) →
      exec (.drawTimeout l) s = .next (finish l 0x30 (swapBody s false) none (peerAlone s))) := by
  have hdraw : drawLate s since = true := decide_eq_true hover
  refine ⟨fun hphase => ?draw, fun key hphase => ?cipher, fun op hphase hop => ?inventory,
    fun r b hphase hr hb => ?swap⟩
  all_goals refine congrArg _ ((withWaiting_of_exec he hlate).trans ?_)
  case draw => simp [he, hphase, hdraw]
  case cipher => simp [he, hphase, hdraw]
  case inventory => simp [he, hphase, hop, hdraw]
  case swap => simp [he, hphase, hr, hb, hdraw]

end Draws

/-! ## RNG_READ, RNG_KAT and RNG_RESTART (R705, R706, R734–R736) -/

section RngCommands

variable {e : Exec} {t : Nat} {s : State}

theorem rngRead_of_length (hmin : 1 ≤ Packet32 e.pkt 0) (hmax : Packet32 e.pkt 0 ≤ 65536)
    (halign : Packet32 e.pkt 8 % 4 = 0) : rngRead e s = readFrom e 0 s.time s :=
  if_neg (by omega)

theorem katFences_of_passed (h : t % 32 = 0) : katFences t s = s := by
  have h4 : t % 4 = 0 := by omega
  simp [katFences, h, h4]

end RngCommands

/-- Settles O44: each moment and command by its own rule. When a block may end is log 200's reading, the stop cause of an
inventory that ends for lack of entropy log 109's choice, the body of a role swap that does log 110's, and how the draws
of a swap wait log 235's. -/
theorem noiseAndRngOpcodes : Obligations.NoiseAndRngOpcodes := by
  unfold Obligations.NoiseAndRngOpcodes
  refine ⟨fun noise raw rings counts test s hon hfab hdue hlen => ?block, fun l since t e s => ⟨fun hstate hserved =>
    ⟨exec_reseed_of_new hstate hserved, exec_reseed_of_stretched hstate hserved⟩, rfl, rngReseed_pool s,
    exec_drawTimeout_of_late, ?read, ?kat, ?restart⟩⟩
  case block =>
    rw [exec_rngBlockDone_of_block hon hfab hdue hlen]
    exact ⟨fun h => congrArg _ (if_pos h), fun h => congrArg _ (if_neg h),
      fun h => (ringFails_of_blockTest h).imp_right ringFails_iff.1, blockPassed_eq, blockFailed_of_below⟩
  case read => exact fun hready hmin hmax halign => nextFresh_of_ready hready (rngRead_of_length hmin hmax halign)
  case kat => exact fun hready => ⟨nextFresh_of_ready hready rfl, katFences_of_passed⟩
  case restart =>
    exact fun hready hserved => nextFresh_of_ready hready (by rw [restartSources, if_neg (by simp [hserved])]; rfl)

end Sys2Proof.Machine

/-! # The key store and the cipher unit

One rule for each command, and then the statement. -/

namespace Sys2Proof.Machine

open Sys2Proof

/-! ## The key store (R711–R741) -/

section KeyStore

variable {e : Exec} {h : Shadow} {st : Nat} {s u : State}

/-- What keeps a staging from its parent key, where it derives its key (R713, R719). -/
def parentBar (p : Packet) (s : State) : Option Nat :=
  if Packet8 p 6 = 1 then useBar s p.tenant (Packet8 p 7) 3 else none

/-- The caller may stage the key: operands, rights and version are in order (R712, R717, R718). -/
def StageOpen (e : Exec) (s : State) : Prop :=
  stageOk e.pkt = true ∧ slotOpen s e.pkt.tenant (Packet8 e.pkt 0) = true ∧
    (e.pkt.tenant = 0 ∨ Packet8 e.pkt 3 = e.pkt.tenant) ∧ (slotOf s (Packet8 e.pkt 0)).version < Packet16 e.pkt 4

theorem keyStage_of_open (hkeys : s.chr.keysDead = false) (hopen : StageOpen e s) : keyStage e s =
    match parentBar e.pkt s with
    | some st => finish .house st [] none s
    | none => if stageWaits s then setPhase .house .keyErase s else stageUse e s := by
  obtain ⟨hok, hslot, howner, hversion⟩ := hopen
  have hright : ¬ (e.pkt.tenant ≠ 0 ∧ Packet8 e.pkt 3 ≠ e.pkt.tenant) := by tauto
  simp only [keyStage, hkeys, hok, hslot, hright, hversion.not_ge, Bool.not_true, Bool.false_eq_true, if_false]
  rfl

theorem keyStage_of_bar (hkeys : s.chr.keysDead = false) (hopen : StageOpen e s) (hbar : parentBar e.pkt s = some st) :
    keyStage e s = finish .house st [] none s := by
  rw [keyStage_of_open hkeys hopen, hbar]

theorem keyStage_of_waits (hkeys : s.chr.keysDead = false) (hopen : StageOpen e s) (hbar : parentBar e.pkt s = none)
    (hwaits : stageWaits s = true) : keyStage e s = setPhase .house .keyErase s := by
  rw [keyStage_of_open hkeys hopen, hbar]
  exact if_pos hwaits

theorem keyStage_of_goes (hkeys : s.chr.keysDead = false) (hopen : StageOpen e s) (hbar : parentBar e.pkt s = none)
    (hlog : stageWaits s = false) : keyStage e s = stageUse e s := by
  rw [keyStage_of_open hkeys hopen, hbar]
  exact if_neg (by simp [hlog])

theorem stageUse_of_below (h : Packet8 e.pkt 6 = 0 ∨ atCeiling s (Packet8 e.pkt 7) = false) :
    stageUse e s = stageGo e s :=
  if_neg (by rcases h with h | h <;> simp [h])

theorem stageUse_of_ceiling (hkind : Packet8 e.pkt 6 = 1) (hceiling : atCeiling s (Packet8 e.pkt 7) = true)
    (hsub : useSubmit (Packet8 e.pkt 7) s = some u) : stageUse e s = setPhase .house .stageUse u := by
  simp only [stageUse, hkind, hceiling, hsub, and_self, if_true]

/-- A command whose key log entry has been taken waits for its commit. -/
theorem keyEntry_of_submitted {k : JobKind} {body : List Byte} (h : entrySubmit k (some .house) s = some u) :
    keyEntry k body s = onExec .house (fun x => { x with phase := .nv 0, partialBody := body }) u := by
  rw [keyEntry, h]

theorem keyCommit_of_submitted (hkeys : s.chr.keysDead = false) (hk : Packet8 e.pkt 0 < 64)
    (hslot : slotOpen s e.pkt.tenant (Packet8 e.pkt 0) = true) (hh : shadowOf s (Packet8 e.pkt 0) = some h)
    (howner : e.pkt.tenant = 0 ∨ h.owner = e.pkt.tenant)
    (hsub : entrySubmit (.keyActivate (Packet8 e.pkt 0) h) (some .house) s = some u) : keyCommit e s =
      onExec .house (fun x => { x with phase := .nv 0, partialBody := le 2 h.version ++ le 2 0 }) u := by
  have hvalid : ¬ 63 < Packet8 e.pkt 0 := by omega
  have hright : ¬ (e.pkt.tenant ≠ 0 ∧ h.owner ≠ e.pkt.tenant) := by tauto
  simp only [keyCommit, hkeys, hvalid, hslot, hh, hright, keyEntry_of_submitted hsub, Bool.not_true, Bool.false_eq_true,
    if_false]

theorem keyQuery_of_open (hkeys : s.chr.keysDead = false) (hk : Packet8 e.pkt 0 < 64)
    (hslot : slotOpen s e.pkt.tenant (Packet8 e.pkt 0) = true) :
    keyQuery e s = finish .house 0 (keyQueryBody s (Packet8 e.pkt 0)) none s := by
  have hvalid : ¬ 63 < Packet8 e.pkt 0 := by omega
  simp only [keyQuery, hkeys, hvalid, hslot, Bool.not_true, Bool.false_eq_true, if_false]

theorem keyDestroy_of_submitted (hkeys : s.chr.keysDead = false) (hk : Packet8 e.pkt 0 < 64)
    (hright : e.pkt.tenant = 0 ∨
      (slotOf s (Packet8 e.pkt 0)).state ≠ 0 ∧ (slotOf s (Packet8 e.pkt 0)).owner = e.pkt.tenant)
    (hsub : entrySubmit (.keyDestroy (Packet8 e.pkt 0)) (some .house) s = some u) :
    keyDestroy e s = onExec .house (fun x => { x with phase := .nv 0, partialBody := [] }) u := by
  have hvalid : ¬ 63 < Packet8 e.pkt 0 := by omega
  have hbar : ¬ (e.pkt.tenant ≠ 0 ∧ (if (slotOf s (Packet8 e.pkt 0)).state = 0 then
      (shadowOf s (Packet8 e.pkt 0)).map (·.owner) ≠ some e.pkt.tenant
      else (slotOf s (Packet8 e.pkt 0)).owner ≠ e.pkt.tenant)) := by
    rcases hright with h | ⟨hstate, howner⟩
    · exact fun hne => hne.1 h
    · simp [hstate, howner]
  simp only [keyDestroy, hkeys, hvalid, hbar, keyEntry_of_submitted hsub, Bool.false_eq_true, if_false]

theorem exec_keyLogRollover_of_submitted (hkeys : s.chr.keysDead = false) (hrun : s.pwr.state = .run)
    (hlog : s.nv.keyLog = .valid) (hfree : s.nv.keyLogFree < 8) (hidle : keyCommitRuns s = false)
    (hserved : fenced s 6 = false) (hsub : (rollJob s).bind (nvSubmit · s) = some u) :
    exec .keyLogRollover s = .next u := by
  change execKeyLogRollover s = _
  simp [execKeyLogRollover, hkeys, hrun, hlog, hfree, hidle, hserved, hsub]

end KeyStore

/-! ## The cipher unit (R707–R712, R722, R729, R772) -/

section Cipher

variable {ecc : EccRead} {e : Exec} {k op st use : Nat} {s s0 u : State}

/-- A packet that starts is one for the opcode. -/
theorem opcode_of_fresh {l : LaneId} (h : freshOn s l op = some e) : e.pkt.opcode = op := by
  unfold freshOn at h
  split at h
  case h_1 =>
    obtain ⟨⟨hop, -⟩, hxe⟩ := Option.ite_none_right_eq_some.1 h
    rwa [← Option.some.inj hxe]
  case h_2 => exact nomatch h

theorem cipherAes_of_ok (hkeys : s.chr.keysDead = false) (hok : aesOk e.pkt = true) :
    cipherAes ecc e s = cipherStart (if Packet8 e.pkt 1 ≤ 1 then 0 else 1) ecc e s := by
  simp only [cipherAes, hkeys, hok, Bool.not_true, Bool.false_eq_true, if_false]

theorem cipherCmac_of_ok (hkeys : s.chr.keysDead = false) (hok : Packet8 e.pkt 0 < 64 ∧ 4 ≤ Packet8 e.pkt 2 ∧
    Packet8 e.pkt 2 ≤ 16 ∧ Packet32 e.pkt 4 ≤ 65536) : cipherCmac ecc e s = cipherStart 2 ecc e s := by
  have hvalid : ¬ (63 < Packet8 e.pkt 0 ∨ Packet8 e.pkt 2 < 4 ∨ 16 < Packet8 e.pkt 2 ∨ 65536 < Packet32 e.pkt 4) := by
    omega
  simp only [cipherCmac, hkeys, hvalid, Bool.false_eq_true, if_false]

/-- What a cipher command has read of its slot's record when it starts (R772; log 258). -/
def cipherView (ecc : EccRead) (e : Exec) (s0 : State) : State :=
  if keyStands s0 e then keyRead ecc (Packet8 e.pkt 0) s0 else s0

/-- The slot whose key the command runs with: that of its admission, unless its record reads invalid (R709, R729). -/
def cipherSlot (ecc : EccRead) (e : Exec) (s0 : State) : KeySlot :=
  let s := cipherView ecc e s0
  if keyStands s0 e && !keyStands s e then slotOf s (Packet8 e.pkt 0) else admittedSlot s e

/-- What bars a cipher command from its slot (R713). -/
def cipherBar (use : Nat) (ecc : EccRead) (e : Exec) (s0 : State) : Option Nat :=
  barOf (cipherSlot ecc e s0) (usedBy (cipherView ecc e s0) e) e.pkt.tenant use

theorem cipherStart_of_bar (hbar : cipherBar use ecc e s0 = some st) :
    cipherStart use ecc e s0 = finish .house st [] none (cipherView ecc e s0) := by
  change (match cipherBar use ecc e s0 with
    | some st => finish .house st [] none (cipherView ecc e s0)
    | none => _) = _
  rw [hbar]

/-- A cipher command that nothing bars from its slot, the key `x` of which it uses (R722). -/
def cipherUseSlot (e : Exec) (x : KeySlot) (s : State) : State :=
  if keyStands s e && atCeiling s (Packet8 e.pkt 0) then
    match useSubmit (Packet8 e.pkt 0) s with
    | none => entriesRefused 1 s
    | some s1 => setPhase .house (.cipherUse x.key) s1
  else cipherGo e x.key s

theorem cipherStart_of_open (hbar : cipherBar use ecc e s0 = none) :
    cipherStart use ecc e s0 = cipherUseSlot e (cipherSlot ecc e s0) (cipherView ecc e s0) := by
  change (match cipherBar use ecc e s0 with
    | some st => finish .house st [] none (cipherView ecc e s0)
    | none => _) = _
  rw [hbar]
  rfl

theorem cipherUseSlot_of_below {x : KeySlot}
    (h : keyStands s e = false ∨ atCeiling s (Packet8 e.pkt 0) = false) : cipherUseSlot e x s = cipherGo e x.key s :=
  if_neg (by rcases h with h | h <;> simp [h])

theorem cipherUseSlot_of_ceiling {x : KeySlot}
    (h : ¬ (keyStands s e = false ∨ atCeiling s (Packet8 e.pkt 0) = false))
    (hsub : useSubmit (Packet8 e.pkt 0) s = some u) :
    cipherUseSlot e x s = setPhase .house (.cipherUse x.key) u := by
  have hat : (keyStands s e && atCeiling s (Packet8 e.pkt 0)) = true := by simpa using h
  simp only [cipherUseSlot, hat, hsub, if_true]

theorem cipherGo_of_run {key : List Byte} (h : e.pkt.opcode = 0x0720 → bit (Packet8 e.pkt 2) 0 = false) :
    cipherGo e key s = cipherRun e key s :=
  if_neg fun ⟨hop, hiv⟩ => Bool.false_ne_true ((h hop).symm.trans hiv)

theorem cipherGo_of_draw {key : List Byte} (hop : e.pkt.opcode = 0x0720) (hiv : bit (Packet8 e.pkt 2) 0 = true) :
    cipherGo e key s = cipherDraw e key s.time s := if_pos ⟨hop, hiv⟩

theorem dropGone_of_sound (h : recordGone s k = false) : dropGone k s = s := if_neg (by simp [h])

/-- Only a slot of the key store can be active. -/
theorem slot_lt_of_recordGone (h : recordGone s k = true) : k < s.nv.slots.length := by
  by_contra hk
  have hempty : slotOf s k = KeySlot.empty := by
    simp [slotOf, nth, List.getElem?_eq_none (Nat.not_lt.1 hk)]
  simp [recordGone, hempty, KeySlot.empty] at h

theorem dropGone_of_gone (h : recordGone s k = true) : ∃ t,
    dropGone k s = keyIncomplete k 3 (slotOf s k).owner t ∧
      slotOf t k = { slotOf s k with state := 0, key := [], kcv := [], page := 255 } :=
  ⟨_, if_pos h, nth_modAt_same _ _ (slot_lt_of_recordGone h)⟩

end Cipher

/-- Settles O45: the commands of the key store by their own rules, and a cipher command by what bars its slot and by the
slot's ceiling. That the record is read first is log 258's choice, and that a command whose slot has another key by now
counts nothing log 241's reading. -/
theorem keyAndCipherOpcodes : Obligations.KeyAndCipherOpcodes := by
  unfold Obligations.KeyAndCipherOpcodes
  refine ⟨fun e h st s u hkeys => ⟨?stage, ?commit, ?query, ?destroy, exec_keyLogRollover_of_submitted hkeys⟩,
    fun ecc e st s0 u hkeys => ⟨?aes, ?aesUse, ?aesBar, ?cmac, ?cmacUse, ?cmacBar, dropGone_of_sound,
    dropGone_of_gone⟩⟩
  case stage =>
    intro hready hok hslot howner hversion
    have hopen : StageOpen e s := ⟨hok, hslot, howner, hversion⟩
    exact ⟨fun hbar => nextFresh_of_ready hready (keyStage_of_bar hkeys hopen hbar),
      fun hbar hwaits => nextFresh_of_ready hready (keyStage_of_waits hkeys hopen hbar hwaits),
      fun hbar hlog hbelow => nextFresh_of_ready hready
        ((keyStage_of_goes hkeys hopen hbar hlog).trans (stageUse_of_below hbelow)),
      fun hbar hlog hkind hceiling hsub => nextFresh_of_ready hready
        ((keyStage_of_goes hkeys hopen hbar hlog).trans (stageUse_of_ceiling hkind hceiling hsub))⟩
  case commit =>
    exact fun hready hk hslot hh howner hsub =>
      nextFresh_of_ready hready (keyCommit_of_submitted hkeys hk hslot hh howner hsub)
  case query => exact fun hready hk hslot => nextFresh_of_ready hready (keyQuery_of_open hkeys hk hslot)
  case destroy =>
    exact fun hready hk hright hsub => nextFresh_of_ready hready (keyDestroy_of_submitted hkeys hk hright hsub)
  case aes =>
    intro hready hok hbar hbelow
    have hgoes := (cipherAes_of_ok hkeys hok).trans ((cipherStart_of_open hbar).trans (cipherUseSlot_of_below hbelow))
    obtain ⟨hfresh, -⟩ := id hready
    exact ⟨fun hiv => nextFresh_of_ready hready (hgoes.trans (cipherGo_of_run fun _ => hiv)),
      fun hiv => nextFresh_of_ready hready (hgoes.trans (cipherGo_of_draw (opcode_of_fresh hfresh) hiv))⟩
  case aesUse =>
    exact fun hready hok hbar hceiling hsub => nextFresh_of_ready hready
      ((cipherAes_of_ok hkeys hok).trans ((cipherStart_of_open hbar).trans (cipherUseSlot_of_ceiling hceiling hsub)))
  case aesBar =>
    exact fun hready hok hbar =>
      nextFresh_of_ready hready ((cipherAes_of_ok hkeys hok).trans (cipherStart_of_bar hbar))
  case cmac =>
    intro hready hok hbar hbelow
    obtain ⟨hfresh, -⟩ := id hready
    have hop : e.pkt.opcode ≠ 0x0720 := by simp [opcode_of_fresh hfresh]
    have hgoes := (cipherCmac_of_ok hkeys hok).trans ((cipherStart_of_open hbar).trans (cipherUseSlot_of_below hbelow))
    exact nextFresh_of_ready hready (hgoes.trans (cipherGo_of_run fun h => absurd h hop))
  case cmacUse =>
    exact fun hready hok hbar hceiling hsub => nextFresh_of_ready hready
      ((cipherCmac_of_ok hkeys hok).trans ((cipherStart_of_open hbar).trans (cipherUseSlot_of_ceiling hceiling hsub)))
  case cmacBar =>
    exact fun hready hok hbar =>
      nextFresh_of_ready hready ((cipherCmac_of_ok hkeys hok).trans (cipherStart_of_bar hbar))

end Sys2Proof.Machine

/-! # Fence entry and UNFENCE

What a fence's entry leaves of FENCE_MAP (R748): a rule `_fence` says of an operation that it keeps the map with its
causes and details, in the order of the model; of all that fence entry does, `markFence` alone changes it. -/

namespace Sys2Proof.Machine

open Sys2Proof

/-! ## What keeps FENCE_MAP -/

@[simp] theorem fence_ite (p : Prop) [Decidable p] (s t : State) :
    (if p then s else t).fence = if p then s.fence else t.fence := apply_ite State.fence p s t

@[simp] theorem hfIdle_fence (s : State) : (hfIdle s).fence = s.fence := by simp [hfIdle]
@[simp] theorem emuOff_fence (cause : Nat) (s : State) : (emuOff cause s).fence = s.fence := by simp [emuOff]
@[simp] theorem peerOff_fence (s : State) : (peerOff s).fence = s.fence := by simp [peerOff]
@[simp] theorem addDue_fence (c : Chain) (ks : List StepKind) (s : State) : (addDue c ks s).fence = s.fence := (rfl)
@[simp] theorem setCodes_fence (cs cp : Nat) (s : State) : (setCodes cs cp s).fence = s.fence := by simp [setCodes]
@[simp] theorem putCodes_fence (cs cp : Nat) (s : State) : (putCodes cs cp s).fence = s.fence := by simp [putCodes]

@[simp] theorem undoTuner_fence (s : State) : (undoTuner s).fence = s.fence := by
  unfold undoTuner
  split <;> simp

@[simp] theorem towStop_fence (c : Chain) (s : State) : (towStop c s).fence = s.fence := by simp [towStop]

@[simp] theorem abandonRetune_fence (s : State) : (abandonRetune s).fence = s.fence := by
  unfold abandonRetune
  split <;> simp

@[simp] theorem cutCapture_fence (c : Chain) (s : State) : (cutCapture c s).fence = s.fence := by
  unfold cutCapture
  split <;> simp

@[simp] theorem hfFall_fence (cause : Nat) (s : State) : (hfFall cause s).fence = s.fence := by simp [hfFall]
@[simp] theorem hfApplyStep_fence (k : Nat) (s : State) : (hfApplyStep k s).fence = s.fence := (rfl)
@[simp] theorem lpcdFromBank_fence (c : HfCal) (s : State) : (lpcdFromBank c s).fence = s.fence := (rfl)
@[simp] theorem dropVerdicts_fence (c : Chain) (s : State) : (dropVerdicts c s).fence = s.fence := (rfl)

@[simp] theorem hfTakeValues_fence (s : State) : (hfTakeValues s).fence = s.fence := by
  simp only [hfTakeValues]
  (repeat' split) <;> simp

@[simp] theorem hfBoundary_fence (s : State) : (hfBoundary s).fence = s.fence := by
  fun_cases hfBoundary <;> simp +zetaDelta

@[simp] theorem hfDriverCut_fence (s : State) : (hfDriverCut s).fence = s.fence := by simp [hfDriverCut]
@[simp] theorem setHfGrant_fence (mw : Nat) (s : State) : (setHfGrant mw s).fence = s.fence := (rfl)
@[simp] theorem setUhfGrant_fence (mw : Nat) (s : State) : (setUhfGrant mw s).fence = s.fence := (rfl)
@[simp] theorem setField_fence (id : Nat) (v : Int) (s : State) : (setField id v s).fence = s.fence := (rfl)
@[simp] theorem giveUpRise_fence (s : State) : (giveUpRise s).fence = s.fence := (rfl)

@[simp] theorem uhfFall_fence (why : FallFor) (s : State) : (uhfFall why s).fence = s.fence := by
  unfold uhfFall
  split <;> simp

@[simp] theorem uhfTakeValues_fence (s : State) : (uhfTakeValues s).fence = s.fence := by
  fun_cases uhfTakeValues <;> simp +zetaDelta

@[simp] theorem uhfApplyPower_fence (p : Nat) (s : State) : (uhfApplyPower p s).fence = s.fence := (rfl)

@[simp] theorem uhfBoundary_fence (s : State) : (uhfBoundary s).fence = s.fence := by
  simp only [uhfBoundary]
  split <;> simp

@[simp] theorem onLights_fence (c : Chain) (f : Exec → Exec) (s : State) : (onLights c f s).fence = s.fence := by
  simp [onLights]

@[simp] theorem lightFails_fence (c : Chain) (want : Nat) (s : State) : (lightFails c want s).fence = s.fence := by
  simp [lightFails]

@[simp] theorem lowerHf_fence (k : Nat) (s : State) : (lowerHf k s).fence = s.fence := by simp [lowerHf]
@[simp] theorem reduceHf_fence (s : State) : (reduceHf s).fence = s.fence := by simp [reduceHf]
@[simp] theorem lowerUhf_fence (p : Nat) (s : State) : (lowerUhf p s).fence = s.fence := by simp [lowerUhf]
@[simp] theorem reduceUhf_fence (s : State) : (reduceUhf s).fence = s.fence := by simp [reduceUhf]
@[simp] theorem refit_fence (s : State) : (refit s).fence = s.fence := by fun_cases refit <;> simp

@[simp] theorem useFree_fence (s : State) : (State.useFree s).fence = s.fence := (rfl)
@[simp] theorem stopOnUnit_fence (u status : Nat) (s : State) : (stopOnUnit u status s).fence = s.fence := (rfl)
@[simp] theorem samDown_fence (n : Nat) (s : State) : (samDown n s).fence = s.fence := by simp [samDown]

@[simp] theorem samOff_fence (n : Nat) (s : State) : (samOff n s).fence = s.fence := by
  unfold samOff
  split <;> simp

@[simp] theorem makeSafe_fence (u : Nat) (s : State) : (makeSafe u s).fence = s.fence := by
  unfold makeSafe
  split <;> simp

/-! ## Fence entry (R748, R751, R753) -/

section FenceEntry

variable {s : State} {u : Nat}

theorem fenced_congr {t : State} (h : t.fence = s.fence) (k : Nat) : fenced t k = fenced s k := by simp [fenced, h]

/-- Steps 1 and 3 to 5 of fence entry keep what step 2 wrote (R748). -/
theorem fenceUnit_fence (cause d : Nat) (hu : fenced s u = false) :
    (fenceUnit u cause d s).fence = (markFence u cause d s).fence := by
  simp [fenceUnit, hu]

theorem fenced_fenceUnit (cause d k : Nat) (hk : k < 14) (hu : fenced s u = false) :
    fenced (fenceUnit u cause d s) k = (fenced s k || decide (k = u)) := by
  rw [fenced_congr (fenceUnit_fence cause d hu)]
  have hbit : ((1#14) <<< u).getLsbD k = decide (k = u) := by
    by_cases hku : k = u
    · simp [hku, hku ▸ hk]
    · rcases Nat.lt_or_gt_of_ne hku with h | h
      · simp [hku, h]
      · simp [hku, Nat.sub_ne_zero_of_lt h]
  simp [fenced, markFence, BitVec.getLsbD_or, hbit]

theorem cause_fenceUnit (cause d : Nat) (hu : fenced s u = false) (hlen : u < s.fence.causes.length) :
    nth (fenceUnit u cause d s).fence.causes u 0 = cause := by
  rw [fenceUnit_fence cause d hu]
  exact nth_modAt_same _ _ hlen

theorem fenceUnit_again (cause d : Nat) (hu : fenced s u = true) :
    fenceUnit u cause d s = logRecord 1 0xFF 0xFF 0 0 (testHit u s) := by
  simp [fenceUnit, hu]

theorem exec_fenceEntry (cause : Nat) (hrun : s.pwr.state = .run) (hcause : fenceCause u cause = true)
    (h1 : cause ≠ 1) (h16 : cause ≠ 16) (hable : fenceable s u = true) :
    exec (.fenceEntry u cause) s = .next (fenceUnit u cause (fenceDetail s u cause)
      (if u = 4 ∧ (cause = 2 ∨ cause = 8) ∧ fenced s 4 = false then raise 81 2 s else s).useFree) := by
  change execFenceEntry u cause s = _
  simp [execFenceEntry, hrun, hcause, h1, h16, hable]

end FenceEntry

/-! ## UNFENCE and its self-tests (R755–R760) -/

section Unfence

variable {e : Exec} {s : State} {op : TestOp} {u : Nat} {us : List Nat}

theorem exec_unfence {t : State} (failing : List Nat) (rl : Nat) (ecc : EccRead) (hready : Ready .house 0x0103 e s)
    (h : unfence failing rl ecc e s = t) : exec (.unfence failing rl ecc) s = .next t :=
  nextFresh_of_ready hready h

theorem testTick_of_testing (he : execOf s .house = some e) (hphase : e.phase = .testing op) :
    testTick s = if op.endAt ≤ s.time then testEnd op s else s := by
  simp [testTick, he, hphase]

theorem testEnd_cons (hrest : op.rest = u :: us) :
    testEnd op s = testNext { op with rest := us }
      (unfenceOne (if op.hit then u :: op.failing else op.failing) op.rl (testRead u op.ecc s) u) := by
  simp [testEnd, hrest]

theorem testRead_of_ne (ecc : EccRead) (hu : u ≠ 6) : testRead u ecc s = s := by simp [testRead, hu]

theorem underTest_of_testing (he : execOf s .house = some e) (hphase : e.phase = .testing op)
    (hrest : op.rest = u :: us) : underTest s = some u := by
  simp [underTest, he, hphase, hrest]

theorem testHit_other {k : Nat} (htest : underTest s = some u) (hk : k ≠ u) : testHit k s = s := by
  simp [testHit, htest, Ne.symm hk]

theorem testHit_same (he : execOf s .house = some e) (hphase : e.phase = .testing op) (hrest : op.rest = u :: us) :
    testHit u s = onExec .house (fun x => { x with phase := .testing { op with hit := true } }) s := by
  rw [testHit, if_pos (underTest_of_testing he hphase hrest), onExec_of_exec _ he, onExec_of_exec _ he]
  simp only [hphase]

theorem unfenceFailed_fenced (k : Nat) : fenced (unfenceFailed u s) k = fenced s k := by
  simp [unfenceFailed, fenced]

/-- A unit whose test fails, whose cause lasts or which reflects stays fenced (R444, R758, R760). -/
theorem unfenceOne_of_failing {failing : List Nat} {rl : Nat} (hu : fenced s u = true)
    (h : u ∈ failing ∨ causePersists s u = true ∨ reflects s u rl = true) :
    unfenceOne failing rl s u = unfenceFailed u s := by
  simp [unfenceOne, hu, h]

end Unfence

/-- Settles O41: fence entry keeps FENCE_MAP but for the mark of its unit; the self-tests run one after another, each
for the time of log 249, the model's choice within the limits of R757. -/
theorem fenceAndUnfence : Obligations.FenceAndUnfence := by
  refine ⟨?entry, ?unfence, ?tests, ?failed⟩
  case entry =>
    intro u cause s hrun hu hcause h1 h16 hable d v
    have hv : v.fence = s.fence := by simp [v]
    have hfenced : ∀ k, fenced v k = fenced s k := fenced_congr hv
    refine ⟨exec_fenceEntry cause hrun hcause h1 h16 hable, fun hf => ?_, fun hf => ⟨fun k hk => ?_, fun hlen => ?_⟩⟩
    · exact fenceUnit_again cause d ((hfenced u).trans hf)
    · rw [fenced_fenceUnit cause d k hk ((hfenced u).trans hf), hfenced]
    · exact cause_fenceUnit cause d ((hfenced u).trans hf) (by rw [hv, hlen]; exact hu)
  case unfence =>
    intro failing rl ecc e s hready named
    refine ⟨fun hnone => exec_unfence failing rl ecc hready ?_, fun u us hnamed =>
      exec_unfence failing rl ecc hready ?_⟩
    · simp only [unfence]
      rw [show (List.range 14).filter _ = [] from hnone]
      simp [testNext, unfenceDone]
    · simp only [unfence]
      rw [show (List.range 14).filter _ = u :: us from hnamed]
      simp [named, hnamed, testNext]
  case tests =>
    intro e op u us s he hphase hrest t
    have htick := testTick_of_testing he hphase
    refine ⟨fun hearly => ?_, fun hend hlast => ?_, fun v vs hend hnext => ?_, testRead_of_ne op.ecc,
      testHit_same he hphase hrest, fun k hk => testHit_other (underTest_of_testing he hphase hrest) hk⟩
    · rw [htick, if_neg (by omega)]
    · rw [htick, if_pos hend, testEnd_cons hrest, hlast]
      rfl
    · rw [htick, if_pos hend, testEnd_cons hrest, hnext]
      rfl
  case failed =>
    intro failing rl u s _ hu hfails
    rw [unfenceOne_of_failing hu hfails, unfenceFailed_fenced, hu]

end Sys2Proof.Machine

/-! # The scrubber and the fault log

What a corrected bit and a double error leave in the Basin, and the queue of fault log records. -/

namespace Sys2Proof.Machine

open Sys2Proof

/-! ## BASIN_SCRUB (R767–R769) -/

section Scrub

variable {addr : Nat} {s : State}

theorem wordOf_lt_basinSize (h : addr < basinSize) : addr / 4 * 4 + 3 < basinSize := by
  simp only [basinSize] at h ⊢
  omega

/-- What the scrubber finds in a word of the Basin that is not fenced. -/
theorem exec_basinScrub (bits : Nat) (hserved : inService s = true) (haddr : addr < basinSize)
    (hword : addr / 4 * 4 ∉ s.basin.fenced) (hbits : bits ≠ 0) :
    exec (.basinScrub addr bits) s = .next (if bits = 1 then ctrAdd 1 1 s else doubleError (addr / 4 * 4) s) := by
  have hin : ¬ basinSize ≤ addr / 4 * 4 := by
    have := wordOf_lt_basinSize haddr
    omega
  change execBasinScrub addr bits s = _
  simp [execBasinScrub, hserved, hin, hword, hbits]

variable (a : Nat)

theorem basinFenced_wordLost : basinFenced (wordLost a s) a 4 = true := by
  simp [basinFenced, wordLost]

/-- A lost word holds what a write of zeros leaves. -/
theorem basinByte_wordLost (b : Nat) : basinByte (wordLost a s) b = basinByte (basinWrite a [0, 0, 0, 0] s) b := rfl

theorem basinByte_wordLost_zero {i : Nat} (hwf : s.basin.wf = true) (hi : i < 4) (ha : a + 3 < basinSize) :
    basinByte (wordLost a s) (a + i) = 0 := by
  have hin : a ≤ a + i ∧ a + i < a + [(0 : Byte), 0, 0, 0].length ∧ a + i < basinSize :=
    ⟨by omega, by simpa using hi, by omega⟩
  rw [basinByte_wordLost, basinByte_basinWrite _ _ _ hwf, if_pos hin, Nat.add_sub_cancel_left]
  interval_cases i <;> rfl

theorem basinWord_wordLost (hwf : s.basin.wf = true) (ha : a + 3 < basinSize) : basinWord (wordLost a s) a = 0 := by
  have hzero : basinRead (wordLost a s) a 4 = List.replicate 4 0 := by
    rw [basinRead, List.eq_replicate_iff]
    simpa using fun i hi => basinByte_wordLost_zero a hwf hi ha
  simp [basinWord, hzero, List.replicate, leNat]

/-- A write of the word clears its fence, whatever it was fenced for (R769). -/
theorem basinFenced_basinWrite (vs : List Byte) : basinFenced (basinWrite a vs s) a vs.length = false := by
  simp only [basinFenced, basinWrite, Basin.write, State.onBasin_basin, List.any_filter, List.any_eq_false]
  intro w _
  simp
  omega

end Scrub

/-! ## Fault log records (R779–R782) -/

section FaultLog

variable {s : State}

theorem logRecord_lost_of_room (kind src ten pay loc : Nat) (h : s.contain.queue.length < 16) :
    (logRecord kind src ten pay loc s).contain.lost = false := by
  simp [logRecord, h]

theorem logRecord_lost_of_full (kind src ten pay loc : Nat) (h : 16 ≤ s.contain.queue.length) :
    (logRecord kind src ten pay loc s).contain.lost = true := by
  simp [logRecord, Nat.not_lt.2 h]

/-- The commit of the oldest record begins when the gate takes it (R781). -/
theorem exec_faultLogCommit {r : LogRec} {rs : List LogRec} {u : State} (hrun : s.pwr.state = .run)
    (hidle : logRuns s = false) (harea : logAreaFree s = true) (hqueue : s.contain.queue = r :: rs)
    (hgate : nvSubmit (nvJob (.log r) none (0xE90 + s.nv.logPos / 4) 0) s = some u) :
    exec .faultLogCommit s = .next u := by
  change execFaultLogCommit s = _
  simp [execFaultLogCommit, hrun, hidle, harea, hqueue, hgate]

end FaultLog

/-- Settles O42: the scrubber's two findings and the word that a double error loses; then the queue of records. -/
theorem scrubAndFaultLog : Obligations.ScrubAndFaultLog := by
  refine ⟨?scrub, ?records⟩
  case scrub =>
    intro addr s hserved haddr hword a
    have ha : a + 3 < basinSize := wordOf_lt_basinSize haddr
    refine ⟨?_, ?_, fun hwf => ⟨basinFenced_wordLost a, basinWord_wordLost a hwf ha, fun vs hlen => ?_⟩⟩
    · simpa using exec_basinScrub 1 hserved haddr hword (by decide)
    · simpa using exec_basinScrub 2 hserved haddr hword (by decide)
    · simpa [hlen] using basinFenced_basinWrite (s := wordLost a s) a vs
  case records =>
    intro kind src ten pay loc r rs s u
    exact ⟨fun h => ⟨(logRecord_room kind src ten pay loc s h).1, logRecord_lost_of_room kind src ten pay loc h⟩,
      fun h => ⟨logRecord_full kind src ten pay loc s h, logRecord_lost_of_full kind src ten pay loc h⟩,
      exec_faultLogCommit⟩

end Sys2Proof.Machine

/-! # Leases of the SAM interfaces, general-purpose pins, and what the pins show

One rule for each row and each pin group, and then the statement. -/

namespace Sys2Proof.Machine

open Sys2Proof

/-! ## SAM_LEASE, card detect and the current limit (R808–R811, R822, R825, R833, R837) -/

section SamLease

variable {e : Exec} {n : Nat} {s : State}

theorem exec_samLease_give (hready : Ready .house 0x0802 e s) (hn : n < 2) (hunit : Packet8 e.pkt 0 = n)
    (hact : Packet8 e.pkt 1 = 0) (hforce : bit (Packet8 e.pkt 2) 0 = false) (hfree : (samSt s n).lease = none) :
    exec .samLease s = .next (samLeaseGive n e.pkt.tenant s) :=
  nextFresh_of_ready hready (by simp [samLease, hunit, hact, hforce, hfree, Nat.le_of_lt_succ hn])

theorem exec_samLease_release (hready : Ready .house 0x0802 e s) (hn : n < 2) (hunit : Packet8 e.pkt 0 = n)
    (hact : Packet8 e.pkt 1 = 1) (hmine : (samSt s n).lease = some e.pkt.tenant) :
    exec .samLease s = .next (samRelease n s) :=
  nextFresh_of_ready hready (by simp [samLease, hunit, hact, hmine, Nat.le_of_lt_succ hn])

/-- What a level says by the polarity that fields 0x0702 and 0x0703 give. -/
theorem detPresent_of_iff {high present : Bool} (h : cfg s (0x702 + n) = 1 ↔ high = present) :
    detPresent s n high = present := by
  simp only [detPresent, h]
  cases high <;> cases present <;> rfl

/-- A level that says otherwise than before, stable for its time, is an insertion or a removal (R826). -/
theorem exec_samCardDetect {high present : Bool} {stable : Nat} (hn : n < 2) (harmed : detArmed s = true)
    (hwas : (samSt s n).present ≠ present) (hlevel : cfg s (0x702 + n) = 1 ↔ high = present)
    (hstable : 1000 * cfg s 0x704 ≤ stable) :
    exec (.samCardDetect n high stable) s = .next (if present then cardInserted n s else cardRemoved n s) := by
  change execSamCardDetect n high s stable = _
  simp [execSamCardDetect, detPresent_of_iff hlevel, harmed, hwas, Nat.le_of_lt_succ hn, Nat.not_lt.2 hstable]

theorem cardRemoved_of_off (hoff : (samSt s n).stage = .off) :
    cardRemoved n s = samEvent n 2 (onSam n (fun m => { m with present := false }) s) := by
  simp [cardRemoved, hoff]

theorem exec_samCurrentLimitActive (hn : n < 2) (hpowered : samPowered s n = true) :
    exec (.samCurrentLimitActive n) s = .next (samEvent n 3 (onSam n (fun m => { m with limitAt := some s.time }) s)) := by
  change execSamCurrentLimitActive n s = _
  simp [execSamCurrentLimitActive, hpowered, Nat.le_of_lt_succ hn]

theorem exec_samOvercurrent {at_ : Nat} (hn : n < 2) (hlimit : (samSt s n).limitAt = some at_)
    (hover : at_ + 1000 ≤ s.time) : exec (.samOvercurrent n) s = .next (fenceUnit (8 + n) 14 0 s) := by
  change execSamOvercurrent n s = _
  simp [execSamOvercurrent, hlimit, hover, Nat.le_of_lt_succ hn]

end SamLease

/-! ## The general-purpose pins (R827–R832) -/

section Gpio

variable {e : Exec} {n : Nat} {level : Bool} {s : State}

theorem exec_gpioSet (hready : Ready .house 0x0810 e s)
    (hown : ∀ i, i < 4 → bit (Packet8 e.pkt 0) i = true → pinOwnedBy s i e.pkt.tenant = true) :
    let w := fun i => BitVec.ofNat 4 (Packet8 e.pkt i)
    let u := s.onGpio fun g => { g with dir := maskedBits (w 0) (w 1) g.dir, out := maskedBits (w 0) (w 2) g.out }
    exec .gpioSet s = .next (finish .house 0 (le 1 (ownLevels u e.pkt.tenant) ++ le 3 0) none u) := by
  intro w u
  have hmine : ((List.range 4).any fun i => bit (Packet8 e.pkt 0) i && !pinOwnedBy s i e.pkt.tenant) = false := by
    simpa [List.any_eq_false] using hown
  exact nextFresh_of_ready hready (by simp [gpioSet, hmine, u, w])

/-- The mask of a pin names that pin. -/
theorem getLsbD_pinMask {k : Nat} (hk : k < 4) : (BitVec.ofNat 4 (2 ^ n)).getLsbD k = decide (n = k) := by
  rw [BitVec.getLsbD_ofNat, Nat.testBit_two_pow]
  simp [hk]

theorem getLsbD_pinLevels {k : Nat} (hk : k < 4) : (if level then 15 else 0 : BitVec 4).getLsbD k = level := by
  cases level <;> interval_cases k <;> rfl

theorem getLsbD_setPinLevel {k : Nat} (hk : k < 4) :
    (setPinLevel n level s).gpio.level.getLsbD k = if k = n then level else s.gpio.level.getLsbD k := by
  simp only [setPinLevel, State.onGpio_gpio, maskedBits, BitVec.getLsbD_or, BitVec.getLsbD_and, BitVec.getLsbD_not,
    getLsbD_pinMask hk, getLsbD_pinLevels hk, decide_eq_true hk]
  by_cases hkn : k = n
  · simp [hkn]
  · simp [hkn, Ne.symm hkn]

theorem exec_gpioEdge {stable : Nat} (hn : n < 4) (hnew : s.gpio.level.getLsbD n ≠ level)
    (hstable : cfg s 0x718 ≤ stable) :
    exec (.gpioEdge n level stable) s =
      .next (if s.pwr.state = .run ∧ s.gpio.dir.getLsbD n = false ∧ edgeSelected s n level = true then
        raise (100 + n) (b2n level) (setPinLevel n level s) else setPinLevel n level s) := by
  change execGpioEdge n level s stable = _
  simp [execGpioEdge, hnew, Nat.not_lt.2 hstable, Nat.le_of_lt_succ hn]

end Gpio

/-! ## The pin groups (R653, R830, R846, R850) -/

section Pins

variable {s : State}

theorem pinState_fdet : pinState s .fdet = if s.pins.fdet then .low else .highZ := by
  cases hstate : s.pwr.state <;> simp [pinState, hstate, pinOff, pinStart, pinRun, pinDeep, pinRetain, fdetPin]

theorem pinState_irq_of_absent (n : Nat) (hvio : s.portB.vio = false) (hstart : s.pwr.state ≠ .startup) :
    pinState s (.irq n) = .pulledLow := by
  cases hstate : s.pwr.state
  case startup => exact absurd hstate hstart
  all_goals simp [pinState, hstate, pinOff, pinRun, pinDeep, pinRetain, irqPinState, hvio]

theorem pinState_irq_of_inService (n : Nat) (hvio : s.portB.vio = true) (hserved : inService s = true) :
    pinState s (.irq n) = levelPin (irqLevel s n) := by
  obtain hstate | hstate : s.pwr.state = .run ∨ s.pwr.state = .boot := by simpa [inService] using hserved
  all_goals simp [pinState, hstate, pinRun, irqPinState, hvio]

theorem pinState_gpio (n : Nat) (hoff : s.pwr.state ≠ .off) (hstart : s.pwr.state ≠ .startup)
    (hdeep : s.pwr.state ≠ .deepStandby) :
    pinState s (.gpio n) = if s.gpio.dir.getLsbD n then levelPin (s.gpio.out.getLsbD n) else .highZ := by
  cases hstate : s.pwr.state
  case off => exact absurd hstate hoff
  case startup => exact absurd hstate hstart
  case deepStandby => exact absurd hstate hdeep
  all_goals simp [pinState, hstate, pinRun, pinRetain, gpioPin]

theorem pinState_ports_highZ (n : Nat)
    (h : s.pwr.state = .off ∨ s.pwr.state = .startup ∨ s.pwr.state = .deepStandby) :
    pinState s (.gpio n) = .highZ ∧ pinState s .portA = .highZ ∧ pinState s .bMiso = .highZ := by
  obtain hstate | hstate | hstate := h <;> simp [pinState, hstate, pinOff, pinStart, pinDeep]

theorem pinState_vpa_discharged (h : s.pwr.state = .off ∨ s.pwr.state = .deepStandby) :
    pinState s .vpa = .discharged ∧ pinState s .htx = .clamp := by
  obtain hstate | hstate := h <;> simp [pinState, hstate, pinOff, pinDeep]

theorem pinState_uhf_off (hrun : s.pwr.state ≠ .run) (hboot : s.pwr.state ≠ .boot)
    (hrecovery : s.pwr.state ≠ .recovery) : pinState s .uhf = .off := by
  cases hstate : s.pwr.state
  case run => exact absurd hstate hrun
  case boot => exact absurd hstate hboot
  case recovery => exact absurd hstate hrecovery
  all_goals simp [pinState, hstate, pinOff, pinStart, pinDeep, pinRetain]

end Pins

/-- Settles O47: the lease and the card of an interface, the edges and levels of the pins, and what the pin groups show
in the power states that the statement names. A lease is given and taken back as R811 and R837 say; which events a
removal and a current limit raise is log 152. -/
theorem samLeaseAndPins : Obligations.SamLeaseAndPins := by
  refine ⟨?sam, ?gpio, ?pins⟩
  case sam =>
    intro e n at_ stable high s hn
    refine ⟨fun hready => exec_samLease_give hready hn, fun hready => exec_samLease_release hready hn,
      fun harmed hwas hlevel hstable => ?_, fun harmed hwas hoff hlevel hstable => ?_,
      exec_samCurrentLimitActive hn, exec_samOvercurrent hn⟩
    · exact exec_samCardDetect (present := true) hn harmed (by simp [hwas]) hlevel hstable
    · rw [exec_samCardDetect (present := false) hn harmed (by simp [hwas]) hlevel hstable]
      exact congrArg _ (cardRemoved_of_off hoff)
  case gpio =>
    intro e n stable level s
    refine ⟨exec_gpioSet, fun hn hnew hstable => ⟨_, exec_gpioEdge hn hnew hstable, ?_, ?_, ?_, ?_, ?_⟩⟩
    · intro k hk
      rw [← getLsbD_setPinLevel hk]
      split <;> simp
    · split <;> simp [setPinLevel]
    · split <;> simp [setPinLevel]
    · exact fun hrun hin hedge => if_pos ⟨hrun, hin, hedge⟩
    · rintro (hout | hedge)
      · simp [hout]
      · simp [hedge]
  case pins =>
    intro n s
    exact ⟨pinState_fdet, pinState_irq_of_absent n, pinState_irq_of_inService n, pinState_gpio n,
      pinState_ports_highZ n, pinState_vpa_discharged, pinState_uhf_off⟩

end Sys2Proof.Machine

/-! # SAM activation and SAM exchange

One rule for each command and each moment of the packet that uses an interface, and then the statement. -/

namespace Sys2Proof.Machine

open Sys2Proof

/-! ## The packet that uses an interface -/

section SamUser

variable {e : Exec} {n : Nat} {s : State} {f : State → State}

theorem execOf_of_samUser (h : samUser s n = some e) : execOf s .house = some e := by
  unfold samUser at h
  split at h
  next => simp at h
  next x hx =>
    have hxe : x = e := by
      split at h
      · split at h <;> simp_all
      · split at h <;> simp_all
      · simp at h
    exact hxe ▸ hx

theorem samWaiter_of_samUser (h : samUser s n = some e) : samWaiter n e = true := by
  have he : s.houseLane.exec = some e := execOf_of_samUser h
  simp only [samUser, he] at h
  unfold samWaiter
  split at h
  · split at h <;> simp_all
  · split at h <;> simp_all
  · simp at h

/-- An event of an interface concerns the packet that uses it. -/
theorem withWaiting_of_samUser (h : samUser s n = some e) : withWaiting .house (samWaiter n) f s = f s :=
  withWaiting_of_exec (execOf_of_samUser h) (samWaiter_of_samUser h)

end SamUser

/-! ## SAM_POWER and its ATR (R810–R818) -/

section Power

variable {e : Exec} {op : SamPowerOp} {n : Nat} {s : State}

theorem exec_samPower_cold (hready : Ready .house 0x0800 e s) (hunit : Packet8 e.pkt 0 = n) (hn : n < 2)
    (hmine : samLeased s n e.pkt.tenant = true) (hlow : 1 ≤ Packet8 e.pkt 2) (hhigh : Packet8 e.pkt 2 ≤ 3)
    (hact : Packet8 e.pkt 1 = 1) :
    exec .samPower s = .next (samActivate
      { n := n, pps := bit (Packet8 e.pkt 3) 0, cls := Packet8 e.pkt 2, tryNext := [], off := Packet32 e.pkt 4
        ppsSent := false, warm := false } (samDown n s)) := by
  have hcls : Packet8 e.pkt 2 ≠ 0 := Nat.ne_of_gt hlow
  refine nextFresh_of_ready hready ?_
  simp [samPower, hunit, hact, hmine, hcls, Nat.le_of_lt_succ hn, Nat.not_lt.2 hhigh]

section Waiting

variable (huser : samUser s n = some e) (hphase : e.phase = .samPower op)
include huser hphase

theorem exec_samAtrReceived {atr : List Byte} (pps : Bool) (hstage : (samSt s n).stage = .atrWait)
    (hrst : rstHigh s n = true) : exec (.samAtrReceived n atr pps) s =
      .next (if (atrInfo atr).valid then samAtr op e.pkt.tenant atr pps s else samAtrFailed op 0x23 s) :=
  congrArg _ ((withWaiting_of_samUser huser).trans (by simp [huser, hphase, hstage, hrst]))

theorem exec_samAtrTimeout (hstage : (samSt s n).stage = .atrWait) (hover : windowOver s (samSt s n).waitAt = true) :
    exec (.samAtrTimeout n) s = .next (samAtrFailed op 0x20 s) :=
  congrArg _ ((withWaiting_of_samUser huser).trans (by simp [huser, hphase, hstage, hover]))

theorem exec_samClassRetry (hstage : (samSt s n).stage = .offWait) (hdue : (samSt s n).offAt + 10000 ≤ s.time) :
    exec (.samClassRetry n) s = .next (samActivate op s) :=
  congrArg _ ((withWaiting_of_samUser huser).trans (by simp [huser, hphase, hstage, hdue]))

theorem exec_samRxBlock_ifs (rx : SamRx) (gap : Nat) (hstage : (samSt s n).stage = .ifsWait)
    (hgo : stopDue s e = none) : exec (.samRxBlock n rx gap) s =
      .next (samIfsNext op e.pkt.tenant (samBlock (samSt s n) rx gap) s) :=
  congrArg _ ((withWaiting_of_samUser huser).trans (by simp [huser, samRx, hphase, hstage, hgo]))

theorem exec_samWaitTimeout_ifs (hstage : (samSt s n).stage = .ifsWait)
    (hover : windowOver s (samSt s n).waitAt = true) :
    exec (.samWaitTimeout n) s = .next (samIfsError op e.pkt.tenant 0x20 s) :=
  congrArg _ ((withWaiting_of_samUser huser).trans (by simp [huser, hphase, hstage, hover]))

end Waiting

end Power

/-! ## SAM_EXCHANGE (R819–R823) -/

section Exchange

variable {e : Exec} {op : SamXchgOp} {n : Nat} {s : State}

theorem exec_samExchange (hready : Ready .house 0x0801 e s) (hunit : Packet8 e.pkt 0 = n) (hn : n < 2)
    (hlow : 4 ≤ Packet16 e.pkt 2) (hhigh : Packet16 e.pkt 2 ≤ 4096) (hroom : 2 ≤ Packet16 e.pkt 12)
    (hmax : Packet16 e.pkt 12 ≤ 4096) (hmine : samLeased s n e.pkt.tenant = true)
    (hstage : (samSt s n).stage = .ready) :
    let cmd := poundRead s e.pkt.tenant (Packet32 e.pkt 4) (Packet16 e.pkt 2)
    let o : SamXchgOp :=
      { n := n, autoGr := bit (Packet8 e.pkt 1) 0, cmd := cmd, rest := cmd, rsp := [], rspOff := Packet32 e.pkt 8
        rspMax := Packet16 e.pkt 12, retrans := 0, waits := 0, tries := 0, resynched := false }
    exec .samExchange s = .next (if (samSt s n).proto = 0 then t0Send o cmd s else t1Send o s) := by
  refine nextFresh_of_ready hready ?_
  simp [samExchange, hunit, hmine, hstage, Nat.le_of_lt_succ hn, Nat.not_lt.2 hlow, Nat.not_lt.2 hhigh,
    Nat.not_lt.2 hroom, Nat.not_lt.2 hmax]

section Waiting

variable (huser : samUser s n = some e) (hphase : e.phase = .samXchg op) (hstage : (samSt s n).stage = .ready)
include huser hphase hstage

theorem exec_samRxBlock (rx : SamRx) (gap : Nat) (hgo : stopDue s e = none) : exec (.samRxBlock n rx gap) s =
    .next (if (samSt s n).proto = 0 then t0Next op (samBlock (samSt s n) rx gap) s
      else t1Next op (samBlock (samSt s n) rx gap) s) :=
  congrArg _ ((withWaiting_of_samUser huser).trans (by simp [huser, samRx, hphase, hstage, hgo]))

theorem exec_samRxBlock_stop (rx : SamRx) (gap : Nat) {status : Nat} (hstop : stopDue s e = some status) :
    exec (.samRxBlock n rx gap) s = .next (samXchgEnd op status none s) :=
  congrArg _ ((withWaiting_of_samUser huser).trans (by simp [huser, samRx, hphase, hstage, hstop]))

theorem exec_samWaitTimeout (hover : windowOver s (samSt s n).waitAt = true) :
    exec (.samWaitTimeout n) s = .next (samXchgFail op 0x20 s) :=
  congrArg _ ((withWaiting_of_samUser huser).trans (by simp [huser, hphase, hstage, hover]))

end Waiting

/-- Characters that follow at once break no CWT. -/
theorem samBlock_of_no_gap (m : Sam) (rx : SamRx) : samBlock m rx 0 = rx := by simp [samBlock]

/-- A block of T=1 whose characters came further apart than CWT is a failed one (log 201). -/
theorem samBlock_of_gap {m : Sam} {gap : Nat} (rx : SamRx) (hproto : m.proto ≠ 0) (hgap : samCwt m < gap) :
    samBlock m rx gap = .bad := by
  simp [samBlock, hproto, hgap]

end Exchange

/-- Settles O46: the moments of an activation, and those of an exchange. By the model's choice a cold activation
deactivates first (log 142), a failed ATR ends with 0x23 and a missing one with 0x20 (log 143), a block that breaks CWT is
a failed one (log 201), and a failed S(IFS request) leaves the interface powered (log 242). -/
theorem samActivationAndExchange : Obligations.SamActivationAndExchange := by
  refine ⟨?power, ?exchange⟩
  case power =>
    intro e op n atr pps s
    refine ⟨exec_samPower_cold, fun huser hphase hstage => ⟨fun hrst hvalid => ?_, fun hrst hvalid => ?_,
      exec_samAtrTimeout huser hphase hstage⟩, exec_samClassRetry⟩
    · rw [exec_samAtrReceived huser hphase pps hstage hrst, if_pos hvalid]
    · rw [exec_samAtrReceived huser hphase pps hstage hrst, if_neg (by simp [hvalid])]
  case exchange =>
    intro e op n rx s
    exact ⟨exec_samExchange,
      fun huser hphase hstage => ⟨exec_samRxBlock huser hphase hstage rx,
        fun gap _ => exec_samRxBlock_stop huser hphase hstage rx gap, exec_samWaitTimeout huser hphase hstage⟩,
      fun pw huser hphase hstage => ⟨fun gap => exec_samRxBlock_ifs huser hphase rx gap hstage,
        exec_samWaitTimeout_ifs huser hphase hstage⟩,
      fun m => ⟨samBlock_of_no_gap m rx, fun hproto _ => samBlock_of_gap rx hproto⟩⟩

end Sys2Proof.Machine
